-- ==== Sys2Proof/Word.lean ====
section
/-! DEFINITION. The widths the manual gives its data (R9, R39, R337) and the plain list of key and value pairs the model holds sparse state in. -/

namespace Sys2Proof

/-- A byte of memory. -/
abbrev Byte := BitVec 8

/-- A 32-bit word: a syllable, a literal, a vector lane, an FP32 encoding. -/
abbrev W32 := BitVec 32

/-- A 64-bit scalar register or system register (R9, R15). -/
abbrev Word := BitVec 64

/-- The 64 lanes of a vector register, lane 0 first (R9, R129). -/
abbrev Lanes := List W32

/-- A table by key: one entry for each key that has been written, the first of a key being the one that
counts (Machine/Store.lean holds its operations). -/
abbrev Table (α : Type) := List (Nat × α)

end Sys2Proof
end

