-- ==== Sys2Proof/Machine/Store.lean ====
section
/-! DEFINITION. Memory as a canonical list of cells, tables by key, and the byte order of R41 and R70: every
multi-byte value is little-endian. -/

namespace Sys2Proof.Machine

/-- Byte-addressed memory: addresses strictly rising, no cell equal to what an unlisted address reads as. -/
abbrev Memory := List Host.Cell

/-- What a byte that nothing has written reads as. DESIGN CHOICE (notes/assumptions/1.md). -/
def unlistedByte : Byte := 0#8

/-- One byte of memory. -/
def Memory.read (m : Memory) (a : Nat) : Byte :=
  match m with
  | [] => unlistedByte
  | (k, b) :: m => if k = a then b else Memory.read m a

/-- The cells that the bytes `bs` at `a` need. -/
def cellsOf (a : Nat) : List Byte → List Host.Cell
  | [] => []
  | b :: bs => if b = unlistedByte then cellsOf (a + 1) bs else (a, b) :: cellsOf (a + 1) bs

/-- The bytes `bs` written from address `a` on. -/
def Memory.write (m : Memory) (a : Nat) (bs : List Byte) : Memory :=
  m.filter (fun c => decide (c.1 < a)) ++ cellsOf a bs ++ m.filter (fun c => decide (a + bs.length ≤ c.1))

/-- The canonical form: addresses strictly rise from `lo` on and no cell holds the unlisted byte. -/
def Memory.wfFrom (lo : Nat) : List Host.Cell → Bool
  | [] => true
  | (k, b) :: m => decide (lo ≤ k) && decide (b ≠ unlistedByte) && Memory.wfFrom (k + 1) m

/-- The canonical form of a whole memory. -/
def Memory.wf (m : Memory) : Bool := Memory.wfFrom 0 m

/-- `n` bytes from address `a` on. -/
def Memory.bytes (m : Memory) (a n : Nat) : List Byte := (List.range n).map fun i => m.read (a + i)

/-- The little-endian integer of a list of bytes (R41, R70). -/
def leNat : List Byte → Nat
  | [] => 0
  | b :: bs => b.toNat + 256 * leNat bs

/-- The `n` little-endian bytes of a natural (R41, R70). -/
def leBytes (n v : Nat) : List Byte := (List.range n).map fun i => BitVec.ofNat 8 (v >>> (8 * i))

/-- The little-endian integer of `n` bytes at `a`. -/
def Memory.nat (m : Memory) (a n : Nat) : Nat := leNat (m.bytes a n)

/-- The 64-bit word at `a`. -/
def Memory.word (m : Memory) (a : Nat) : Word := BitVec.ofNat 64 (m.nat a 8)

/-- The 64-bit word `w` stored at `a`. -/
def Memory.putWord (m : Memory) (a : Nat) (w : Word) : Memory := m.write a (leBytes 8 w.toNat)

/-- The entry of a key, or the default. -/
def Table.get {α : Type} (d : α) (t : Table α) (k : Nat) : α :=
  match t with
  | [] => d
  | (k', x) :: t => if k' = k then x else Table.get d t k

/-- The entry of a key replaced in place, or added at the end. -/
def Table.put {α : Type} (t : Table α) (k : Nat) (x : α) : Table α :=
  match t with
  | [] => [(k, x)]
  | (k', y) :: t => if k' = k then (k, x) :: t else (k', y) :: Table.put t k x

/-- The keys that have entries. -/
def Table.keys {α : Type} (t : Table α) : List Nat := t.map Prod.fst

/-- The key has an entry. -/
def Table.has {α : Type} (t : Table α) (k : Nat) : Bool := t.any fun c => c.1 == k

/-- The table without a key's entry. -/
def Table.drop {α : Type} (t : Table α) (k : Nat) : Table α := t.filter fun c => c.1 != k

/-- The distinct elements of a list, in order of first appearance. -/
def distinct {α : Type} [DecidableEq α] (l : List α) : List α :=
  l.foldl (fun acc x => if acc.contains x then acc else acc ++ [x]) []

end Sys2Proof.Machine
end

