-- ==== Sys2Proof/Machine/Hash.lean ====
section
/-! DEFINITION. SHAKE256 and KMAC256 (R66, R378, R380, R389, R396) and CRC-32C (R226, R397). The manual names them and gives
no definition; these are FIPS 202, SP 800-185 and the Castagnoli CRC. PRESUMED (notes/assumptions/5.md). -/

namespace Sys2Proof.Machine

/-- Lane (x, y) of a Keccak state, in the order x + 5y. -/
def kLane (a : List Word) (x y : Nat) : Word := a.getD (x % 5 + 5 * (y % 5)) 0

/-- A Keccak state from its lanes. -/
def kState (f : Nat → Nat → Word) : List Word := (List.range 25).map fun i => f (i % 5) (i / 5)

/-- The rotation offsets of ρ, in the order x + 5y. -/
def kRot : List Nat :=
  [0, 1, 62, 28, 27, 36, 44, 6, 55, 20, 3, 10, 43, 25, 39, 41, 45, 15, 21, 8, 18, 2, 61, 56, 14]

/-- The round constants of ι. -/
def kRound : List Word :=
  [0x0000000000000001#64, 0x0000000000008082#64, 0x800000000000808A#64, 0x8000000080008000#64,
   0x000000000000808B#64, 0x0000000080000001#64, 0x8000000080008081#64, 0x8000000000008009#64,
   0x000000000000008A#64, 0x0000000000000088#64, 0x0000000080008009#64, 0x000000008000000A#64] ++
  [0x000000008000808B#64, 0x800000000000008B#64, 0x8000000000008089#64, 0x8000000000008003#64,
   0x8000000000008002#64, 0x8000000000000080#64, 0x000000000000800A#64, 0x800000008000000A#64,
   0x8000000080008081#64, 0x8000000000008080#64, 0x0000000080000001#64, 0x8000000080008008#64]

/-- θ. -/
def kTheta (a : List Word) : List Word :=
  let c := (List.range 5).map fun x => kLane a x 0 ^^^ kLane a x 1 ^^^ kLane a x 2 ^^^ kLane a x 3 ^^^ kLane a x 4
  let d := (List.range 5).map fun x => c.getD ((x + 4) % 5) 0 ^^^ (c.getD ((x + 1) % 5) 0).rotateLeft 1
  kState fun x y => kLane a x y ^^^ d.getD x 0

/-- ρ and π. -/
def kRhoPi (a : List Word) : List Word :=
  kState fun x y =>
    let u := (x + 3 * y) % 5
    (kLane a u x).rotateLeft (kRot.getD (u + 5 * x) 0)

/-- χ. -/
def kChi (a : List Word) : List Word :=
  kState fun x y => kLane a x y ^^^ (~~~ (kLane a (x + 1) y) &&& kLane a (x + 2) y)

/-- One round with its constant. -/
def kStep (a : List Word) (rc : Word) : List Word :=
  match kChi (kRhoPi (kTheta a)) with
  | l :: t => (l ^^^ rc) :: t
  | [] => []

/-- Keccak-f[1600]. -/
def keccakF (a : List Word) : List Word := kRound.foldl kStep a

/-- A block of 136 bytes absorbed. -/
def absorbBlock (a : List Word) (bs : List Byte) : List Word :=
  keccakF (a.zipIdx.map fun p => p.1 ^^^ BitVec.ofNat 64 (leNat ((bs.drop (8 * p.2)).take 8)))

/-- `n` blocks of 136 bytes absorbed. -/
def absorb : Nat → List Word → List Byte → List Word
  | 0, a, _ => a
  | n + 1, a, bs => absorb n (absorbBlock a (bs.take 136)) (bs.drop 136)

/-- `n` blocks of 136 bytes squeezed. -/
def squeeze : Nat → List Word → List Byte
  | 0, _ => []
  | n + 1, a => (a.take 17).flatMap (fun w => leBytes 8 w.toNat) ++ squeeze n (keccakF a)

/-- Padding with a domain byte to whole blocks of 136 bytes. -/
def padTo (dom : Byte) (bs : List Byte) : List Byte :=
  let z := 135 - bs.length % 136
  if z = 0 then bs ++ [dom ||| 0x80#8] else bs ++ [dom] ++ List.replicate (z - 1) 0 ++ [0x80#8]

/-- The sponge of capacity 512 with a domain byte, `n` bytes out. -/
def sponge (dom : Byte) (bs : List Byte) (n : Nat) : List Byte :=
  let p := padTo dom bs
  (squeeze ((n + 135) / 136) (absorb (p.length / 136) (List.replicate 25 0) p)).take n

/-- SHAKE256, `n` bytes. -/
def shake256 (bs : List Byte) (n : Nat) : List Byte := sponge 0x1F#8 bs n

/-- The big-endian bytes of a natural, at least one. -/
def beBytes (v : Nat) : List Byte := (leBytes (max 1 ((v.log2 + 8) / 8)) v).reverse
/-- left_encode of SP 800-185. -/
def leftEncode (v : Nat) : List Byte := let b := beBytes v; BitVec.ofNat 8 b.length :: b
/-- right_encode of SP 800-185. -/
def rightEncode (v : Nat) : List Byte := let b := beBytes v; b ++ [BitVec.ofNat 8 b.length]
/-- encode_string of SP 800-185. -/
def encodeString (bs : List Byte) : List Byte := leftEncode (8 * bs.length) ++ bs
/-- bytepad of SP 800-185 to 136 bytes. -/
def bytepad (bs : List Byte) : List Byte :=
  let p := leftEncode 136 ++ bs
  p ++ List.replicate ((136 - p.length % 136) % 136) 0

/-- KMAC256 under a key with a customisation string, `n` bytes (SP 800-185). -/
def kmac256Custom (key custom msg : List Byte) (n : Nat) : List Byte :=
  sponge 0x04#8
    (bytepad (encodeString [0x4B#8, 0x4D#8, 0x41#8, 0x43#8] ++ encodeString custom) ++ bytepad (encodeString key) ++ msg ++
      rightEncode (8 * n)) n
/-- KMAC256 with an empty customisation string. -/
def kmac256 (key msg : List Byte) (n : Nat) : List Byte := kmac256Custom key [] msg n

/-- One bit of the reflected CRC-32C. -/
def crcBit (c : W32) : W32 := if c.getLsbD 0 then (c >>> 1) ^^^ 0x82F63B78#32 else c >>> 1
/-- One byte of CRC-32C, without the initial value and final inversion. -/
def crcByte (c : W32) (b : Byte) : W32 :=
  (List.range 8).foldl (fun c _ => crcBit c) (c ^^^ b.zeroExtend 32)
/-- CRC-32C chained from a value. -/
def crcChain (c : W32) (bs : List Byte) : W32 := bs.foldl crcByte c
/-- CRC-32C of a block. -/
def crc32c (bs : List Byte) : W32 := ~~~ (crcChain 0xFFFFFFFF#32 bs)

end Sys2Proof.Machine
end

