-- ==== Sys2Proof/Syntax.lean ====
section
/-! DEFINITION. The instruction set: one constructor per row of spec/opcode_table.json. A row with an
encoding is a syllable and carries its tag (STOP, the free slot bit, the condition, R73) and the fields
of its operand form (R76). A row without an encoding is one of the machine's other steps: its Subject says
what that step is about. -/

namespace Sys2Proof

/-- STOP and the condition of a syllable of slot M or X, whose slot is fixed by its class (R73). -/
structure Tag where
  stop : Bool
  inv  : Bool
  pidx : BitVec 3
deriving DecidableEq, Repr

/-- The tag of a scalar, vector or local-memory syllable: `second` is the low bit of SLOT, which names
S1, V1 or L1 (R69, R73). -/
structure Tag2 where
  stop   : Bool
  second : Bool
  inv    : Bool
  pidx   : BitVec 3
deriving DecidableEq, Repr

/-- The tag of NOP, which every slot's map holds at opcode 0 (R90). -/
structure TagAny where
  stop : Bool
  slot : BitVec 3
  inv  : Bool
  pidx : BitVec 3
deriving DecidableEq, Repr

/-- The channel and identifier that name a transfer within its core (R283). -/
structure Xid where
  ch : Nat
  id : BitVec 32
deriving DecidableEq, Repr

/-- An arrival unit of R191: one row update of one tile, of value `q[j] × 2^e` (R220); `seq` is
its place in its transfer's unit order (R192), and `kept` says that it holds the sixteenth entry of the queue (R193). -/
structure ArrUnit where
  tile : Nat
  row  : Nat
  src  : Nat
  x    : Xid
  seq  : Nat
  e    : Int
  q    : List Int
  kept : Bool := false
deriving DecidableEq, Repr

/-- A fabric packet of R399: the header fields, the operand words 3 to 7, and the data bytes. -/
structure Packet where
  dmod  : Nat
  smod  : Nat
  type  : Nat
  asid  : Nat
  pseq  : Nat
  core  : Nat
  x     : Xid
  ops   : List Word
  data  : List Byte
deriving DecidableEq, Repr

/-- A link unit of R397: 64 flit bytes and the trailer word. -/
structure LinkUnit where
  flit    : List Byte
  trailer : Word
deriving DecidableEq, Repr

/-- What the seven items of a bench test find (R392): the pairs that fail item 1, those that fail item 2 and the PEs that fail in
it, the on-die memories that fail item 3, the rows, by die and line, that fail item 4, the lanes that fail item 5, the new
RESCAP of item 6 in mJ, and the rows that fail item 7. -/
structure BenchResult where
  pairs  : List Nat := []
  pairs2 : List Nat := []
  pes    : List Nat := []
  sram   : Nat := 0
  rows   : List (Nat × Nat) := []
  lanes  : List Nat := []
  rescap : Nat := 9600000
  rows7  : List (Nat × Nat) := []
deriving DecidableEq, Repr

/-- What an event row is about. A row without an encoding has no operand bits, so the machine holds its
subject beside the instruction (State.ev, State.agenda); each row's docstring names the fields it reads. -/
structure Subject where
  core    : Nat := 0
  ctx     : Nat := 0
  core2   : Nat := 0
  ctx2    : Nat := 0
  die     : Nat := 0
  cluster : Nat := 0
  entry   : Nat := 0
  port    : Nat := 0
  queue   : Nat := 0
  lnum    : Nat := 0
  node    : Nat := 0
  asid    : Nat := 0
  addr    : Nat := 0
  index   : Nat := 0
  count   : Nat := 0
  flag    : Bool := false
  value   : Word := 0
  x       : Xid := ⟨0, 0⟩
  nats    : List Nat := []
  words   : List Word := []
  bytes   : List Byte := []
  unit    : ArrUnit := { tile := 0, row := 0, src := 0, x := ⟨0, 0⟩, seq := 0, e := 0, q := [] }
  packet  : Packet := ⟨0, 0, 0, 0, 0, 0, ⟨0, 0⟩, [], []⟩
  link    : LinkUnit := ⟨[], 0⟩
  bench   : BenchResult := {}
deriving DecidableEq, Repr

/-- The rows of the opcode table: the encoded rows first, then the machine's other steps. -/
inductive Instr where
  /-- NOP (R90). Opcode 0 of every slot map does nothing. -/
  | nop (tg : TagAny)
  /-- ADD (R104). s(d) := s(a) + s(b). -/
  | add (tg : Tag2) (d a b : BitVec 5)
  /-- SUB (R104). s(d) := s(a) - s(b). -/
  | sub (tg : Tag2) (d a b : BitVec 5)
  /-- MUL (R104). Low 64 bits of s(a) × s(b). -/
  | mul (tg : Tag2) (d a b : BitVec 5)
  /-- MULH (R104). High 64 bits of the signed 128-bit product. -/
  | mulh (tg : Tag2) (d a b : BitVec 5)
  /-- AND (R104). Bitwise AND. -/
  | and (tg : Tag2) (d a b : BitVec 5)
  /-- OR (R104). Bitwise OR. -/
  | or (tg : Tag2) (d a b : BitVec 5)
  /-- XOR (R104). Bitwise XOR. -/
  | xor (tg : Tag2) (d a b : BitVec 5)
  /-- ANDN (R104). s(a) AND NOT s(b). -/
  | andn (tg : Tag2) (d a b : BitVec 5)
  /-- SHL (R104). Shift left by s(b)[5:0]. -/
  | shl (tg : Tag2) (d a b : BitVec 5)
  /-- SHR (R104). Logical shift right. -/
  | shr (tg : Tag2) (d a b : BitVec 5)
  /-- SRA (R104). Arithmetic shift right. -/
  | sra (tg : Tag2) (d a b : BitVec 5)
  /-- MIN (R104). Signed minimum. -/
  | min (tg : Tag2) (d a b : BitVec 5)
  /-- MAX (R104). Signed maximum. -/
  | max (tg : Tag2) (d a b : BitVec 5)
  /-- ADDI (R104). s(a) + sign-extended imm6. -/
  | addi (tg : Tag2) (d a : BitVec 5) (imm : BitVec 6)
  /-- MULI (R104). Low 64 bits of s(a) × imm6. -/
  | muli (tg : Tag2) (d a : BitVec 5) (imm : BitVec 6)
  /-- ANDI (R104). s(a) AND sign-extended imm6. -/
  | andi (tg : Tag2) (d a : BitVec 5) (imm : BitVec 6)
  /-- ORI (R104). s(a) OR sign-extended imm6. -/
  | ori (tg : Tag2) (d a : BitVec 5) (imm : BitVec 6)
  /-- XORI (R104). s(a) XOR sign-extended imm6. -/
  | xori (tg : Tag2) (d a : BitVec 5) (imm : BitVec 6)
  /-- SHLI (R104). Shift left by an unsigned count. -/
  | shli (tg : Tag2) (d a : BitVec 5) (imm : BitVec 6)
  /-- SHRI (R104). Logical shift right by an unsigned count. -/
  | shri (tg : Tag2) (d a : BitVec 5) (imm : BitVec 6)
  /-- SRAI (R104). Arithmetic shift right by an unsigned count. -/
  | srai (tg : Tag2) (d a : BitVec 5) (imm : BitVec 6)
  /-- ADDL (R105). s(a) + sign-extended literal. -/
  | addl (tg : Tag2) (d a : BitVec 5) (l : BitVec 4)
  /-- ADDX3 (R104). s(a) + s(b) × 8. -/
  | addx3 (tg : Tag2) (d a b : BitVec 5)
  /-- MOVI (R105). s(d) := sign-extended imm11. -/
  | movi (tg : Tag2) (d : BitVec 5) (imm : BitVec 11)
  /-- MOVL (R105). s(d) := sign-extended literal. -/
  | movl (tg : Tag2) (d : BitVec 5) (l : BitVec 4)
  /-- MOVL64 (R105). s(d) := literals L and L+1 as a 64-bit value. -/
  | movl64 (tg : Tag2) (d : BitVec 5) (l : BitVec 4)
  /-- CLZ (R104). Count leading zeros of s(a). -/
  | clz (tg : Tag2) (d a : BitVec 5)
  /-- POPC (R104). Count one bits of s(a). -/
  | popc (tg : Tag2) (d a : BitVec 5)
  /-- CMPEQ (R106). p(pd) := s(a) = s(b). -/
  | cmpeq (tg : Tag2) (pd : BitVec 3) (a b : BitVec 5)
  /-- CMPNE (R106). p(pd) := s(a) ≠ s(b). -/
  | cmpne (tg : Tag2) (pd : BitVec 3) (a b : BitVec 5)
  /-- CMPLT (R106). Signed less-than compare. -/
  | cmplt (tg : Tag2) (pd : BitVec 3) (a b : BitVec 5)
  /-- CMPGE (R106). Signed greater-or-equal compare. -/
  | cmpge (tg : Tag2) (pd : BitVec 3) (a b : BitVec 5)
  /-- CMPLTU (R106). Unsigned less-than compare. -/
  | cmpltu (tg : Tag2) (pd : BitVec 3) (a b : BitVec 5)
  /-- CMPGEU (R106). Unsigned greater-or-equal compare. -/
  | cmpgeu (tg : Tag2) (pd : BitVec 3) (a b : BitVec 5)
  /-- CMPEQI (R106). p(pd) := s(a) = sign-extended imm8. -/
  | cmpeqi (tg : Tag2) (pd : BitVec 3) (a : BitVec 5) (imm : BitVec 8)
  /-- CMPLTI (R106). Signed s(a) < imm8. -/
  | cmplti (tg : Tag2) (pd : BitVec 3) (a : BitVec 5) (imm : BitVec 8)
  /-- CMPLTUI (R106). Unsigned s(a) < zero-extended imm8. -/
  | cmpltui (tg : Tag2) (pd : BitVec 3) (a : BitVec 5) (imm : BitVec 8)
  /-- PAND (R107). Predicate AND with optional negation. -/
  | pand (tg : Tag2) (pd pa pb : BitVec 3) (na nb : BitVec 1)
  /-- POR (R107). Predicate OR with optional negation. -/
  | por (tg : Tag2) (pd pa pb : BitVec 3) (na nb : BitVec 1)
  /-- PXOR (R107). Predicate XOR with optional negation. -/
  | pxor (tg : Tag2) (pd pa pb : BitVec 3) (na nb : BitVec 1)
  /-- SEL (R108). s(d) := cond ? s(a) : s(b); always issues. -/
  | sel (tg : Tag2) (d a b : BitVec 5)
  /-- BR (R109). Branch by a signed word offset. -/
  | br (tg : Tag2) (off : BitVec 16)
  /-- CALL (R109). Branch by offset and link to s15. -/
  | call (tg : Tag2) (off : BitVec 16)
  /-- JR (R109). Jump to s(a)[31:2] × 4. -/
  | jr (tg : Tag2) (a : BitVec 5)
  /-- CALLR (R109). Jump to s(a) and link to s15. -/
  | callr (tg : Tag2) (a : BitVec 5)
  /-- RET (R109). Jump to s15[31:2] × 4. -/
  | ret (tg : Tag2)
  /-- BRL (R109). Branch to the absolute literal address. -/
  | brl (tg : Tag2) (l : BitVec 4)
  /-- LOOP (R111). Open a software-pipelined loop of S stages over s(a) trips, or set the skip flag for zero trips. -/
  | loop (tg : Tag2) (ns : BitVec 2) (a : BitVec 5)
  /-- SYNC (R115). Marks the trestle wait of a sync bundle; no architectural effect. -/
  | sync (tg : Tag2)
  /-- KWAIT (R116). Consume two tokens as an acquire, blocking the bundle until both are ready. -/
  | kwait (tg : Tag2) (ka kb : BitVec 6)
  /-- TRAP (R118). Raise a software trap with a class-7 code after the bundle's final issue. -/
  | trap (tg : Tag2) (code : BitVec 10)
  /-- ERET (R119). Return from a trap, restoring privilege, loop skip, current operations and the trap chest. -/
  | eret (tg : Tag2)
  /-- YIELD (R120). End the context's hold on issue while staying ready. -/
  | yield (tg : Tag2)
  /-- TEND (R121). End the task; it completes once all its work has landed and performed. -/
  | tend (tg : Tag2)
  /-- MFSR (R122). Read a system register into s(d). -/
  | mfsr (tg : Tag2) (d : BitVec 5) (sr : BitVec 8)
  /-- MTSR (R122). Write a system register from s(d), with field-specific checks. -/
  | mtsr (tg : Tag2) (d : BitVec 5) (sr : BitVec 8)
  /-- RDEN (R125). Read the context's energy count into s(d). -/
  | rden (tg : Tag2) (d : BitVec 5)
  /-- RAND (R126). Draw one 64-bit random word into s(d) at latency 6. -/
  | rand (tg : Tag2) (d : BitVec 5)
  /-- SEEDREQ (R127). Request a new seed-log key, producing a token. -/
  | seedreq (tg : Tag2) (d : BitVec 5) (kd : BitVec 6)
  /-- VADD.F32 (R135). Lane-wise FP32 add. -/
  | vaddF32 (tg : Tag2) (d a b : BitVec 5)
  /-- VSUB.F32 (R135). Lane-wise FP32 subtract. -/
  | vsubF32 (tg : Tag2) (d a b : BitVec 5)
  /-- VMUL.F32 (R135). Lane-wise FP32 multiply. -/
  | vmulF32 (tg : Tag2) (d a b : BitVec 5)
  /-- VFMA.F32 (R135). Lane-wise FP32 fused multiply-add into vd. -/
  | vfmaF32 (tg : Tag2) (d a b : BitVec 5)
  /-- VMIN.F32 (R135). Lane-wise FP32 minimum. -/
  | vminF32 (tg : Tag2) (d a b : BitVec 5)
  /-- VMAX.F32 (R135). Lane-wise FP32 maximum. -/
  | vmaxF32 (tg : Tag2) (d a b : BitVec 5)
  /-- VADD.BF16 (R135). Element-wise BF16 add. -/
  | vaddBf16 (tg : Tag2) (d a b : BitVec 5)
  /-- VSUB.BF16 (R135). Element-wise BF16 subtract. -/
  | vsubBf16 (tg : Tag2) (d a b : BitVec 5)
  /-- VMUL.BF16 (R135). Element-wise BF16 multiply. -/
  | vmulBf16 (tg : Tag2) (d a b : BitVec 5)
  /-- VFMA.BF16 (R135). Element-wise BF16 fused multiply-add. -/
  | vfmaBf16 (tg : Tag2) (d a b : BitVec 5)
  /-- VMIN.BF16 (R135). Element-wise BF16 minimum. -/
  | vminBf16 (tg : Tag2) (d a b : BitVec 5)
  /-- VMAX.BF16 (R135). Element-wise BF16 maximum. -/
  | vmaxBf16 (tg : Tag2) (d a b : BitVec 5)
  /-- VADD.F16 (R135). Element-wise FP16 add. -/
  | vaddF16 (tg : Tag2) (d a b : BitVec 5)
  /-- VMUL.F16 (R135). Element-wise FP16 multiply. -/
  | vmulF16 (tg : Tag2) (d a b : BitVec 5)
  /-- VFMA.F16 (R135). Element-wise FP16 fused multiply-add. -/
  | vfmaF16 (tg : Tag2) (d a b : BitVec 5)
  /-- VADD.I32 (R137). Lane-wise wrapped I32 add. -/
  | vaddI32 (tg : Tag2) (d a b : BitVec 5)
  /-- VSUB.I32 (R137). Lane-wise wrapped I32 subtract. -/
  | vsubI32 (tg : Tag2) (d a b : BitVec 5)
  /-- VMUL.I32 (R137). Low 32 bits of lane-wise product. -/
  | vmulI32 (tg : Tag2) (d a b : BitVec 5)
  /-- VADDS.I32 (R137). Saturating I32 add. -/
  | vaddsI32 (tg : Tag2) (d a b : BitVec 5)
  /-- VMIN.I32 (R137). Signed I32 minimum. -/
  | vminI32 (tg : Tag2) (d a b : BitVec 5)
  /-- VMAX.I32 (R137). Signed I32 maximum. -/
  | vmaxI32 (tg : Tag2) (d a b : BitVec 5)
  /-- VADD.I16 (R137). Wrapped I16 element add. -/
  | vaddI16 (tg : Tag2) (d a b : BitVec 5)
  /-- VSUB.I16 (R137). Wrapped I16 element subtract. -/
  | vsubI16 (tg : Tag2) (d a b : BitVec 5)
  /-- VMUL.I16 (R137). Low 16 bits of element product. -/
  | vmulI16 (tg : Tag2) (d a b : BitVec 5)
  /-- VADDS.I16 (R137). Saturating I16 element add. -/
  | vaddsI16 (tg : Tag2) (d a b : BitVec 5)
  /-- VADD.I8 (R137). Wrapped I8 element add. -/
  | vaddI8 (tg : Tag2) (d a b : BitVec 5)
  /-- VSUB.I8 (R137). Wrapped I8 element subtract. -/
  | vsubI8 (tg : Tag2) (d a b : BitVec 5)
  /-- VADDS.I8 (R137). Saturating I8 element add. -/
  | vaddsI8 (tg : Tag2) (d a b : BitVec 5)
  /-- VCMPEQ.F32 (R138). Mask of FP32 equality. -/
  | vcmpeqF32 (tg : Tag2) (md : BitVec 3) (a b : BitVec 5)
  /-- VCMPLT.F32 (R138). Mask of FP32 less-than. -/
  | vcmpltF32 (tg : Tag2) (md : BitVec 3) (a b : BitVec 5)
  /-- VCMPLE.F32 (R138). Mask of FP32 less-or-equal. -/
  | vcmpleF32 (tg : Tag2) (md : BitVec 3) (a b : BitVec 5)
  /-- VCMPEQ.I32 (R138). Mask of bit equality. -/
  | vcmpeqI32 (tg : Tag2) (md : BitVec 3) (a b : BitVec 5)
  /-- VCMPLT.I32 (R138). Mask of signed less-than. -/
  | vcmpltI32 (tg : Tag2) (md : BitVec 3) (a b : BitVec 5)
  /-- VCMPLE.I32 (R138). Mask of signed less-or-equal. -/
  | vcmpleI32 (tg : Tag2) (md : BitVec 3) (a b : BitVec 5)
  /-- VMAND (R139). Mask AND under sel. -/
  | vmand (tg : Tag2) (md ma mb : BitVec 3)
  /-- VMOR (R139). Mask OR under sel. -/
  | vmor (tg : Tag2) (md ma mb : BitVec 3)
  /-- VMXOR (R139). Mask XOR under sel. -/
  | vmxor (tg : Tag2) (md ma mb : BitVec 3)
  /-- VMOVM (R139). Mask from a scalar register under sel. -/
  | vmovm (tg : Tag2) (md : BitVec 3) (a : BitVec 5)
  /-- VSEL (R140). Lane select between va and vb by the mask. -/
  | vsel (tg : Tag2) (d a b : BitVec 5)
  /-- VAND (R141). Lane-wise AND. -/
  | vand (tg : Tag2) (d a b : BitVec 5)
  /-- VOR (R141). Lane-wise OR. -/
  | vor (tg : Tag2) (d a b : BitVec 5)
  /-- VXOR (R141). Lane-wise XOR. -/
  | vxor (tg : Tag2) (d a b : BitVec 5)
  /-- VSHL.I32 (R141). Lane-wise shift left. -/
  | vshlI32 (tg : Tag2) (d a b : BitVec 5)
  /-- VSHR.I32 (R141). Lane-wise logical shift right. -/
  | vshrI32 (tg : Tag2) (d a b : BitVec 5)
  /-- VSRA.I32 (R141). Lane-wise arithmetic shift right. -/
  | vsraI32 (tg : Tag2) (d a b : BitVec 5)
  /-- VCVT (R142). Convert element 0 of each lane between formats under RMODE. -/
  | vcvt (tg : Tag2) (d a : BitVec 5) (sf df : BitVec 3)
  /-- VCVT.SR (R142). Convert with stochastic rounding, drawing 64 words. -/
  | vcvtSr (tg : Tag2) (d a : BitVec 5) (sf df : BitVec 3)
  /-- VPACK (R144). Encode 64 FP32 lanes into a packed block-scaled image. -/
  | vpack (tg : Tag2) (d a : BitVec 5) (f : BitVec 2)
  /-- VUNPK (R145). Decode a packed block-scaled image to FP32 lanes. -/
  | vunpk (tg : Tag2) (d a : BitVec 5) (f : BitVec 2)
  /-- VRED.ADD.F32 (R146). FP32 sum of lanes by the fixed tree. -/
  | vredAddF32 (tg : Tag2) (d a : BitVec 5)
  /-- VRED.MIN.F32 (R146). FP32 minimum over lanes. -/
  | vredMinF32 (tg : Tag2) (d a : BitVec 5)
  /-- VRED.MAX.F32 (R146). FP32 maximum over lanes. -/
  | vredMaxF32 (tg : Tag2) (d a : BitVec 5)
  /-- VRED.ADD.I32 (R146). Wrapped I32 sum over lanes. -/
  | vredAddI32 (tg : Tag2) (d a : BitVec 5)
  /-- VSCAN.ADD.F32 (R147). Inclusive FP32 scan over lanes. -/
  | vscanAddF32 (tg : Tag2) (d a : BitVec 5)
  /-- VSCAN.ADD.I32 (R147). Inclusive I32 scan over lanes. -/
  | vscanAddI32 (tg : Tag2) (d a : BitVec 5)
  /-- VPERM (R149). Lane k takes v(va) at index v(vb)[k][5:0]. -/
  | vperm (tg : Tag2) (d a b : BitVec 5)
  /-- VBCAST (R149). Broadcast lane n of va. -/
  | vbcast (tg : Tag2) (d a : BitVec 5) (imm : BitVec 6)
  /-- VSPLAT (R149). Splat s(sa)[31:0] to lanes. -/
  | vsplat (tg : Tag2) (d a : BitVec 5)
  /-- VPART (R150). Partition lane indices into true, false and inactive lists with counts in s(sd). -/
  | vpart (tg : Tag2) (d : BitVec 5) (ma : BitVec 3) (sd : BitVec 5)
  /-- VEXP2 (R151). Approximate 2^x at 16 fraction bits. -/
  | vexp2 (tg : Tag2) (d a : BitVec 5)
  /-- VLOG2 (R151). Approximate log2 x. -/
  | vlog2 (tg : Tag2) (d a : BitVec 5)
  /-- VRCP (R151). Approximate reciprocal. -/
  | vrcp (tg : Tag2) (d a : BitVec 5)
  /-- VRSQ (R151). Approximate reciprocal square root. -/
  | vrsq (tg : Tag2) (d a : BitVec 5)
  /-- VRAND (R152). Draw 64 random words into active lanes. -/
  | vrand (tg : Tag2) (d : BitVec 5)
  /-- VLD (R167). Contiguous vector load through a window, decoded by its format. -/
  | vld (tg : Tag2) (d : BitVec 5) (w : BitVec 3) (a : BitVec 5)
  /-- VST (R167). Contiguous vector store through a window, encoded by its format. -/
  | vst (tg : Tag2) (d : BitVec 5) (w : BitVec 3) (a : BitVec 5)
  /-- SLD (R168). Scalar load of one element in lane form. -/
  | sld (tg : Tag2) (d : BitVec 5) (w : BitVec 3) (a : BitVec 5)
  /-- SST (R168). Scalar store of one element. -/
  | sst (tg : Tag2) (d : BitVec 5) (w : BitVec 3) (a : BitVec 5)
  /-- SLDD (R168). Aligned 8-byte scalar load. -/
  | sldd (tg : Tag2) (d : BitVec 5) (w : BitVec 3) (a : BitVec 5)
  /-- SSTD (R168). Aligned 8-byte scalar store. -/
  | sstd (tg : Tag2) (d : BitVec 5) (w : BitVec 3) (a : BitVec 5)
  /-- VLDS (R169). Strided vector load with a literal stride. -/
  | vlds (tg : Tag2) (d : BitVec 5) (w : BitVec 3) (a : BitVec 5) (l : BitVec 3)
  /-- VSTS (R169). Strided vector store with a literal stride. -/
  | vsts (tg : Tag2) (d : BitVec 5) (w : BitVec 3) (a : BitVec 5) (l : BitVec 3)
  /-- VLDG (R170). Gathered vector load by lane indices. -/
  | vldg (tg : Tag2) (d : BitVec 5) (w : BitVec 3) (vi : BitVec 5)
  /-- VSTG (R170). Scattered vector store by lane indices. -/
  | vstg (tg : Tag2) (d : BitVec 5) (w : BitVec 3) (vi : BitVec 5)
  /-- VLDM (R172). Load 8 bytes into a lane mask. -/
  | vldm (tg : Tag2) (md w : BitVec 3) (a : BitVec 5)
  /-- VSTM (R172). Vector store of the lanes selected by mask mk. -/
  | vstm (tg : Tag2) (d : BitVec 5) (w : BitVec 3) (a : BitVec 5) (mk : BitVec 3)
  /-- AADD (R173). Atomic integer add returning the old value. -/
  | aadd (tg : Tag2) (d : BitVec 5) (w : BitVec 3) (a : BitVec 5)
  /-- AADD.F32 (R173). Atomic FP32 add returning the old value. -/
  | aaddF32 (tg : Tag2) (d : BitVec 5) (w : BitVec 3) (a : BitVec 5)
  /-- AMIN (R173). Atomic signed minimum. -/
  | amin (tg : Tag2) (d : BitVec 5) (w : BitVec 3) (a : BitVec 5)
  /-- AMAX (R173). Atomic signed maximum. -/
  | amax (tg : Tag2) (d : BitVec 5) (w : BitVec 3) (a : BitVec 5)
  /-- AXCHG (R173). Atomic exchange. -/
  | axchg (tg : Tag2) (d : BitVec 5) (w : BitVec 3) (a : BitVec 5)
  /-- ACAS (R173). Atomic compare-and-swap with the register pair d, d+1. -/
  | acas (tg : Tag2) (d : BitVec 5) (w : BitVec 3) (a : BitVec 5)
  /-- PFXLD (R174). Snapshot a digit-plane tile's prefix value and counter word. -/
  | pfxld (tg : Tag2) (d : BitVec 5) (w : BitVec 3) (a : BitVec 5)
  /-- MCFG (R181). Write a shadow nest-table register from s(a). -/
  | mcfg (tg : Tag) (cr : BitVec 8) (a : BitVec 5)
  /-- MCFGL (R181). Write a shadow nest-table register from a literal. -/
  | mcfgl (tg : Tag) (cr : BitVec 8) (l : BitVec 4)
  /-- MNEST (R182). Copy the shadow table to the active table, check and start a matrix nest. -/
  | mnest (tg : Tag)
  /-- ACCINIT (R200). Set every tile row to a given exponent with zero mantissas and reset side registers. -/
  | accinit (tg : Tag) (t : BitVec 3) (a : BitVec 5)
  /-- ACCINIT.U (R200). Mark every tile row unset and reset side registers. -/
  | accinitU (tg : Tag) (t : BitVec 3)
  /-- ACCNORM (R201). Shift every row toward a target headroom. -/
  | accnorm (tg : Tag) (t : BitVec 3) (a : BitVec 5)
  /-- ACCNORM.ROW (R201). Shift one row toward a target headroom. -/
  | accnormRow (tg : Tag) (t : BitVec 3) (a : BitVec 5)
  /-- ACCRD (R203). Read one tile row into a vector in a chosen format. -/
  | accrd (tg : Tag) (d : BitVec 5) (t : BitVec 3) (a : BitVec 5) (f : BitVec 3)
  /-- ACCWR (R204). Write or add a vector into one tile row. -/
  | accwr (tg : Tag) (d : BitVec 5) (t : BitVec 3) (a : BitVec 5) (f : BitVec 3)
  /-- ACCSCALE (R202). Add a signed delta to every set row's exponent. -/
  | accscale (tg : Tag) (t : BitVec 3) (a : BitVec 5)
  /-- ACCSCALE.ROW (R202). Add a signed delta to one row's exponent. -/
  | accscaleRow (tg : Tag) (t : BitVec 3) (a : BitVec 5)
  /-- MSMX (R195). One online-softmax step: update row maxima and sums, rescale the output tile and write P as BSI8. -/
  | msmx (tg : Tag) (ts tout w : BitVec 3) (a : BitVec 5)
  /-- MCHK (R196). Set the mirror check or arm the rotation check. -/
  | mchk (tg : Tag) (mode : BitVec 2)
  /-- ACCST (R205). Read tile status, check record, unset flags or check state. -/
  | accst (tg : Tag) (d : BitVec 5) (t : BitVec 3) (a : BitVec 5)
  /-- ACCEXP (R205). Read a row's exponent, headroom and unset flag. -/
  | accexp (tg : Tag) (d : BitVec 5) (t : BitVec 3) (a : BitVec 5)
  /-- ACCLOSS (R205). Read LOSS, optionally clearing it. -/
  | accloss (tg : Tag) (d : BitVec 5) (t : BitVec 3) (a : BitVec 5)
  /-- ACCLOG (R205). Read one event-log entry. -/
  | acclog (tg : Tag) (d : BitVec 5) (t : BitVec 3) (a : BitVec 5)
  /-- ACCSIDE (R205). Read a row's softmax side registers. -/
  | accside (tg : Tag) (d : BitVec 5) (t : BitVec 3) (a : BitVec 5)
  /-- MCFGRD (R181). Read a shadow nest-table register into s(a). -/
  | mcfgrd (tg : Tag) (cr : BitVec 8) (a : BitVec 5)
  /-- XCOPY (R296). Multi-dimensional boxed copy with fill, bounds and permutation. -/
  | xcopy (tg : Tag) (kd : BitVec 6) (a : BitVec 5) (l : BitVec 4)
  /-- XLIN (R295). Linear copy of N elements, static-domain when small and local. -/
  | xlin (tg : Tag) (kd : BitVec 6) (a : BitVec 5) (l : BitVec 4)
  /-- XIDX (R300). Push one index into the open gather or scatter sequence. -/
  | xidx (tg : Tag) (a : BitVec 5)
  /-- XGATH (R300). Open an indexed gather of n rows. -/
  | xgath (tg : Tag) (kd : BitVec 6) (a : BitVec 5) (l : BitVec 4)
  /-- XSCAT (R300). Open an indexed scatter of n rows. -/
  | xscat (tg : Tag) (kd : BitVec 6) (a : BitVec 5) (l : BitVec 4)
  /-- XMOVE (R309). Move a command block into a hutch trigger port, starting one operation. -/
  | xmove (tg : Tag) (op : BitVec 4) (w : BitVec 3) (a : BitVec 5)
  /-- XCHAIN (R306). Start a hutch chain of command blocks. -/
  | xchain (tg : Tag) (kd : BitVec 6) (a : BitVec 5) (l : BitVec 4)
  /-- XSTAT (R310). Read a channel's NID and watermark. -/
  | xstat (tg : Tag) (d : BitVec 5) (ch : BitVec 3)
  /-- XFENCE (R311). Token ready when the context's earlier transfers and accesses have performed at the scope. -/
  | xfence (tg : Tag) (kd : BitVec 6) (sc : BitVec 3)
  /-- XRED (R355). Non-returning reduction at memory, optionally sending a barrier arrival. -/
  | xred (tg : Tag) (kd : BitVec 6) (a : BitVec 5) (l : BitVec 4)
  /-- XATOM (R355). Atomic at memory returning the old value into s(a+3). -/
  | xatom (tg : Tag) (kd : BitVec 6) (a : BitVec 5) (l : BitVec 4)
  /-- XREDV (R357). Per-lane reductions at memory from one vector register. -/
  | xredv (tg : Tag) (kd : BitVec 6) (a : BitVec 5) (l : BitVec 4)
  /-- XBARA (R309). Arrive at a barrier object. -/
  | xbara (tg : Tag) (kd : BitVec 6) (a : BitVec 5) (l : BitVec 4)
  /-- XBARW (R309). Token ready when the barrier's generation differs from G. -/
  | xbarw (tg : Tag) (kd : BitVec 6) (a : BitVec 5) (l : BitVec 4)
  /-- XALLR (R415). Ring all-reduce. -/
  | xallr (tg : Tag) (kd : BitVec 6) (a : BitVec 5) (l : BitVec 4)
  /-- XRDSC (R415). Ring reduce-scatter. -/
  | xrdsc (tg : Tag) (kd : BitVec 6) (a : BitVec 5) (l : BitVec 4)
  /-- XALLG (R415). Ring all-gather. -/
  | xallg (tg : Tag) (kd : BitVec 6) (a : BitVec 5) (l : BitVec 4)
  /-- XBCST (R415). Ring broadcast from ROOT. -/
  | xbcst (tg : Tag) (kd : BitVec 6) (a : BitVec 5) (l : BitVec 4)
  /-- XPCNT (R417). Read a collective status entry's identifier and summary word. -/
  | xpcnt (tg : Tag) (d a : BitVec 5)
  /-- XPCAN (R418). Request a cut of a running collective. -/
  | xpcan (tg : Tag) (kd : BitVec 6) (a : BitVec 5) (l : BitVec 4)
  /-- XMVB (R359). Base-die matrix-vector product of A against weights in HBM. -/
  | xmvb (tg : Tag) (kd : BitVec 6) (a : BitVec 5) (l : BitVec 4)
  /-- XLAUNCH (R281). Submit a launch record to Vizin from a program. -/
  | xlaunch (tg : Tag) (kd : BitVec 6) (a : BitVec 5) (l : BitVec 4)
  /-- XCKPT (R384). Write a checkpoint manifest of HIBLIST regions up to PMAX. -/
  | xckpt (tg : Tag) (kd : BitVec 6) (a : BitVec 5) (l : BitVec 4)
  /-- XHADD (R384). Add a HIBLIST entry at the lowest free index. -/
  | xhadd (tg : Tag) (kd : BitVec 6) (a : BitVec 5) (l : BitVec 4)
  /-- XHDEL (R384). Clear a HIBLIST entry, returning its old word 0. -/
  | xhdel (tg : Tag) (kd : BitVec 6) (a : BitVec 5) (l : BitVec 4)
  /-- XSEND (R420). Send a tagged raw message to a module. -/
  | xsend (tg : Tag) (kd : BitVec 6) (a : BitVec 5) (l : BitVec 4)
  /-- XRECV (R420). Post a receive for a tagged raw message. -/
  | xrecv (tg : Tag) (kd : BitVec 6) (a : BitVec 5) (l : BitVec 4)
  /-- XSIG (R419). POST to a signal word, wait for a threshold, or wait for a plane count. -/
  | xsig (tg : Tag) (kd : BitVec 6) (a : BitVec 5) (l : BitVec 4)
  /-- BUNDLE_ISSUE (R79). A context issues a fetched bundle for REP+1 consecutive issuing clk, capturing sticky operations and issuing each slot in ascending order. Subject: core. -/
  | bundleIssue
  /-- LOOP_SKIP_SCAN (R113). While LSK = 1 the context fetches and checks one bundle per clk without issuing until it passes a loop-end bundle. Subject: core. -/
  | loopSkipScan
  /-- CONTEXT_SWITCH (R87). When the issuing context blocks, yields or ends, the core picks the next ready context, which issues after two switch clk. Subject: core. -/
  | contextSwitch
  /-- RESULT_LAND (R83). An operation's register result lands in the issuing context's registers at the end of issue + latency - 1. Subject: core. -/
  | resultLand
  /-- ENERGY_BUDGET_FREEZE (R235). When ECNT exceeds the bind record's energy budget the context freezes with the energy-budget code at the bundle's final issue. Subject: core, ctx. -/
  | energyBudgetFreeze
  /-- FREEZE_REQUEST (R213). A freeze requested at clk q stops the context at its bundle boundary and makes STATE read frozen. Subject: core, ctx. -/
  | freezeRequest
  /-- CHEST_ENTRY_LAND (R217). After a resume or return each chest entry lands at the end of clk r + OFF - 1 in slot and issue order. Subject: core, ctx. -/
  | chestEntryLand
  /-- CSIG_COMPARE (R226). The leading core's CSIG after clk t is compared with the trailing core's after clk t + 2. Subject: index (pair), flag (the trailing core formed another record), bytes (that record). -/
  | csigCompare
  /-- REEXECUTION_VOTE (R228). Vizin's third protected run of a re-executable task decides the vote against the recorded CSIG values. Subject: index (pair). -/
  | reexecutionVote
  /-- SUSPECT_SCORE_DECAY (R229). Each 24 hours of service without a mismatch lowers a pair's suspect score by 1. Subject: index (pair). -/
  | suspectScoreDecay
  /-- PAIR_MODE_CHANGE (R224). Vizin switches a pair with no bound context between split and protected mode. Subject: index (pair), flag (prot). -/
  | pairModeChange
  /-- MIGRATION (R221). Vizin moves a frozen task to another core, relocating its vault regions and rewriting its windows and bind record. Subject: core, ctx, core2 (core'), ctx2 (ctx'), words (wins). -/
  | migration
  /-- STATIC_ACCESS_PERFORM (R159). A static-domain access performs at the end of issue + P - 1, reading bytes of earlier perform values and writing its own. Subject: die. -/
  | staticAccessPerform
  /-- TRESTLE_ARRIVE (R257). A gang member whose sync bundle passed its checks and tokens asserts its trestle line. Subject: core, ctx. -/
  | trestleArrive
  /-- TRESTLE_RELEASE (R257). Four non-hold clk after every member asserts, all members make their sync bundle's first issue and de-assert. Subject: die, index (line). -/
  | trestleRelease
  /-- HOLD_CLK (R370). The power controller inserts a die-wide hold clk in which nothing static issues, performs or lands and SCC stops. Subject: die. -/
  | holdClk
  /-- NEST_STEP_READ (R185). Step s of a running nest reads its A and B operands at the end of clk t + s × c. Subject: core. -/
  | nestStepRead
  /-- NEST_STEP_UPDATE (R185). Step s updates its tile rows at the end of t + (s+1) × c + 11 through ApplyRow. Subject: core. -/
  | nestStepUpdate
  /-- NEST_END (R197). At a checked nest's end the mirror or rotation check sums are compared. Subject: core. -/
  | nestEnd
  /-- ARRIVAL_UNIT_QUEUE (R193). An arriving row-update unit takes an arrival-queue entry, the sixteenth only when next in its tile's order. Subject: core, unit (u). -/
  | arrivalUnitQueue
  /-- ARRIVAL_UNIT_RETRY (R193). A unit that found no entry it may take is retried from its transfer unit. Subject: core. -/
  | arrivalUnitRetry
  /-- ARRIVAL_UNIT_APPLY (R192). The core applies at most one queued unit per clk in registration and unit order once its tile is free. Subject: core. -/
  | arrivalUnitApply
  /-- TRANSFER_START (R289). The engine starts a held transfer once every token it consumes is ready, or completes it with an inherited error. Subject: core, x. -/
  | transferStart
  /-- TRANSFER_PIECE_PERFORM (R290). Each naturally aligned 64-byte piece of a transfer performs as one unit, in no fixed order. Subject: core, x, index (piece). -/
  | transferPiecePerform
  /-- TRANSFER_COMPLETE (R284). A transfer completes when performed at its scope or ended with an error, and the watermark advances in order. Subject: core, x. -/
  | transferComplete
  /-- FAULT_BUFFER_FREE (R347). A transfer waiting because the core's 48-record fault buffer is full issues once a record leaves. Subject: core. -/
  | faultBufferFree
  /-- STATIC_COPY_READ (R299). A static-domain XLIN reads its source bytes with the perform value of issue + 31. Subject: core, x. -/
  | staticCopyRead
  /-- STATIC_COPY_WRITE (R299). A static-domain XLIN writes its destination at issue + 32 and completes at the end of that clk. Subject: core, x. -/
  | staticCopyWrite
  /-- INDEX_ROW_MOVE (R300). A gather or scatter row moves once its index has been pushed by XIDX. Subject: core, x, index (row), count (the line of the row's destination). -/
  | indexRowMove
  /-- HUTCH_PACK (R302). A PACK block compresses N elements into side 1 - SIDE and commits the header, or faults on an RSV overrun. Subject: core, x. -/
  | hutchPack
  /-- HUTCH_UNPACK (R305). An UNPACK block expands an object to NELEM dense elements. Subject: core, x. -/
  | hutchUnpack
  /-- HUTCH_CONVERT (R305). A CONVERT block converts N elements from SFMT to DFMT under RM and FM. Subject: core, x. -/
  | hutchConvert
  /-- HUTCH_REBLOCK (R305). A REBLOCK block decodes and re-encodes block-scaled elements under a new format and geometry. Subject: core, x. -/
  | hutchReblock
  /-- HUTCH_TRANSPOSE (R305). A TRANSPOSE block moves element (r, c) to (c, r) by bit copy. Subject: core, x. -/
  | hutchTranspose
  /-- HUTCH_DPENC (R305). A DPENC block turns FP32 elements into digit-plane tiles with exponent T and P planes. Subject: core, x. -/
  | hutchDpenc
  /-- HUTCH_DPDEC (R305). A DPDEC block turns digit-plane tiles into FP32 over their full planes. Subject: core, x. -/
  | hutchDpdec
  /-- BARRIER_ARRIVAL (R307). An arrival atomically increments COUNT and steps GEN when COUNT reaches TARGET. Subject: addr. -/
  | barrierArrival
  /-- TRANSLATION_WALK (R342). A three-level page walk translates a virtual address or fails with translation-absent, tenant, rights or page-format. Subject: cluster, asid, addr (va). -/
  | translationWalk
  /-- TINV (R346). A TINV write with GO drops cached translations of an ASID range; a write while GO reads 1 is ignored. Subject: die, value. -/
  | tinv
  /-- TINV_COMPLETE (R346). The invalidation completes once overlapping entries are dropped and pieces translated through them have performed. Subject: die. -/
  | tinvComplete
  /-- TRANSFER_RESUME (R349). Vizin's RESUME write re-runs a faulted transfer from RP, or whole for XMVB, under a new identifier. Subject: core, index. -/
  | transferResume
  /-- WRITE_QUEUE_ACCEPT (R352). A reduction or atomic performs when its home memory port accepts it into the write queue. Subject: core, x. -/
  | writeQueueAccept
  /-- WRITE_QUEUE_DRAIN (R353). A line's entries drain in open order, each merged word rounded once. Subject: index (line). -/
  | writeQueueDrain
  /-- REDUCTION_BARRIER_SEND (R356). After an XRED with BAR performs at its scope, the home port sends exactly one barrier arrival. Subject: core, x. -/
  | reductionBarrierSend
  /-- XMVB_OUTPUT (R360). The base die delivers each XMVB output row as an arrival unit or an FP32 window write. Subject: core, x. -/
  | xmvbOutput
  /-- PATROL_READ (R364). Each memory port reads and corrects every row of its stack once every 24 hours. Subject: die, count (corrected), nats (bad). -/
  | patrolRead
  /-- POWER_LIMIT_EXCEEDED (R369). Input power above PLIM or a die above TLIM moves S0 to S1 with hold clk. Subject: nats (holds). -/
  | powerLimitExceeded
  /-- S1_EXIT (R369). After 10 ms with power at most 0.95 × PLIM and dies 5 °C under TLIM the module returns to S0. -/
  | s1Exit
  /-- UNDERVOLTAGE_SAG (R369). Input below 44.0 V for 50 µs enters S2 and parks the die at shed position 0. -/
  | undervoltageSag
  /-- PARK_NEXT_DIE (R369). In S2, input still below 44.0 V 1 ms after the last park parks the next die of SHORD. -/
  | parkNextDie
  /-- PARK_GRACE_EXPIRY (R371). At the end of the 500 µs grace incomplete transfers are cut and the die drops to retention. Subject: die. -/
  | parkGraceExpiry
  /-- SUPPLY_RECOVERY (R369). Input at or above 46.0 V for 10 ms leaves S2 and starts unparking in reverse shed order. -/
  | supplyRecovery
  /-- UNPARK_DIE (R373). An unpark restores SRAM and HBM, reloads chests, re-runs cut transfers and resumes contexts at one clk. Subject: die. -/
  | unparkDie
  /-- PFW_N_ASSERT (R369). Assertion of PFW_N moves the module to S3 and starts hibernation. -/
  | pfwNAssert
  /-- UNDERVOLTAGE_TRIP (R369). Input below 40.0 V for 20 µs trips UV and enters S3. -/
  | undervoltageTrip
  /-- SHED_EXHAUSTED (R369). With N dies parked and input below 44.0 V for 5 ms the module enters S3. -/
  | shedExhausted
  /-- QUIESCE_END (R375). At the end of the quiesce incomplete transfers are cut and the drain begins. -/
  | quiesceEnd
  /-- RESTART (R381). After the seal with good supply and reserve the module restores the valid manifest, rebinds contexts and rejoins groups. Subject: nats (rows that the memory test of a pending scrub retires). -/
  | restart
  /-- RESERVE_GAUGE_UPDATE (R367). Every 1 ms the controller updates RESERVE_J and RLOW. Subject: count (rise), index (spent), flag (the input is at or above 46.0 V). -/
  | reserveGaugeUpdate
  /-- RETAINED_WAIT (R374). A sender receiving a retained-wait answer repeats the request after RWINT with the next round number. Subject: packet (p). -/
  | retainedWait
  /-- CHECKPOINT_WRITE (R384). An XCKPT, once free of other checkpoints, writes seed-log, collective and region records and a TRIG 4 header. Subject: core, x. -/
  | checkpointWrite
  /-- TENANT_SCRUB (R387). A SCRUB GO write aborts launches, destroys the SCM key, zeroes all state and memory and counts the scrub. Subject: nats (rows that the memory test retires). -/
  | tenantScrub
  /-- MODULE_RESET (R389). A module reset zeroes the cycle counters and measures the firmware images into the chain M_1 to M_6. Subject: nats (rows that the memory test of a pending scrub retires). -/
  | moduleReset
  /-- ATTESTATION_REQUEST (R390). An ATTCTL[0] write re-measures firmware and writes a signed report to the host buffer. -/
  | attestationRequest
  /-- BENCH_TEST (R392). A BENCH[0] write on a fresh module runs the seven test items and writes a signed result. Subject: bench (r). -/
  | benchTest
  /-- FIRMWARE_INSTALL (R391). A signed image of no lower version is installed for the next reset; any other is discarded. Subject: index (image), count (version), bytes, flag (sigOk). -/
  | firmwareInstall
  /-- RISK_UPDATE (R393). Every 1 s Vizin recomputes RISK from supply events, pair scores, errors and temperatures. Subject: count (dies within 5 °C of TLIM). -/
  | riskUpdate
  /-- CHECKPOINT_DUE (R394). When the policy interval or RISK threshold falls due Vizin writes a checkpoint request into CW255. Subject: lnum. -/
  | checkpointDue
  /-- CHECKPOINT_ACK (R395). On the program's CW254 acknowledgement Vizin freezes the launch, issues XCKPT and resumes the tasks. Subject: lnum. -/
  | checkpointAck
  /-- CHECKPOINT_WITHDRAW (R395). A request unacknowledged after 60 s is withdrawn by writing CW255 := 0. Subject: lnum. -/
  | checkpointWithdraw
  /-- RESTORE_TIMEOUT (R396). With no peer answer to the restore digest within 10 s the restore is accepted and UNVER set. -/
  | restoreTimeout
  /-- SUBMIT_DOORBELL (R262). A host write of SQTAIL submits launch records, ignored past SQHEAD + SQSIZE or on a closed queue. Subject: queue (q), index (tail). -/
  | submitDoorbell
  /-- LAUNCH_ACCEPT (R261). Vizin reads a submitted record, checks it and accepts it with a launch number or refuses it with a reason. Subject: queue (q). -/
  | launchAccept
  /-- LAUNCH_CONTINUE (R279). LCTL ACT 1 adds LBUD to a held launch's budget and returns its HELD entries to READY. Subject: queue (q), lnum. -/
  | launchContinue
  /-- LAUNCH_ABORT (R279). LCTL ACT 2 writes a status-5 completion record and frees the held launch's entries. Subject: queue (q), lnum. -/
  | launchAbort
  /-- TASK_NODE_ACTIVATE (R265). Activating a TASK node makes every walker enumerate its instances and activates successors on completion. Subject: lnum, node. -/
  | taskNodeActivate
  /-- COND_NODE_ACTIVATE (R265). A COND node evaluates its test once and activates SUCC0 or SUCC1. Subject: lnum, node. -/
  | condNodeActivate
  /-- WHILE_NODE_ACTIVATE (R265). A WHILE node iterates while its test holds below CAP, otherwise activates SUCC1 and may set CAPHIT. Subject: lnum, node. -/
  | whileNodeActivate
  /-- JOIN_NODE_ACTIVATE (R265). A JOIN node counts arrivals and activates SUCC0 when NPRED is reached. Subject: lnum, node. -/
  | joinNodeActivate
  /-- END_NODE_ACTIVATE (R265). Activating END completes the launch once every activated instance has completed. Subject: lnum, node. -/
  | endNodeActivate
  /-- INSTANCE_ENQUEUE (R267). A walker enqueues an instance into a FREE entry of its cluster's task queue, waiting when full. Subject: cluster. -/
  | instanceEnqueue
  /-- INSTANCE_BIND (R270). A CMC claims the highest-priority READY entry and binds it to a free context of the right protection mode. Subject: cluster. -/
  | instanceBind
  /-- GANG_RESERVE (R271). A gang at the head of its order for 1 ms reserves contexts on its home die as they free. Subject: cluster. -/
  | gangReserve
  /-- WORK_STEAL (R272). An idle CMC steals half the stealable entries of the busiest peer by compare-and-swap. Subject: cluster (thief). -/
  | workSteal
  /-- DISPATCH_GO (R276). A GO write to a slot-table status word starts loading and checking the bind record. Subject: cluster, entry. -/
  | dispatchGo
  /-- LOADING_END (R276). At the end of loading a passing record moves to WAITSTART or is refused if STARTSCC has passed. Subject: cluster, entry. -/
  | loadingEnd
  /-- FIRST_ISSUE (R276). A loaded context makes its first issue at its start SCC. Subject: cluster, entry. -/
  | firstIssue
  /-- TASK_COMPLETE (R121). After TEND, once results, accesses, nest and transfers are done, the task completes or takes an untaken transfer fault. Subject: core, ctx. -/
  | taskComplete
  /-- PREEMPT_EXAMINE (R277). At least every 38,400 WCC clk Vizin pre-empts contexts past their quantum with an eligible waiter. Subject: core, ctx. -/
  | preemptExamine
  /-- LAUNCH_HOLD (R279). When a launch's spent energy reaches EBUD Vizin freezes its tasks, marks them HELD and writes status 3. Subject: lnum. -/
  | launchHold
  /-- COMPLETION_RECORD (R280). Vizin writes the launch's completion record after every transfer has performed at system scope. Subject: lnum, flag (an address that did not translate backs onto no memory Vizin manages). -/
  | completionRecord
  /-- SEEDREQ_COMPLETE (R127). When a seed request's token becomes ready the entry index, SEEDIDX and RCNT land together. Subject: core, x. -/
  | seedreqComplete
  /-- LINK_UNIT_RECEIVE (R397). A receiver checks a 72-byte link unit's CRC and sequence, dropping bad units and sending NAK. Subject: port, link (u). -/
  | linkUnitReceive
  /-- LINK_REPLAY (R397). On a NAK the sender replays from LACK + 1 out of its retry buffer. Subject: port. -/
  | linkReplay
  /-- PORT_DEAD (R397). A port failing one unit's replay 8 times or receiving nothing good for 10 µs becomes dead. Subject: port. -/
  | portDead
  /-- LINK_STATE_UPDATE (R402). A received newer link-state update replaces the module's entry and is flooded on. Subject: port, packet (p). -/
  | linkStateUpdate
  /-- READ_REQUEST (R399). A read request packet is performed at its target, which answers read data. Subject: packet (p). -/
  | readRequest
  /-- WRITE_REQUEST (R399). A write request packet is performed at its target once per PSEQ and answered done. Subject: packet (p). -/
  | writeRequest
  /-- REDUCTION_REQUEST (R399). A reduction or atomic packet is applied at the target's memory port. Subject: packet (p). -/
  | reductionRequest
  /-- PLANE_DATA (R413). A plane data packet writes its planes and the new count into the tile as one delivery. Subject: packet (p). -/
  | planeData
  /-- MESSAGE_DATA (R420). Message data of a matched XSEND are written at the receiver. Subject: packet (p). -/
  | messageData
  /-- READ_DATA (R399). A read data reply delivers data into the requester's reserved space. Subject: packet (p). -/
  | readData
  /-- DONE (R399). A done reply reports a request performed or its cause code. Subject: packet (p). -/
  | done
  /-- PLANE_ACKNOWLEDGEMENT (R408). A plane acknowledgement reports the receiver's count and can complete the sender's step. Subject: packet (p). -/
  | planeAcknowledgement
  /-- OLD_VALUE (R399). An old-value reply returns an atomic's previous word. Subject: packet (p). -/
  | oldValue
  /-- EXPONENT (R410). An exponent control packet carries tile exponents around the ring to agree e_max. Subject: packet (p). -/
  | exponent
  /-- CUT_REQUEST (R418). A segment owner receiving its first cut request cuts at its emitted plane count and sends a cut marker. Subject: packet (p). -/
  | cutRequest
  /-- ERROR_NOTICE (R415). An error notice completes every member's collective with collective-error. Subject: packet (p). -/
  | errorNotice
  /-- REJOIN (R422). A REJOIN makes the predecessor resend streams from the recorded step and plane. Subject: packet (p). -/
  | rejoin
  /-- REJACK (R422). A REJACK tells the rejoining member its successor's step and plane to resend from. Subject: packet (p). -/
  | rejack
  /-- READY_TO_SEND (R420). A ready-to-send waits at the destination until it matches the oldest posted XRECV. Subject: packet (p). -/
  | readyToSend
  /-- CLEAR_TO_SEND (R420). A clear-to-send lets a matched XSEND move its bytes. Subject: packet (p). -/
  | clearToSend
  /-- RESTORE_DIGEST (R396). A restore digest packet is compared with the peer's own digest and answered. Subject: packet (p), or lnum and bytes: the regions that Vizin has copied from a peer. -/
  | restoreDigest
  /-- DRAIN_ROUND (R403). Each 10 µs round ends; after round 4 unanswered packets are re-sent or fail with undelivered-transfer. Subject: index (dest). -/
  | drainRound
  /-- STREAM_RESUME (R421). A paused stream resumes from the receiver's count when a port appears, the target unparks or a REJOIN arrives. Subject: index (group). -/
  | streamResume
  /-- WAITLIM_EXPIRY (R421). A collective paused longer than WAITLIM sends an error notice and every member fails. Subject: index (group). -/
  | waitlimExpiry
  /-- WAITS_REEXAMINE (R419). An XSIG WAITS word is re-examined on every write to it and at least every 10 µs. Subject: core, x. -/
  | waitsReexamine
  /-- HOST_MEM_READ (R405). A host CXL.mem read of HBM passes the line's memory port and is recorded in the directory. Subject: addr (offset). -/
  | hostMemRead
  /-- HOST_MEM_WRITE (R405). A host write to HBM performs at its memory port before the host's completion. Subject: addr (offset), bytes. -/
  | hostMemWrite
  /-- HOST_SNOOP (R406). A host snoop of a device-held host line is served from the host-line buffer. Subject: addr. -/
  | hostSnoop
  /-- REGISTER_WRITE (R367). A write to a register with no row of its own sets its writable fields, ignoring rsv bits and out-of-range values. Subject: flag (vizin), addr (offset), value. -/
  | registerWrite
  /-- PORT_UP (R402). A Chozo port that finishes training becomes up, and the module floods a link-state update with its new live-port mask. Subject: port. -/
  | portUp
  /-- ENTROPY_HEALTH_TEST (R66). The entropy source's continuous health tests start or stop reporting a failure, during which every seed request raises entropy-failure. Subject: flag (failing). -/
  | entropyHealthTest
  /-- IDLE_CLK_CHARGE (R234). A clk in which no context of the core holds issue charges SP to the core's ICNT and IRES. Subject: core. -/
  | idleClkCharge
deriving DecidableEq, Repr

/-- A bundle as its words give it (R70, R71): the header fields, the syllable words and the literals. -/
structure Bundle where
  tmpl : BitVec 4
  rep  : BitVec 8
  clr  : BitVec 8
  rsv  : BitVec 8
  syls : List W32
  lits : List W32
deriving DecidableEq, Repr

end Sys2Proof
end

