-- ==== Sys2Proof/Decode.lean ====
section
/-! DEFINITION. The syllable decoder and encoder (R73, R76, R90 to R95) and the bundle parser (R70, R71).
Decoding is total: a word whose opcode no map assigns, or with a 1 where its form shows 0, is rejected by
name. Whether a field holds a value its instruction assigns is a question for WellFormed. -/

namespace Sys2Proof

/-- Why a syllable word is no instruction (R77, R90). -/
inductive Reject where
  /-- The slot's map assigns no instruction to the opcode (R90). -/
  | unassignedOpcode
  /-- A bit that the form shows as 0 is 1 (R77). -/
  | nonZeroBits
deriving DecidableEq, Repr

/-- The syllable layout of R73. -/
def sylWord (stop : Bool) (slot : BitVec 3) (inv : Bool) (pidx : BitVec 3) (opc : BitVec 8) (opnd : BitVec 16) :
    W32 :=
  BitVec.ofBool stop ++ slot ++ BitVec.ofBool inv ++ pidx ++ opc ++ opnd

/-- The STOP bit of a syllable word (R73). -/
def wordStop (w : W32) : Bool := w.getLsbD 31
/-- The slot encoding of a syllable word (R69, R73). -/
def wordSlot (w : W32) : BitVec 3 := w.extractLsb' 28 3
/-- PINV (R73). -/
def wordInv (w : W32) : Bool := w.getLsbD 27
/-- PIDX (R73). -/
def wordPidx (w : W32) : BitVec 3 := w.extractLsb' 24 3
/-- The opcode (R73). -/
def wordOpc (w : W32) : BitVec 8 := w.extractLsb' 16 8
/-- The operand field (R73). -/
def wordOpnd (w : W32) : BitVec 16 := w.extractLsb' 0 16

/-- Form DAB of R76, packed. -/
def packDAB (d : BitVec 5) (a : BitVec 5) (b : BitVec 5) : BitVec 16 :=
  d ++ a ++ b ++ 0#1
/-- Form DAB of R76, taken apart. -/
def unpackDAB (o : BitVec 16) (k : BitVec 5 → BitVec 5 → BitVec 5 → Instr) : Except Reject Instr :=
  if o.extractLsb' 0 1 = 0#1 then .ok (k (o.extractLsb' 11 5) (o.extractLsb' 6 5) (o.extractLsb' 1 5)) else .error .nonZeroBits

/-- Form DAI of R76, packed. -/
def packDAI (d : BitVec 5) (a : BitVec 5) (imm : BitVec 6) : BitVec 16 :=
  d ++ a ++ imm
/-- Form DAI of R76, taken apart. -/
def unpackDAI (o : BitVec 16) (k : BitVec 5 → BitVec 5 → BitVec 6 → Instr) : Except Reject Instr :=
  .ok (k (o.extractLsb' 11 5) (o.extractLsb' 6 5) (o.extractLsb' 0 6))

/-- Form DAL of R76, packed. -/
def packDAL (d : BitVec 5) (a : BitVec 5) (l : BitVec 4) : BitVec 16 :=
  d ++ a ++ l ++ 0#2
/-- Form DAL of R76, taken apart. -/
def unpackDAL (o : BitVec 16) (k : BitVec 5 → BitVec 5 → BitVec 4 → Instr) : Except Reject Instr :=
  if o.extractLsb' 0 2 = 0#2 then .ok (k (o.extractLsb' 11 5) (o.extractLsb' 6 5) (o.extractLsb' 2 4)) else .error .nonZeroBits

/-- Form DI of R76, packed. -/
def packDI (d : BitVec 5) (imm : BitVec 11) : BitVec 16 :=
  d ++ imm
/-- Form DI of R76, taken apart. -/
def unpackDI (o : BitVec 16) (k : BitVec 5 → BitVec 11 → Instr) : Except Reject Instr :=
  .ok (k (o.extractLsb' 11 5) (o.extractLsb' 0 11))

/-- Form DL of R76, packed. -/
def packDL (d : BitVec 5) (l : BitVec 4) : BitVec 16 :=
  d ++ l ++ 0#7
/-- Form DL of R76, taken apart. -/
def unpackDL (o : BitVec 16) (k : BitVec 5 → BitVec 4 → Instr) : Except Reject Instr :=
  if o.extractLsb' 0 7 = 0#7 then .ok (k (o.extractLsb' 11 5) (o.extractLsb' 7 4)) else .error .nonZeroBits

/-- Form DA of R76, packed. -/
def packDA (d : BitVec 5) (a : BitVec 5) : BitVec 16 :=
  d ++ a ++ 0#6
/-- Form DA of R76, taken apart. -/
def unpackDA (o : BitVec 16) (k : BitVec 5 → BitVec 5 → Instr) : Except Reject Instr :=
  if o.extractLsb' 0 6 = 0#6 then .ok (k (o.extractLsb' 11 5) (o.extractLsb' 6 5)) else .error .nonZeroBits

/-- Form PAB of R76, packed. -/
def packPAB (pd : BitVec 3) (a : BitVec 5) (b : BitVec 5) : BitVec 16 :=
  pd ++ a ++ b ++ 0#3
/-- Form PAB of R76, taken apart. -/
def unpackPAB (o : BitVec 16) (k : BitVec 3 → BitVec 5 → BitVec 5 → Instr) : Except Reject Instr :=
  if o.extractLsb' 0 3 = 0#3 then .ok (k (o.extractLsb' 13 3) (o.extractLsb' 8 5) (o.extractLsb' 3 5)) else .error .nonZeroBits

/-- Form PAI of R76, packed. -/
def packPAI (pd : BitVec 3) (a : BitVec 5) (imm : BitVec 8) : BitVec 16 :=
  pd ++ a ++ imm
/-- Form PAI of R76, taken apart. -/
def unpackPAI (o : BitVec 16) (k : BitVec 3 → BitVec 5 → BitVec 8 → Instr) : Except Reject Instr :=
  .ok (k (o.extractLsb' 13 3) (o.extractLsb' 8 5) (o.extractLsb' 0 8))

/-- Form PPP of R76, packed. -/
def packPPP (pd : BitVec 3) (pa : BitVec 3) (pb : BitVec 3) (na : BitVec 1) (nb : BitVec 1) : BitVec 16 :=
  pd ++ pa ++ pb ++ na ++ nb ++ 0#5
/-- Form PPP of R76, taken apart. -/
def unpackPPP (o : BitVec 16) (k : BitVec 3 → BitVec 3 → BitVec 3 → BitVec 1 → BitVec 1 → Instr) : Except Reject Instr :=
  if o.extractLsb' 0 5 = 0#5 then .ok (k (o.extractLsb' 13 3) (o.extractLsb' 10 3) (o.extractLsb' 7 3) (o.extractLsb' 6 1) (o.extractLsb' 5 1)) else .error .nonZeroBits

/-- Form BO of R76, packed. -/
def packBO (off : BitVec 16) : BitVec 16 :=
  off
/-- Form BO of R76, taken apart. -/
def unpackBO (o : BitVec 16) (k : BitVec 16 → Instr) : Except Reject Instr :=
  .ok (k (o.extractLsb' 0 16))

/-- Form A of R76, packed. -/
def packA (a : BitVec 5) : BitVec 16 :=
  0#5 ++ a ++ 0#6
/-- Form A of R76, taken apart. -/
def unpackA (o : BitVec 16) (k : BitVec 5 → Instr) : Except Reject Instr :=
  if o.extractLsb' 11 5 = 0#5 ∧ o.extractLsb' 0 6 = 0#6 then .ok (k (o.extractLsb' 6 5)) else .error .nonZeroBits

/-- Form Z of R76, packed. -/
def packZ : BitVec 16 :=
  0#16
/-- Form Z of R76, taken apart. -/
def unpackZ (o : BitVec 16) (k : Instr) : Except Reject Instr :=
  if o.extractLsb' 0 16 = 0#16 then .ok k else .error .nonZeroBits

/-- Form BL of R76, packed. -/
def packBL (l : BitVec 4) : BitVec 16 :=
  l ++ 0#12
/-- Form BL of R76, taken apart. -/
def unpackBL (o : BitVec 16) (k : BitVec 4 → Instr) : Except Reject Instr :=
  if o.extractLsb' 0 12 = 0#12 then .ok (k (o.extractLsb' 12 4)) else .error .nonZeroBits

/-- Form LP of R76, packed. -/
def packLP (ns : BitVec 2) (a : BitVec 5) : BitVec 16 :=
  ns ++ a ++ 0#9
/-- Form LP of R76, taken apart. -/
def unpackLP (o : BitVec 16) (k : BitVec 2 → BitVec 5 → Instr) : Except Reject Instr :=
  if o.extractLsb' 0 9 = 0#9 then .ok (k (o.extractLsb' 14 2) (o.extractLsb' 9 5)) else .error .nonZeroBits

/-- Form KW of R76, packed. -/
def packKW (ka : BitVec 6) (kb : BitVec 6) : BitVec 16 :=
  ka ++ kb ++ 0#4
/-- Form KW of R76, taken apart. -/
def unpackKW (o : BitVec 16) (k : BitVec 6 → BitVec 6 → Instr) : Except Reject Instr :=
  if o.extractLsb' 0 4 = 0#4 then .ok (k (o.extractLsb' 10 6) (o.extractLsb' 4 6)) else .error .nonZeroBits

/-- Form TC of R76, packed. -/
def packTC (code : BitVec 10) : BitVec 16 :=
  code ++ 0#6
/-- Form TC of R76, taken apart. -/
def unpackTC (o : BitVec 16) (k : BitVec 10 → Instr) : Except Reject Instr :=
  if o.extractLsb' 0 6 = 0#6 then .ok (k (o.extractLsb' 6 10)) else .error .nonZeroBits

/-- Form SY of R76, packed. -/
def packSY (d : BitVec 5) (sr : BitVec 8) : BitVec 16 :=
  d ++ sr ++ 0#3
/-- Form SY of R76, taken apart. -/
def unpackSY (o : BitVec 16) (k : BitVec 5 → BitVec 8 → Instr) : Except Reject Instr :=
  if o.extractLsb' 0 3 = 0#3 then .ok (k (o.extractLsb' 11 5) (o.extractLsb' 3 8)) else .error .nonZeroBits

/-- Form D of R76, packed. -/
def packD (d : BitVec 5) : BitVec 16 :=
  d ++ 0#11
/-- Form D of R76, taken apart. -/
def unpackD (o : BitVec 16) (k : BitVec 5 → Instr) : Except Reject Instr :=
  if o.extractLsb' 0 11 = 0#11 then .ok (k (o.extractLsb' 11 5)) else .error .nonZeroBits

/-- Form DK of R76, packed. -/
def packDK (d : BitVec 5) (kd : BitVec 6) : BitVec 16 :=
  d ++ kd ++ 0#5
/-- Form DK of R76, taken apart. -/
def unpackDK (o : BitVec 16) (k : BitVec 5 → BitVec 6 → Instr) : Except Reject Instr :=
  if o.extractLsb' 0 5 = 0#5 then .ok (k (o.extractLsb' 11 5) (o.extractLsb' 5 6)) else .error .nonZeroBits

/-- Form MAB of R76, packed. -/
def packMAB (md : BitVec 3) (a : BitVec 5) (b : BitVec 5) : BitVec 16 :=
  md ++ a ++ b ++ 0#3
/-- Form MAB of R76, taken apart. -/
def unpackMAB (o : BitVec 16) (k : BitVec 3 → BitVec 5 → BitVec 5 → Instr) : Except Reject Instr :=
  if o.extractLsb' 0 3 = 0#3 then .ok (k (o.extractLsb' 13 3) (o.extractLsb' 8 5) (o.extractLsb' 3 5)) else .error .nonZeroBits

/-- Form MMM of R76, packed. -/
def packMMM (md : BitVec 3) (ma : BitVec 3) (mb : BitVec 3) : BitVec 16 :=
  md ++ ma ++ mb ++ 0#7
/-- Form MMM of R76, taken apart. -/
def unpackMMM (o : BitVec 16) (k : BitVec 3 → BitVec 3 → BitVec 3 → Instr) : Except Reject Instr :=
  if o.extractLsb' 0 7 = 0#7 then .ok (k (o.extractLsb' 13 3) (o.extractLsb' 10 3) (o.extractLsb' 7 3)) else .error .nonZeroBits

/-- Form MSC of R76, packed. -/
def packMSC (md : BitVec 3) (a : BitVec 5) : BitVec 16 :=
  md ++ a ++ 0#8
/-- Form MSC of R76, taken apart. -/
def unpackMSC (o : BitVec 16) (k : BitVec 3 → BitVec 5 → Instr) : Except Reject Instr :=
  if o.extractLsb' 0 8 = 0#8 then .ok (k (o.extractLsb' 13 3) (o.extractLsb' 8 5)) else .error .nonZeroBits

/-- Form VCV of R76, packed. -/
def packVCV (d : BitVec 5) (a : BitVec 5) (sf : BitVec 3) (df : BitVec 3) : BitVec 16 :=
  d ++ a ++ sf ++ df
/-- Form VCV of R76, taken apart. -/
def unpackVCV (o : BitVec 16) (k : BitVec 5 → BitVec 5 → BitVec 3 → BitVec 3 → Instr) : Except Reject Instr :=
  .ok (k (o.extractLsb' 11 5) (o.extractLsb' 6 5) (o.extractLsb' 3 3) (o.extractLsb' 0 3))

/-- Form VPK of R76, packed. -/
def packVPK (d : BitVec 5) (a : BitVec 5) (f : BitVec 2) : BitVec 16 :=
  d ++ a ++ f ++ 0#4
/-- Form VPK of R76, taken apart. -/
def unpackVPK (o : BitVec 16) (k : BitVec 5 → BitVec 5 → BitVec 2 → Instr) : Except Reject Instr :=
  if o.extractLsb' 0 4 = 0#4 then .ok (k (o.extractLsb' 11 5) (o.extractLsb' 6 5) (o.extractLsb' 4 2)) else .error .nonZeroBits

/-- Form VS of R76, packed. -/
def packVS (d : BitVec 5) (a : BitVec 5) : BitVec 16 :=
  d ++ a ++ 0#6
/-- Form VS of R76, taken apart. -/
def unpackVS (o : BitVec 16) (k : BitVec 5 → BitVec 5 → Instr) : Except Reject Instr :=
  if o.extractLsb' 0 6 = 0#6 then .ok (k (o.extractLsb' 11 5) (o.extractLsb' 6 5)) else .error .nonZeroBits

/-- Form VPT of R76, packed. -/
def packVPT (d : BitVec 5) (ma : BitVec 3) (sd : BitVec 5) : BitVec 16 :=
  d ++ ma ++ sd ++ 0#3
/-- Form VPT of R76, taken apart. -/
def unpackVPT (o : BitVec 16) (k : BitVec 5 → BitVec 3 → BitVec 5 → Instr) : Except Reject Instr :=
  if o.extractLsb' 0 3 = 0#3 then .ok (k (o.extractLsb' 11 5) (o.extractLsb' 8 3) (o.extractLsb' 3 5)) else .error .nonZeroBits

/-- Form LM of R76, packed. -/
def packLM (d : BitVec 5) (w : BitVec 3) (a : BitVec 5) : BitVec 16 :=
  d ++ w ++ a ++ 0#3
/-- Form LM of R76, taken apart. -/
def unpackLM (o : BitVec 16) (k : BitVec 5 → BitVec 3 → BitVec 5 → Instr) : Except Reject Instr :=
  if o.extractLsb' 0 3 = 0#3 then .ok (k (o.extractLsb' 11 5) (o.extractLsb' 8 3) (o.extractLsb' 3 5)) else .error .nonZeroBits

/-- Form LML of R76, packed. -/
def packLML (d : BitVec 5) (w : BitVec 3) (a : BitVec 5) (l : BitVec 3) : BitVec 16 :=
  d ++ w ++ a ++ l
/-- Form LML of R76, taken apart. -/
def unpackLML (o : BitVec 16) (k : BitVec 5 → BitVec 3 → BitVec 5 → BitVec 3 → Instr) : Except Reject Instr :=
  .ok (k (o.extractLsb' 11 5) (o.extractLsb' 8 3) (o.extractLsb' 3 5) (o.extractLsb' 0 3))

/-- Form LG of R76, packed. -/
def packLG (d : BitVec 5) (w : BitVec 3) (vi : BitVec 5) : BitVec 16 :=
  d ++ w ++ vi ++ 0#3
/-- Form LG of R76, taken apart. -/
def unpackLG (o : BitVec 16) (k : BitVec 5 → BitVec 3 → BitVec 5 → Instr) : Except Reject Instr :=
  if o.extractLsb' 0 3 = 0#3 then .ok (k (o.extractLsb' 11 5) (o.extractLsb' 8 3) (o.extractLsb' 3 5)) else .error .nonZeroBits

/-- Form LMM of R76, packed. -/
def packLMM (md : BitVec 3) (w : BitVec 3) (a : BitVec 5) : BitVec 16 :=
  md ++ w ++ a ++ 0#5
/-- Form LMM of R76, taken apart. -/
def unpackLMM (o : BitVec 16) (k : BitVec 3 → BitVec 3 → BitVec 5 → Instr) : Except Reject Instr :=
  if o.extractLsb' 0 5 = 0#5 then .ok (k (o.extractLsb' 13 3) (o.extractLsb' 10 3) (o.extractLsb' 5 5)) else .error .nonZeroBits

/-- Form LMK of R76, packed. -/
def packLMK (d : BitVec 5) (w : BitVec 3) (a : BitVec 5) (mk : BitVec 3) : BitVec 16 :=
  d ++ w ++ a ++ mk
/-- Form LMK of R76, taken apart. -/
def unpackLMK (o : BitVec 16) (k : BitVec 5 → BitVec 3 → BitVec 5 → BitVec 3 → Instr) : Except Reject Instr :=
  .ok (k (o.extractLsb' 11 5) (o.extractLsb' 8 3) (o.extractLsb' 3 5) (o.extractLsb' 0 3))

/-- Form MCR of R76, packed. -/
def packMCR (cr : BitVec 8) (a : BitVec 5) : BitVec 16 :=
  cr ++ a ++ 0#3
/-- Form MCR of R76, taken apart. -/
def unpackMCR (o : BitVec 16) (k : BitVec 8 → BitVec 5 → Instr) : Except Reject Instr :=
  if o.extractLsb' 0 3 = 0#3 then .ok (k (o.extractLsb' 8 8) (o.extractLsb' 3 5)) else .error .nonZeroBits

/-- Form MCL of R76, packed. -/
def packMCL (cr : BitVec 8) (l : BitVec 4) : BitVec 16 :=
  cr ++ l ++ 0#4
/-- Form MCL of R76, taken apart. -/
def unpackMCL (o : BitVec 16) (k : BitVec 8 → BitVec 4 → Instr) : Except Reject Instr :=
  if o.extractLsb' 0 4 = 0#4 then .ok (k (o.extractLsb' 8 8) (o.extractLsb' 4 4)) else .error .nonZeroBits

/-- Form MT0 of R76, packed. -/
def packMT0 (t : BitVec 3) (a : BitVec 5) : BitVec 16 :=
  t ++ 0#1 ++ a ++ 0#7
/-- Form MT0 of R76, taken apart. -/
def unpackMT0 (o : BitVec 16) (k : BitVec 3 → BitVec 5 → Instr) : Except Reject Instr :=
  if o.extractLsb' 12 1 = 0#1 ∧ o.extractLsb' 0 7 = 0#7 then .ok (k (o.extractLsb' 13 3) (o.extractLsb' 7 5)) else .error .nonZeroBits

/-- Form MTU of R76, packed. -/
def packMTU (t : BitVec 3) : BitVec 16 :=
  t ++ 1#1 ++ 0#12
/-- Form MTU of R76, taken apart. -/
def unpackMTU (o : BitVec 16) (k : BitVec 3 → Instr) : Except Reject Instr :=
  if o.extractLsb' 12 1 = 1#1 ∧ o.extractLsb' 0 12 = 0#12 then .ok (k (o.extractLsb' 13 3)) else .error .nonZeroBits

/-- Form MT1 of R76, packed. -/
def packMT1 (t : BitVec 3) (a : BitVec 5) : BitVec 16 :=
  t ++ 1#1 ++ a ++ 0#7
/-- Form MT1 of R76, taken apart. -/
def unpackMT1 (o : BitVec 16) (k : BitVec 3 → BitVec 5 → Instr) : Except Reject Instr :=
  if o.extractLsb' 12 1 = 1#1 ∧ o.extractLsb' 0 7 = 0#7 then .ok (k (o.extractLsb' 13 3) (o.extractLsb' 7 5)) else .error .nonZeroBits

/-- Form MRW of R76, packed. -/
def packMRW (d : BitVec 5) (t : BitVec 3) (a : BitVec 5) (f : BitVec 3) : BitVec 16 :=
  d ++ t ++ a ++ f
/-- Form MRW of R76, taken apart. -/
def unpackMRW (o : BitVec 16) (k : BitVec 5 → BitVec 3 → BitVec 5 → BitVec 3 → Instr) : Except Reject Instr :=
  .ok (k (o.extractLsb' 11 5) (o.extractLsb' 8 3) (o.extractLsb' 3 5) (o.extractLsb' 0 3))

/-- Form MSX of R76, packed. -/
def packMSX (ts : BitVec 3) (tout : BitVec 3) (w : BitVec 3) (a : BitVec 5) : BitVec 16 :=
  ts ++ tout ++ w ++ a ++ 0#2
/-- Form MSX of R76, taken apart. -/
def unpackMSX (o : BitVec 16) (k : BitVec 3 → BitVec 3 → BitVec 3 → BitVec 5 → Instr) : Except Reject Instr :=
  if o.extractLsb' 0 2 = 0#2 then .ok (k (o.extractLsb' 13 3) (o.extractLsb' 10 3) (o.extractLsb' 7 3) (o.extractLsb' 2 5)) else .error .nonZeroBits

/-- Form MMD of R76, packed. -/
def packMMD (mode : BitVec 2) : BitVec 16 :=
  mode ++ 0#14
/-- Form MMD of R76, taken apart. -/
def unpackMMD (o : BitVec 16) (k : BitVec 2 → Instr) : Except Reject Instr :=
  if o.extractLsb' 0 14 = 0#14 then .ok (k (o.extractLsb' 14 2)) else .error .nonZeroBits

/-- Form MTS of R76, packed. -/
def packMTS (d : BitVec 5) (t : BitVec 3) (a : BitVec 5) : BitVec 16 :=
  d ++ t ++ a ++ 0#3
/-- Form MTS of R76, taken apart. -/
def unpackMTS (o : BitVec 16) (k : BitVec 5 → BitVec 3 → BitVec 5 → Instr) : Except Reject Instr :=
  if o.extractLsb' 0 3 = 0#3 then .ok (k (o.extractLsb' 11 5) (o.extractLsb' 8 3) (o.extractLsb' 3 5)) else .error .nonZeroBits

/-- Form XT of R76, packed. -/
def packXT (kd : BitVec 6) (a : BitVec 5) (l : BitVec 4) : BitVec 16 :=
  kd ++ a ++ l ++ 0#1
/-- Form XT of R76, taken apart. -/
def unpackXT (o : BitVec 16) (k : BitVec 6 → BitVec 5 → BitVec 4 → Instr) : Except Reject Instr :=
  if o.extractLsb' 0 1 = 0#1 then .ok (k (o.extractLsb' 10 6) (o.extractLsb' 5 5) (o.extractLsb' 1 4)) else .error .nonZeroBits

/-- Form XP of R76, packed. -/
def packXP (op : BitVec 4) (w : BitVec 3) (a : BitVec 5) : BitVec 16 :=
  op ++ 0#1 ++ w ++ a ++ 0#3
/-- Form XP of R76, taken apart. -/
def unpackXP (o : BitVec 16) (k : BitVec 4 → BitVec 3 → BitVec 5 → Instr) : Except Reject Instr :=
  if o.extractLsb' 11 1 = 0#1 ∧ o.extractLsb' 0 3 = 0#3 then .ok (k (o.extractLsb' 12 4) (o.extractLsb' 8 3) (o.extractLsb' 3 5)) else .error .nonZeroBits

/-- Form XS of R76, packed. -/
def packXS (d : BitVec 5) (ch : BitVec 3) : BitVec 16 :=
  d ++ ch ++ 0#8
/-- Form XS of R76, taken apart. -/
def unpackXS (o : BitVec 16) (k : BitVec 5 → BitVec 3 → Instr) : Except Reject Instr :=
  if o.extractLsb' 0 8 = 0#8 then .ok (k (o.extractLsb' 11 5) (o.extractLsb' 8 3)) else .error .nonZeroBits

/-- Form XF of R76, packed. -/
def packXF (kd : BitVec 6) (sc : BitVec 3) : BitVec 16 :=
  kd ++ sc ++ 0#7
/-- Form XF of R76, taken apart. -/
def unpackXF (o : BitVec 16) (k : BitVec 6 → BitVec 3 → Instr) : Except Reject Instr :=
  if o.extractLsb' 0 7 = 0#7 then .ok (k (o.extractLsb' 10 6) (o.extractLsb' 7 3)) else .error .nonZeroBits

/-- The scalar map (R91). -/
def decodeScalar (tg : Tag2) (opc : BitVec 8) (o : BitVec 16) : Except Reject Instr :=
  match opc with
  | 0x01#8 => unpackDAB o (.add tg)
  | 0x02#8 => unpackDAB o (.sub tg)
  | 0x03#8 => unpackDAB o (.mul tg)
  | 0x04#8 => unpackDAB o (.mulh tg)
  | 0x05#8 => unpackDAB o (.and tg)
  | 0x06#8 => unpackDAB o (.or tg)
  | 0x07#8 => unpackDAB o (.xor tg)
  | 0x08#8 => unpackDAB o (.andn tg)
  | 0x09#8 => unpackDAB o (.shl tg)
  | 0x0A#8 => unpackDAB o (.shr tg)
  | 0x0B#8 => unpackDAB o (.sra tg)
  | 0x0C#8 => unpackDAB o (.min tg)
  | 0x0D#8 => unpackDAB o (.max tg)
  | 0x10#8 => unpackDAI o (.addi tg)
  | 0x11#8 => unpackDAI o (.muli tg)
  | 0x12#8 => unpackDAI o (.andi tg)
  | 0x13#8 => unpackDAI o (.ori tg)
  | 0x14#8 => unpackDAI o (.xori tg)
  | 0x15#8 => unpackDAI o (.shli tg)
  | 0x16#8 => unpackDAI o (.shri tg)
  | 0x17#8 => unpackDAI o (.srai tg)
  | 0x18#8 => unpackDAL o (.addl tg)
  | 0x19#8 => unpackDAB o (.addx3 tg)
  | 0x1A#8 => unpackDI o (.movi tg)
  | 0x1B#8 => unpackDL o (.movl tg)
  | 0x1C#8 => unpackDL o (.movl64 tg)
  | 0x1D#8 => unpackDA o (.clz tg)
  | 0x1E#8 => unpackDA o (.popc tg)
  | 0x20#8 => unpackPAB o (.cmpeq tg)
  | 0x21#8 => unpackPAB o (.cmpne tg)
  | 0x22#8 => unpackPAB o (.cmplt tg)
  | 0x23#8 => unpackPAB o (.cmpge tg)
  | 0x24#8 => unpackPAB o (.cmpltu tg)
  | 0x25#8 => unpackPAB o (.cmpgeu tg)
  | 0x26#8 => unpackPAI o (.cmpeqi tg)
  | 0x27#8 => unpackPAI o (.cmplti tg)
  | 0x28#8 => unpackPAI o (.cmpltui tg)
  | 0x29#8 => unpackPPP o (.pand tg)
  | 0x2A#8 => unpackPPP o (.por tg)
  | 0x2B#8 => unpackPPP o (.pxor tg)
  | 0x2C#8 => unpackDAB o (.sel tg)
  | 0x30#8 => unpackBO o (.br tg)
  | 0x31#8 => unpackBO o (.call tg)
  | 0x32#8 => unpackA o (.jr tg)
  | 0x33#8 => unpackA o (.callr tg)
  | 0x34#8 => unpackZ o (.ret tg)
  | 0x35#8 => unpackBL o (.brl tg)
  | 0x38#8 => unpackLP o (.loop tg)
  | 0x39#8 => unpackZ o (.sync tg)
  | 0x3A#8 => unpackKW o (.kwait tg)
  | 0x3B#8 => unpackTC o (.trap tg)
  | 0x3C#8 => unpackZ o (.eret tg)
  | 0x3D#8 => unpackZ o (.yield tg)
  | 0x3E#8 => unpackZ o (.tend tg)
  | 0x40#8 => unpackSY o (.mfsr tg)
  | 0x41#8 => unpackSY o (.mtsr tg)
  | 0x42#8 => unpackD o (.rden tg)
  | 0x43#8 => unpackD o (.rand tg)
  | 0x44#8 => unpackDK o (.seedreq tg)
  | _ => .error .unassignedOpcode

/-- The vector map (R92). -/
def decodeVector (tg : Tag2) (opc : BitVec 8) (o : BitVec 16) : Except Reject Instr :=
  match opc with
  | 0x01#8 => unpackDAB o (.vaddF32 tg)
  | 0x02#8 => unpackDAB o (.vsubF32 tg)
  | 0x03#8 => unpackDAB o (.vmulF32 tg)
  | 0x04#8 => unpackDAB o (.vfmaF32 tg)
  | 0x05#8 => unpackDAB o (.vminF32 tg)
  | 0x06#8 => unpackDAB o (.vmaxF32 tg)
  | 0x07#8 => unpackDAB o (.vaddBf16 tg)
  | 0x08#8 => unpackDAB o (.vsubBf16 tg)
  | 0x09#8 => unpackDAB o (.vmulBf16 tg)
  | 0x0A#8 => unpackDAB o (.vfmaBf16 tg)
  | 0x0B#8 => unpackDAB o (.vminBf16 tg)
  | 0x0C#8 => unpackDAB o (.vmaxBf16 tg)
  | 0x0D#8 => unpackDAB o (.vaddF16 tg)
  | 0x0E#8 => unpackDAB o (.vmulF16 tg)
  | 0x0F#8 => unpackDAB o (.vfmaF16 tg)
  | 0x10#8 => unpackDAB o (.vaddI32 tg)
  | 0x11#8 => unpackDAB o (.vsubI32 tg)
  | 0x12#8 => unpackDAB o (.vmulI32 tg)
  | 0x13#8 => unpackDAB o (.vaddsI32 tg)
  | 0x14#8 => unpackDAB o (.vminI32 tg)
  | 0x15#8 => unpackDAB o (.vmaxI32 tg)
  | 0x16#8 => unpackDAB o (.vaddI16 tg)
  | 0x17#8 => unpackDAB o (.vsubI16 tg)
  | 0x18#8 => unpackDAB o (.vmulI16 tg)
  | 0x19#8 => unpackDAB o (.vaddsI16 tg)
  | 0x1A#8 => unpackDAB o (.vaddI8 tg)
  | 0x1B#8 => unpackDAB o (.vsubI8 tg)
  | 0x1C#8 => unpackDAB o (.vaddsI8 tg)
  | 0x20#8 => unpackMAB o (.vcmpeqF32 tg)
  | 0x21#8 => unpackMAB o (.vcmpltF32 tg)
  | 0x22#8 => unpackMAB o (.vcmpleF32 tg)
  | 0x23#8 => unpackMAB o (.vcmpeqI32 tg)
  | 0x24#8 => unpackMAB o (.vcmpltI32 tg)
  | 0x25#8 => unpackMAB o (.vcmpleI32 tg)
  | 0x26#8 => unpackMMM o (.vmand tg)
  | 0x27#8 => unpackMMM o (.vmor tg)
  | 0x28#8 => unpackMMM o (.vmxor tg)
  | 0x29#8 => unpackMSC o (.vmovm tg)
  | 0x2A#8 => unpackDAB o (.vsel tg)
  | 0x2B#8 => unpackDAB o (.vand tg)
  | 0x2C#8 => unpackDAB o (.vor tg)
  | 0x2D#8 => unpackDAB o (.vxor tg)
  | 0x2E#8 => unpackDAB o (.vshlI32 tg)
  | 0x2F#8 => unpackDAB o (.vshrI32 tg)
  | 0x30#8 => unpackDAB o (.vsraI32 tg)
  | 0x31#8 => unpackVCV o (.vcvt tg)
  | 0x32#8 => unpackVCV o (.vcvtSr tg)
  | 0x33#8 => unpackVPK o (.vpack tg)
  | 0x34#8 => unpackVPK o (.vunpk tg)
  | 0x38#8 => unpackDA o (.vredAddF32 tg)
  | 0x39#8 => unpackDA o (.vredMinF32 tg)
  | 0x3A#8 => unpackDA o (.vredMaxF32 tg)
  | 0x3B#8 => unpackDA o (.vredAddI32 tg)
  | 0x3C#8 => unpackDA o (.vscanAddF32 tg)
  | 0x3D#8 => unpackDA o (.vscanAddI32 tg)
  | 0x3E#8 => unpackDAB o (.vperm tg)
  | 0x3F#8 => unpackDAI o (.vbcast tg)
  | 0x40#8 => unpackVS o (.vsplat tg)
  | 0x41#8 => unpackVPT o (.vpart tg)
  | 0x42#8 => unpackDA o (.vexp2 tg)
  | 0x43#8 => unpackDA o (.vlog2 tg)
  | 0x44#8 => unpackDA o (.vrcp tg)
  | 0x45#8 => unpackDA o (.vrsq tg)
  | 0x46#8 => unpackD o (.vrand tg)
  | _ => .error .unassignedOpcode

/-- The local-memory map (R93). -/
def decodeLocal (tg : Tag2) (opc : BitVec 8) (o : BitVec 16) : Except Reject Instr :=
  match opc with
  | 0x01#8 => unpackLM o (.vld tg)
  | 0x02#8 => unpackLM o (.vst tg)
  | 0x03#8 => unpackLM o (.sld tg)
  | 0x04#8 => unpackLM o (.sst tg)
  | 0x05#8 => unpackLM o (.sldd tg)
  | 0x06#8 => unpackLM o (.sstd tg)
  | 0x07#8 => unpackLML o (.vlds tg)
  | 0x08#8 => unpackLML o (.vsts tg)
  | 0x09#8 => unpackLG o (.vldg tg)
  | 0x0A#8 => unpackLG o (.vstg tg)
  | 0x0B#8 => unpackLMM o (.vldm tg)
  | 0x0C#8 => unpackLMK o (.vstm tg)
  | 0x0D#8 => unpackLM o (.aadd tg)
  | 0x0E#8 => unpackLM o (.aaddF32 tg)
  | 0x0F#8 => unpackLM o (.amin tg)
  | 0x10#8 => unpackLM o (.amax tg)
  | 0x11#8 => unpackLM o (.axchg tg)
  | 0x12#8 => unpackLM o (.acas tg)
  | 0x13#8 => unpackLM o (.pfxld tg)
  | _ => .error .unassignedOpcode

/-- The matrix map (R94). -/
def decodeMatrix (tg : Tag) (opc : BitVec 8) (o : BitVec 16) : Except Reject Instr :=
  match opc with
  | 0x01#8 => unpackMCR o (.mcfg tg)
  | 0x02#8 => unpackMCL o (.mcfgl tg)
  | 0x03#8 => unpackZ o (.mnest tg)
  | 0x04#8 => if o.getLsbD 12 then unpackMTU o (.accinitU tg) else unpackMT0 o (.accinit tg)
  | 0x05#8 => if o.getLsbD 12 then unpackMT1 o (.accnormRow tg) else unpackMT0 o (.accnorm tg)
  | 0x06#8 => unpackMRW o (.accrd tg)
  | 0x07#8 => unpackMRW o (.accwr tg)
  | 0x08#8 => if o.getLsbD 12 then unpackMT1 o (.accscaleRow tg) else unpackMT0 o (.accscale tg)
  | 0x09#8 => unpackMSX o (.msmx tg)
  | 0x0A#8 => unpackMMD o (.mchk tg)
  | 0x0B#8 => unpackMTS o (.accst tg)
  | 0x0C#8 => unpackMTS o (.accexp tg)
  | 0x0D#8 => unpackMTS o (.accloss tg)
  | 0x0E#8 => unpackMTS o (.acclog tg)
  | 0x0F#8 => unpackMTS o (.accside tg)
  | 0x10#8 => unpackMCR o (.mcfgrd tg)
  | _ => .error .unassignedOpcode

/-- The asynchronous map (R95). -/
def decodeAsync (tg : Tag) (opc : BitVec 8) (o : BitVec 16) : Except Reject Instr :=
  match opc with
  | 0x01#8 => unpackXT o (.xcopy tg)
  | 0x02#8 => unpackXT o (.xlin tg)
  | 0x03#8 => unpackA o (.xidx tg)
  | 0x04#8 => unpackXT o (.xgath tg)
  | 0x05#8 => unpackXT o (.xscat tg)
  | 0x06#8 => unpackXP o (.xmove tg)
  | 0x07#8 => unpackXT o (.xchain tg)
  | 0x08#8 => unpackXS o (.xstat tg)
  | 0x09#8 => unpackXF o (.xfence tg)
  | 0x0A#8 => unpackXT o (.xred tg)
  | 0x0B#8 => unpackXT o (.xatom tg)
  | 0x0C#8 => unpackXT o (.xredv tg)
  | 0x0D#8 => unpackXT o (.xbara tg)
  | 0x0E#8 => unpackXT o (.xbarw tg)
  | 0x0F#8 => unpackXT o (.xallr tg)
  | 0x10#8 => unpackXT o (.xrdsc tg)
  | 0x11#8 => unpackXT o (.xallg tg)
  | 0x12#8 => unpackXT o (.xbcst tg)
  | 0x13#8 => unpackDA o (.xpcnt tg)
  | 0x14#8 => unpackXT o (.xpcan tg)
  | 0x15#8 => unpackXT o (.xmvb tg)
  | 0x16#8 => unpackXT o (.xlaunch tg)
  | 0x17#8 => unpackXT o (.xckpt tg)
  | 0x18#8 => unpackXT o (.xhadd tg)
  | 0x19#8 => unpackXT o (.xhdel tg)
  | 0x1A#8 => unpackXT o (.xsend tg)
  | 0x1B#8 => unpackXT o (.xrecv tg)
  | 0x1C#8 => unpackXT o (.xsig tg)
  | _ => .error .unassignedOpcode

/-- The tag of a syllable of a class with two slots. -/
def wordTag2 (w : W32) : Tag2 := ⟨wordStop w, w.getLsbD 28, wordInv w, wordPidx w⟩
/-- The tag of a syllable of slot M or X. -/
def wordTag (w : W32) : Tag := ⟨wordStop w, wordInv w, wordPidx w⟩
/-- The tag of a NOP. -/
def wordTagAny (w : W32) : TagAny := ⟨wordStop w, wordSlot w, wordInv w, wordPidx w⟩

/-- One syllable word: opcode 0x00 is NOP in every map (R90), and the slot names the map (R69). -/
def decodeSyl (w : W32) : Except Reject Instr :=
  if wordOpc w = 0x00#8 then unpackZ (wordOpnd w) (.nop (wordTagAny w))
  else
    match wordSlot w with
    | 0#3 | 1#3 => decodeScalar (wordTag2 w) (wordOpc w) (wordOpnd w)
    | 2#3 | 3#3 => decodeVector (wordTag2 w) (wordOpc w) (wordOpnd w)
    | 4#3 | 5#3 => decodeLocal (wordTag2 w) (wordOpc w) (wordOpnd w)
    | 6#3 => decodeMatrix (wordTag w) (wordOpc w) (wordOpnd w)
    | _ => decodeAsync (wordTag w) (wordOpc w) (wordOpnd w)

/-- A syllable of a class with two slots, whose first slot has the encoding `cls ++ 0`. -/
def tag2Word (t : Tag2) (cls : BitVec 2) (opc : BitVec 8) (opnd : BitVec 16) : W32 :=
  sylWord t.stop (cls ++ BitVec.ofBool t.second) t.inv t.pidx opc opnd
/-- A syllable of slot M or X. -/
def tagWord (t : Tag) (slot : BitVec 3) (opc : BitVec 8) (opnd : BitVec 16) : W32 :=
  sylWord t.stop slot t.inv t.pidx opc opnd

/-- The words of an instruction: the one syllable word of an encoded row, none of a row without an encoding. -/
def encode (i : Instr) : List W32 :=
  match i with
  | .bundleIssue => []
  | .loopSkipScan => []
  | .contextSwitch => []
  | .resultLand => []
  | .energyBudgetFreeze => []
  | .freezeRequest => []
  | .chestEntryLand => []
  | .csigCompare => []
  | .reexecutionVote => []
  | .suspectScoreDecay => []
  | .pairModeChange => []
  | .migration => []
  | .staticAccessPerform => []
  | .trestleArrive => []
  | .trestleRelease => []
  | .holdClk => []
  | .nestStepRead => []
  | .nestStepUpdate => []
  | .nestEnd => []
  | .arrivalUnitQueue => []
  | .arrivalUnitRetry => []
  | .arrivalUnitApply => []
  | .transferStart => []
  | .transferPiecePerform => []
  | .transferComplete => []
  | .faultBufferFree => []
  | .staticCopyRead => []
  | .staticCopyWrite => []
  | .indexRowMove => []
  | .hutchPack => []
  | .hutchUnpack => []
  | .hutchConvert => []
  | .hutchReblock => []
  | .hutchTranspose => []
  | .hutchDpenc => []
  | .hutchDpdec => []
  | .barrierArrival => []
  | .translationWalk => []
  | .tinv => []
  | .tinvComplete => []
  | .transferResume => []
  | .writeQueueAccept => []
  | .writeQueueDrain => []
  | .reductionBarrierSend => []
  | .xmvbOutput => []
  | .patrolRead => []
  | .powerLimitExceeded => []
  | .s1Exit => []
  | .undervoltageSag => []
  | .parkNextDie => []
  | .parkGraceExpiry => []
  | .supplyRecovery => []
  | .unparkDie => []
  | .pfwNAssert => []
  | .undervoltageTrip => []
  | .shedExhausted => []
  | .quiesceEnd => []
  | .restart => []
  | .reserveGaugeUpdate => []
  | .retainedWait => []
  | .checkpointWrite => []
  | .tenantScrub => []
  | .moduleReset => []
  | .attestationRequest => []
  | .benchTest => []
  | .firmwareInstall => []
  | .riskUpdate => []
  | .checkpointDue => []
  | .checkpointAck => []
  | .checkpointWithdraw => []
  | .restoreTimeout => []
  | .submitDoorbell => []
  | .launchAccept => []
  | .launchContinue => []
  | .launchAbort => []
  | .taskNodeActivate => []
  | .condNodeActivate => []
  | .whileNodeActivate => []
  | .joinNodeActivate => []
  | .endNodeActivate => []
  | .instanceEnqueue => []
  | .instanceBind => []
  | .gangReserve => []
  | .workSteal => []
  | .dispatchGo => []
  | .loadingEnd => []
  | .firstIssue => []
  | .taskComplete => []
  | .preemptExamine => []
  | .launchHold => []
  | .completionRecord => []
  | .seedreqComplete => []
  | .linkUnitReceive => []
  | .linkReplay => []
  | .portDead => []
  | .linkStateUpdate => []
  | .readRequest => []
  | .writeRequest => []
  | .reductionRequest => []
  | .planeData => []
  | .messageData => []
  | .readData => []
  | .done => []
  | .planeAcknowledgement => []
  | .oldValue => []
  | .exponent => []
  | .cutRequest => []
  | .errorNotice => []
  | .rejoin => []
  | .rejack => []
  | .readyToSend => []
  | .clearToSend => []
  | .restoreDigest => []
  | .drainRound => []
  | .streamResume => []
  | .waitlimExpiry => []
  | .waitsReexamine => []
  | .hostMemRead => []
  | .hostMemWrite => []
  | .hostSnoop => []
  | .registerWrite => []
  | .nop tg => [sylWord tg.stop tg.slot tg.inv tg.pidx 0x00#8 packZ]
  | .add tg d a b => [tag2Word tg 0#2 0x01#8 (packDAB d a b)]
  | .sub tg d a b => [tag2Word tg 0#2 0x02#8 (packDAB d a b)]
  | .mul tg d a b => [tag2Word tg 0#2 0x03#8 (packDAB d a b)]
  | .mulh tg d a b => [tag2Word tg 0#2 0x04#8 (packDAB d a b)]
  | .and tg d a b => [tag2Word tg 0#2 0x05#8 (packDAB d a b)]
  | .or tg d a b => [tag2Word tg 0#2 0x06#8 (packDAB d a b)]
  | .xor tg d a b => [tag2Word tg 0#2 0x07#8 (packDAB d a b)]
  | .andn tg d a b => [tag2Word tg 0#2 0x08#8 (packDAB d a b)]
  | .shl tg d a b => [tag2Word tg 0#2 0x09#8 (packDAB d a b)]
  | .shr tg d a b => [tag2Word tg 0#2 0x0A#8 (packDAB d a b)]
  | .sra tg d a b => [tag2Word tg 0#2 0x0B#8 (packDAB d a b)]
  | .min tg d a b => [tag2Word tg 0#2 0x0C#8 (packDAB d a b)]
  | .max tg d a b => [tag2Word tg 0#2 0x0D#8 (packDAB d a b)]
  | .addi tg d a imm => [tag2Word tg 0#2 0x10#8 (packDAI d a imm)]
  | .muli tg d a imm => [tag2Word tg 0#2 0x11#8 (packDAI d a imm)]
  | .andi tg d a imm => [tag2Word tg 0#2 0x12#8 (packDAI d a imm)]
  | .ori tg d a imm => [tag2Word tg 0#2 0x13#8 (packDAI d a imm)]
  | .xori tg d a imm => [tag2Word tg 0#2 0x14#8 (packDAI d a imm)]
  | .shli tg d a imm => [tag2Word tg 0#2 0x15#8 (packDAI d a imm)]
  | .shri tg d a imm => [tag2Word tg 0#2 0x16#8 (packDAI d a imm)]
  | .srai tg d a imm => [tag2Word tg 0#2 0x17#8 (packDAI d a imm)]
  | .addl tg d a l => [tag2Word tg 0#2 0x18#8 (packDAL d a l)]
  | .addx3 tg d a b => [tag2Word tg 0#2 0x19#8 (packDAB d a b)]
  | .movi tg d imm => [tag2Word tg 0#2 0x1A#8 (packDI d imm)]
  | .movl tg d l => [tag2Word tg 0#2 0x1B#8 (packDL d l)]
  | .movl64 tg d l => [tag2Word tg 0#2 0x1C#8 (packDL d l)]
  | .clz tg d a => [tag2Word tg 0#2 0x1D#8 (packDA d a)]
  | .popc tg d a => [tag2Word tg 0#2 0x1E#8 (packDA d a)]
  | .cmpeq tg pd a b => [tag2Word tg 0#2 0x20#8 (packPAB pd a b)]
  | .cmpne tg pd a b => [tag2Word tg 0#2 0x21#8 (packPAB pd a b)]
  | .cmplt tg pd a b => [tag2Word tg 0#2 0x22#8 (packPAB pd a b)]
  | .cmpge tg pd a b => [tag2Word tg 0#2 0x23#8 (packPAB pd a b)]
  | .cmpltu tg pd a b => [tag2Word tg 0#2 0x24#8 (packPAB pd a b)]
  | .cmpgeu tg pd a b => [tag2Word tg 0#2 0x25#8 (packPAB pd a b)]
  | .cmpeqi tg pd a imm => [tag2Word tg 0#2 0x26#8 (packPAI pd a imm)]
  | .cmplti tg pd a imm => [tag2Word tg 0#2 0x27#8 (packPAI pd a imm)]
  | .cmpltui tg pd a imm => [tag2Word tg 0#2 0x28#8 (packPAI pd a imm)]
  | .pand tg pd pa pb na nb => [tag2Word tg 0#2 0x29#8 (packPPP pd pa pb na nb)]
  | .por tg pd pa pb na nb => [tag2Word tg 0#2 0x2A#8 (packPPP pd pa pb na nb)]
  | .pxor tg pd pa pb na nb => [tag2Word tg 0#2 0x2B#8 (packPPP pd pa pb na nb)]
  | .sel tg d a b => [tag2Word tg 0#2 0x2C#8 (packDAB d a b)]
  | .br tg off => [tag2Word tg 0#2 0x30#8 (packBO off)]
  | .call tg off => [tag2Word tg 0#2 0x31#8 (packBO off)]
  | .jr tg a => [tag2Word tg 0#2 0x32#8 (packA a)]
  | .callr tg a => [tag2Word tg 0#2 0x33#8 (packA a)]
  | .ret tg => [tag2Word tg 0#2 0x34#8 packZ]
  | .brl tg l => [tag2Word tg 0#2 0x35#8 (packBL l)]
  | .loop tg ns a => [tag2Word tg 0#2 0x38#8 (packLP ns a)]
  | .sync tg => [tag2Word tg 0#2 0x39#8 packZ]
  | .kwait tg ka kb => [tag2Word tg 0#2 0x3A#8 (packKW ka kb)]
  | .trap tg code => [tag2Word tg 0#2 0x3B#8 (packTC code)]
  | .eret tg => [tag2Word tg 0#2 0x3C#8 packZ]
  | .yield tg => [tag2Word tg 0#2 0x3D#8 packZ]
  | .tend tg => [tag2Word tg 0#2 0x3E#8 packZ]
  | .mfsr tg d sr => [tag2Word tg 0#2 0x40#8 (packSY d sr)]
  | .mtsr tg d sr => [tag2Word tg 0#2 0x41#8 (packSY d sr)]
  | .rden tg d => [tag2Word tg 0#2 0x42#8 (packD d)]
  | .rand tg d => [tag2Word tg 0#2 0x43#8 (packD d)]
  | .seedreq tg d kd => [tag2Word tg 0#2 0x44#8 (packDK d kd)]
  | .vaddF32 tg d a b => [tag2Word tg 1#2 0x01#8 (packDAB d a b)]
  | .vsubF32 tg d a b => [tag2Word tg 1#2 0x02#8 (packDAB d a b)]
  | .vmulF32 tg d a b => [tag2Word tg 1#2 0x03#8 (packDAB d a b)]
  | .vfmaF32 tg d a b => [tag2Word tg 1#2 0x04#8 (packDAB d a b)]
  | .vminF32 tg d a b => [tag2Word tg 1#2 0x05#8 (packDAB d a b)]
  | .vmaxF32 tg d a b => [tag2Word tg 1#2 0x06#8 (packDAB d a b)]
  | .vaddBf16 tg d a b => [tag2Word tg 1#2 0x07#8 (packDAB d a b)]
  | .vsubBf16 tg d a b => [tag2Word tg 1#2 0x08#8 (packDAB d a b)]
  | .vmulBf16 tg d a b => [tag2Word tg 1#2 0x09#8 (packDAB d a b)]
  | .vfmaBf16 tg d a b => [tag2Word tg 1#2 0x0A#8 (packDAB d a b)]
  | .vminBf16 tg d a b => [tag2Word tg 1#2 0x0B#8 (packDAB d a b)]
  | .vmaxBf16 tg d a b => [tag2Word tg 1#2 0x0C#8 (packDAB d a b)]
  | .vaddF16 tg d a b => [tag2Word tg 1#2 0x0D#8 (packDAB d a b)]
  | .vmulF16 tg d a b => [tag2Word tg 1#2 0x0E#8 (packDAB d a b)]
  | .vfmaF16 tg d a b => [tag2Word tg 1#2 0x0F#8 (packDAB d a b)]
  | .vaddI32 tg d a b => [tag2Word tg 1#2 0x10#8 (packDAB d a b)]
  | .vsubI32 tg d a b => [tag2Word tg 1#2 0x11#8 (packDAB d a b)]
  | .vmulI32 tg d a b => [tag2Word tg 1#2 0x12#8 (packDAB d a b)]
  | .vaddsI32 tg d a b => [tag2Word tg 1#2 0x13#8 (packDAB d a b)]
  | .vminI32 tg d a b => [tag2Word tg 1#2 0x14#8 (packDAB d a b)]
  | .vmaxI32 tg d a b => [tag2Word tg 1#2 0x15#8 (packDAB d a b)]
  | .vaddI16 tg d a b => [tag2Word tg 1#2 0x16#8 (packDAB d a b)]
  | .vsubI16 tg d a b => [tag2Word tg 1#2 0x17#8 (packDAB d a b)]
  | .vmulI16 tg d a b => [tag2Word tg 1#2 0x18#8 (packDAB d a b)]
  | .vaddsI16 tg d a b => [tag2Word tg 1#2 0x19#8 (packDAB d a b)]
  | .vaddI8 tg d a b => [tag2Word tg 1#2 0x1A#8 (packDAB d a b)]
  | .vsubI8 tg d a b => [tag2Word tg 1#2 0x1B#8 (packDAB d a b)]
  | .vaddsI8 tg d a b => [tag2Word tg 1#2 0x1C#8 (packDAB d a b)]
  | .vcmpeqF32 tg md a b => [tag2Word tg 1#2 0x20#8 (packMAB md a b)]
  | .vcmpltF32 tg md a b => [tag2Word tg 1#2 0x21#8 (packMAB md a b)]
  | .vcmpleF32 tg md a b => [tag2Word tg 1#2 0x22#8 (packMAB md a b)]
  | .vcmpeqI32 tg md a b => [tag2Word tg 1#2 0x23#8 (packMAB md a b)]
  | .vcmpltI32 tg md a b => [tag2Word tg 1#2 0x24#8 (packMAB md a b)]
  | .vcmpleI32 tg md a b => [tag2Word tg 1#2 0x25#8 (packMAB md a b)]
  | .vmand tg md ma mb => [tag2Word tg 1#2 0x26#8 (packMMM md ma mb)]
  | .vmor tg md ma mb => [tag2Word tg 1#2 0x27#8 (packMMM md ma mb)]
  | .vmxor tg md ma mb => [tag2Word tg 1#2 0x28#8 (packMMM md ma mb)]
  | .vmovm tg md a => [tag2Word tg 1#2 0x29#8 (packMSC md a)]
  | .vsel tg d a b => [tag2Word tg 1#2 0x2A#8 (packDAB d a b)]
  | .vand tg d a b => [tag2Word tg 1#2 0x2B#8 (packDAB d a b)]
  | .vor tg d a b => [tag2Word tg 1#2 0x2C#8 (packDAB d a b)]
  | .vxor tg d a b => [tag2Word tg 1#2 0x2D#8 (packDAB d a b)]
  | .vshlI32 tg d a b => [tag2Word tg 1#2 0x2E#8 (packDAB d a b)]
  | .vshrI32 tg d a b => [tag2Word tg 1#2 0x2F#8 (packDAB d a b)]
  | .vsraI32 tg d a b => [tag2Word tg 1#2 0x30#8 (packDAB d a b)]
  | .vcvt tg d a sf df => [tag2Word tg 1#2 0x31#8 (packVCV d a sf df)]
  | .vcvtSr tg d a sf df => [tag2Word tg 1#2 0x32#8 (packVCV d a sf df)]
  | .vpack tg d a f => [tag2Word tg 1#2 0x33#8 (packVPK d a f)]
  | .vunpk tg d a f => [tag2Word tg 1#2 0x34#8 (packVPK d a f)]
  | .vredAddF32 tg d a => [tag2Word tg 1#2 0x38#8 (packDA d a)]
  | .vredMinF32 tg d a => [tag2Word tg 1#2 0x39#8 (packDA d a)]
  | .vredMaxF32 tg d a => [tag2Word tg 1#2 0x3A#8 (packDA d a)]
  | .vredAddI32 tg d a => [tag2Word tg 1#2 0x3B#8 (packDA d a)]
  | .vscanAddF32 tg d a => [tag2Word tg 1#2 0x3C#8 (packDA d a)]
  | .vscanAddI32 tg d a => [tag2Word tg 1#2 0x3D#8 (packDA d a)]
  | .vperm tg d a b => [tag2Word tg 1#2 0x3E#8 (packDAB d a b)]
  | .vbcast tg d a imm => [tag2Word tg 1#2 0x3F#8 (packDAI d a imm)]
  | .vsplat tg d a => [tag2Word tg 1#2 0x40#8 (packVS d a)]
  | .vpart tg d ma sd => [tag2Word tg 1#2 0x41#8 (packVPT d ma sd)]
  | .vexp2 tg d a => [tag2Word tg 1#2 0x42#8 (packDA d a)]
  | .vlog2 tg d a => [tag2Word tg 1#2 0x43#8 (packDA d a)]
  | .vrcp tg d a => [tag2Word tg 1#2 0x44#8 (packDA d a)]
  | .vrsq tg d a => [tag2Word tg 1#2 0x45#8 (packDA d a)]
  | .vrand tg d => [tag2Word tg 1#2 0x46#8 (packD d)]
  | .vld tg d w a => [tag2Word tg 2#2 0x01#8 (packLM d w a)]
  | .vst tg d w a => [tag2Word tg 2#2 0x02#8 (packLM d w a)]
  | .sld tg d w a => [tag2Word tg 2#2 0x03#8 (packLM d w a)]
  | .sst tg d w a => [tag2Word tg 2#2 0x04#8 (packLM d w a)]
  | .sldd tg d w a => [tag2Word tg 2#2 0x05#8 (packLM d w a)]
  | .sstd tg d w a => [tag2Word tg 2#2 0x06#8 (packLM d w a)]
  | .vlds tg d w a l => [tag2Word tg 2#2 0x07#8 (packLML d w a l)]
  | .vsts tg d w a l => [tag2Word tg 2#2 0x08#8 (packLML d w a l)]
  | .vldg tg d w vi => [tag2Word tg 2#2 0x09#8 (packLG d w vi)]
  | .vstg tg d w vi => [tag2Word tg 2#2 0x0A#8 (packLG d w vi)]
  | .vldm tg md w a => [tag2Word tg 2#2 0x0B#8 (packLMM md w a)]
  | .vstm tg d w a mk => [tag2Word tg 2#2 0x0C#8 (packLMK d w a mk)]
  | .aadd tg d w a => [tag2Word tg 2#2 0x0D#8 (packLM d w a)]
  | .aaddF32 tg d w a => [tag2Word tg 2#2 0x0E#8 (packLM d w a)]
  | .amin tg d w a => [tag2Word tg 2#2 0x0F#8 (packLM d w a)]
  | .amax tg d w a => [tag2Word tg 2#2 0x10#8 (packLM d w a)]
  | .axchg tg d w a => [tag2Word tg 2#2 0x11#8 (packLM d w a)]
  | .acas tg d w a => [tag2Word tg 2#2 0x12#8 (packLM d w a)]
  | .pfxld tg d w a => [tag2Word tg 2#2 0x13#8 (packLM d w a)]
  | .mcfg tg cr a => [tagWord tg 6#3 0x01#8 (packMCR cr a)]
  | .mcfgl tg cr l => [tagWord tg 6#3 0x02#8 (packMCL cr l)]
  | .mnest tg => [tagWord tg 6#3 0x03#8 packZ]
  | .accinit tg t a => [tagWord tg 6#3 0x04#8 (packMT0 t a)]
  | .accinitU tg t => [tagWord tg 6#3 0x04#8 (packMTU t)]
  | .accnorm tg t a => [tagWord tg 6#3 0x05#8 (packMT0 t a)]
  | .accnormRow tg t a => [tagWord tg 6#3 0x05#8 (packMT1 t a)]
  | .accrd tg d t a f => [tagWord tg 6#3 0x06#8 (packMRW d t a f)]
  | .accwr tg d t a f => [tagWord tg 6#3 0x07#8 (packMRW d t a f)]
  | .accscale tg t a => [tagWord tg 6#3 0x08#8 (packMT0 t a)]
  | .accscaleRow tg t a => [tagWord tg 6#3 0x08#8 (packMT1 t a)]
  | .msmx tg ts tout w a => [tagWord tg 6#3 0x09#8 (packMSX ts tout w a)]
  | .mchk tg mode => [tagWord tg 6#3 0x0A#8 (packMMD mode)]
  | .accst tg d t a => [tagWord tg 6#3 0x0B#8 (packMTS d t a)]
  | .accexp tg d t a => [tagWord tg 6#3 0x0C#8 (packMTS d t a)]
  | .accloss tg d t a => [tagWord tg 6#3 0x0D#8 (packMTS d t a)]
  | .acclog tg d t a => [tagWord tg 6#3 0x0E#8 (packMTS d t a)]
  | .accside tg d t a => [tagWord tg 6#3 0x0F#8 (packMTS d t a)]
  | .mcfgrd tg cr a => [tagWord tg 6#3 0x10#8 (packMCR cr a)]
  | .xcopy tg kd a l => [tagWord tg 7#3 0x01#8 (packXT kd a l)]
  | .xlin tg kd a l => [tagWord tg 7#3 0x02#8 (packXT kd a l)]
  | .xidx tg a => [tagWord tg 7#3 0x03#8 (packA a)]
  | .xgath tg kd a l => [tagWord tg 7#3 0x04#8 (packXT kd a l)]
  | .xscat tg kd a l => [tagWord tg 7#3 0x05#8 (packXT kd a l)]
  | .xmove tg op w a => [tagWord tg 7#3 0x06#8 (packXP op w a)]
  | .xchain tg kd a l => [tagWord tg 7#3 0x07#8 (packXT kd a l)]
  | .xstat tg d ch => [tagWord tg 7#3 0x08#8 (packXS d ch)]
  | .xfence tg kd sc => [tagWord tg 7#3 0x09#8 (packXF kd sc)]
  | .xred tg kd a l => [tagWord tg 7#3 0x0A#8 (packXT kd a l)]
  | .xatom tg kd a l => [tagWord tg 7#3 0x0B#8 (packXT kd a l)]
  | .xredv tg kd a l => [tagWord tg 7#3 0x0C#8 (packXT kd a l)]
  | .xbara tg kd a l => [tagWord tg 7#3 0x0D#8 (packXT kd a l)]
  | .xbarw tg kd a l => [tagWord tg 7#3 0x0E#8 (packXT kd a l)]
  | .xallr tg kd a l => [tagWord tg 7#3 0x0F#8 (packXT kd a l)]
  | .xrdsc tg kd a l => [tagWord tg 7#3 0x10#8 (packXT kd a l)]
  | .xallg tg kd a l => [tagWord tg 7#3 0x11#8 (packXT kd a l)]
  | .xbcst tg kd a l => [tagWord tg 7#3 0x12#8 (packXT kd a l)]
  | .xpcnt tg d a => [tagWord tg 7#3 0x13#8 (packDA d a)]
  | .xpcan tg kd a l => [tagWord tg 7#3 0x14#8 (packXT kd a l)]
  | .xmvb tg kd a l => [tagWord tg 7#3 0x15#8 (packXT kd a l)]
  | .xlaunch tg kd a l => [tagWord tg 7#3 0x16#8 (packXT kd a l)]
  | .xckpt tg kd a l => [tagWord tg 7#3 0x17#8 (packXT kd a l)]
  | .xhadd tg kd a l => [tagWord tg 7#3 0x18#8 (packXT kd a l)]
  | .xhdel tg kd a l => [tagWord tg 7#3 0x19#8 (packXT kd a l)]
  | .xsend tg kd a l => [tagWord tg 7#3 0x1A#8 (packXT kd a l)]
  | .xrecv tg kd a l => [tagWord tg 7#3 0x1B#8 (packXT kd a l)]
  | .xsig tg kd a l => [tagWord tg 7#3 0x1C#8 (packXT kd a l)]
  | .portUp => []
  | .entropyHealthTest => []
  | .idleClkCharge => []

/-- The words of the first `n` syllables from `ws`, ending with the first whose STOP is 1 (R70, R73): the
syllables read, and the words after them. `none` stands for a word that touches an unmapped page (R89). -/
def takeSyls : Nat → Nat → List (Option W32) → Except Nat (List W32 × List (Option W32))
  | 0, _, ws => .ok ([], ws)
  | _ + 1, i, [] => .error i
  | _ + 1, i, none :: _ => .error i
  | n + 1, i, some w :: ws =>
    if wordStop w then .ok ([w], ws)
    else
      match takeSyls n (i + 1) ws with
      | .ok (l, r) => .ok (w :: l, r)
      | .error e => .error e

/-- The literal words of a bundle (R70). -/
def takeLits : Nat → Nat → List (Option W32) → Except Nat (List W32)
  | 0, _, _ => .ok []
  | _ + 1, i, [] => .error i
  | _ + 1, i, none :: _ => .error i
  | n + 1, i, some w :: ws =>
    match takeLits n (i + 1) ws with
    | .ok l => .ok (w :: l)
    | .error e => .error e

/-- A bundle from the words at its first byte: the header, the syllables and the literals (R70, R71), or the
index of the first word that could not be fetched (R89). -/
def parseBundle (ws : List (Option W32)) : Except Nat Bundle :=
  match ws with
  | some h :: ws =>
    match takeSyls 8 1 ws with
    | .error e => .error e
    | .ok (syls, rest) =>
      match takeLits (h.extractLsb' 24 4).toNat (1 + syls.length) rest with
      | .error e => .error e
      | .ok lits =>
        .ok { tmpl := h.extractLsb' 28 4, rep := h.extractLsb' 16 8, clr := h.extractLsb' 8 8,
              rsv := h.extractLsb' 0 8, syls := syls, lits := lits }
  | _ => .error 0

/-- The header word of a bundle (R71). -/
def headerWord (b : Bundle) : W32 := b.tmpl ++ BitVec.ofNat 4 b.lits.length ++ b.rep ++ b.clr ++ b.rsv

/-- The words of a bundle in storage order (R70). -/
def bundleWords (b : Bundle) : List W32 := headerWord b :: (b.syls ++ b.lits)

/-- The length of a bundle in bytes (R70). -/
def Bundle.bytes (b : Bundle) : Nat := 4 * (1 + b.syls.length + b.lits.length)

/-- The bytes of a word, low byte first (R70). -/
def wordBytes (w : W32) : List Byte := (List.range 4).map fun i => w.extractLsb' (8 * i) 8

/-- What the decoder reads from an instruction of `nbits` bits, bit 0 of `w` the low bit of its first word.
The rows with an encoding are single words of 32 bits. -/
def decodeTableWord (nbits w : Nat) : Option Instr :=
  if nbits = 32 then (decodeSyl (BitVec.ofNat 32 w)).toOption else none

end Sys2Proof
end

