-- ==== Sys2Proof/Config.lean ====
section
/-! DEFINITION. What one module fixes (R1 to R8) and the values the manual leaves open. An opaque constant has
no body: nothing can evaluate it, and a statement that holds of it holds whatever its value. -/

namespace Sys2Proof

/-- Dies of a module (R2). -/
def numDies : Nat := 8
/-- Clusters of a die (R2). -/
def numClusters : Nat := 24
/-- Cores of a cluster (R2). -/
def numCores : Nat := 16
/-- Cores of the module: core number = 384 × die + 16 × cluster + core (R2). -/
def moduleCores : Nat := numDies * numClusters * numCores

/-- The die of a module-wide core number. -/
def dieOf (core : Nat) : Nat := core / (numClusters * numCores)
/-- The cluster of a module-wide core number, within its die. -/
def clusterOf (core : Nat) : Nat := core / numCores % numClusters
/-- The number of a core within its cluster. -/
def coreInCluster (core : Nat) : Nat := core % numCores
/-- The module-wide number of a core's cluster, 24 × die + cluster. -/
def clusterIndex (core : Nat) : Nat := core / numCores

/-- Conditioned entropy bits (R66): the 256 bits of the n-th request. Free value. -/
opaque freeEntropy : Nat → BitVec 256

/-- A formatted copy between raw 32-bit words (FMT 0) and another format (R297, log 4): of the source format, the source
bits and the destination format. Free value. -/
opaque freeRawConvert : Nat → Nat → Nat → BitVec 32

/-- What a defective processing element of the matrix array gives for a sum of products (R197, log 43): of the core, the element
64 × row + column and the true sum. Free value. -/
opaque freePe : Nat → Nat → Int → Int

/-- What the firmware Vizin chooses where the manual gives no value (R220, R246, R269, log 4): by the kind of the choice and
its number. Free value. -/
opaque freeVizin : Nat → Nat → BitVec 64

/-- The module sealing key K_seal (R380), which never leaves the I/O die. Free value. -/
opaque sealKey : List (BitVec 8)

/-- The SLH-DSA-SHAKE-256s signature of the device identity key over a report (R390). Free value. -/
opaque signature : List (BitVec 8) → List (BitVec 8)

/-- The layout of a bench result within its report (R392): of what the seven items found. Free value. -/
opaque benchLayout : List Nat → List (BitVec 8)

/-- The module serial number (R390). Free value. -/
opaque serialNumber : BitVec 64

/-- The device identity public key, 64 bytes, and its certificate chain (R390). Free values. -/
opaque identityKey : List (BitVec 8)
opaque identityChain : List (BitVec 8)

end Sys2Proof
end

