-- ==== Sys2Proof/Machine/Num.lean ====
section
/-! DEFINITION. Numbers (R34 to R64): exact reals, rounding, the floating-point, integer, block-scaled and
digit-plane formats, the fixed trees and the random generator. A real is an exact dyadic; nothing rounds
but `roundInt`. -/

namespace Sys2Proof.Machine

/-- The exact real m × 2^e. -/
structure Dy where
  m : Int
  e : Int
deriving DecidableEq, Repr

/-- Exception flags in the bit order of R21: NX, UF, OF, DZ, NV, SAT from bit 0. -/
abbrev Fl := BitVec 6

def flNX : Fl := 0x01#6
def flUF : Fl := 0x02#6
def flOF : Fl := 0x04#6
def flDZ : Fl := 0x08#6
def flNV : Fl := 0x10#6
def flSAT : Fl := 0x20#6

/-- `f` when `b`, else no flag. -/
def flIf (b : Bool) (f : Fl) : Fl := if b then f else 0#6

/-- x × 2^k for a shift count of either sign, on a natural mantissa, rounded down. -/
def shiftNat (m : Nat) (k : Int) : Nat := if 0 ≤ k then m <<< k.toNat else m >>> (-k).toNat

/-- The mantissa of x at exponent `e`, exact when `e ≤ x.e`, else rounded toward −∞. -/
def Dy.at (x : Dy) (e : Int) : Int :=
  if e ≤ x.e then x.m * 2 ^ (x.e - e).toNat else x.m.fdiv (2 ^ (e - x.e).toNat)

def Dy.zero : Dy := ⟨0, 0⟩
def Dy.ofInt (n : Int) : Dy := ⟨n, 0⟩
def Dy.neg (x : Dy) : Dy := ⟨-x.m, x.e⟩
def Dy.mul (x y : Dy) : Dy := ⟨x.m * y.m, x.e + y.e⟩
def Dy.add (x y : Dy) : Dy :=
  if x.m = 0 then y else if y.m = 0 then x
  else let e := min x.e y.e; ⟨x.at e + y.at e, e⟩
def Dy.sub (x y : Dy) : Dy := x.add y.neg
/-- x × 2^k. -/
def Dy.scale (x : Dy) (k : Int) : Dy := ⟨x.m, x.e + k⟩
def Dy.isNeg (x : Dy) : Bool := decide (x.m < 0)
def Dy.isZero (x : Dy) : Bool := decide (x.m = 0)
/-- x < y, exactly. -/
def Dy.lt (x y : Dy) : Bool := (x.sub y).isNeg
/-- x = y, exactly. -/
def Dy.eq (x y : Dy) : Bool := (x.sub y).isZero
def Dy.abs (x : Dy) : Dy := ⟨x.m.natAbs, x.e⟩
/-- Floor(Log2(|x|)) for x ≠ 0 (R34). -/
def Dy.log2 (x : Dy) : Int := (x.m.natAbs.log2 : Int) + x.e
/-- Floor(x) (R34). -/
def Dy.floor (x : Dy) : Int := x.at 0
/-- Ceil(x) (R34). -/
def Dy.ceil (x : Dy) : Int := -(x.neg.at 0)
/-- x is an integer multiple of 2^e. -/
def Dy.multipleOf (x : Dy) (e : Int) : Bool := (Dy.mk (x.at e) e).eq x

/-- RoundInt of R47 on the magnitude m × 2^e: the mode, the sign and the draw word as there. -/
def roundInt (m : Nat) (e : Int) (rm : Nat) (neg : Bool) (d : Nat) : Nat :=
  if 0 ≤ e then m <<< e.toNat
  else
    let k := (-e).toNat
    let fl := m >>> k
    let r := m % 2 ^ k
    match rm with
    | 0 => if 2 * r > 2 ^ k ∨ (2 * r = 2 ^ k ∧ fl % 2 = 1) then fl + 1 else fl
    | 1 => fl
    | 2 => if neg ∧ r > 0 then fl + 1 else fl
    | 3 => if ¬ neg ∧ r > 0 then fl + 1 else fl
    | 4 => if (r * 2 ^ 32) >>> k + d ≥ 2 ^ 32 then fl + 1 else fl
    | _ => fl

/-- Round(a) of R34: nearest integer, ties to even, for a real of either sign. -/
def roundNearest (x : Dy) : Int :=
  let n := roundInt x.m.natAbs x.e 0 x.isNeg 0
  if x.isNeg then -(n : Int) else n

/-- ShiftRNE of R34. -/
def shiftRNE (m : Int) (k : Nat) : Int := roundNearest ⟨m, -(k : Int)⟩

/-- Saturate of R34: the clamped value and whether the clamp changed it. -/
def saturate (x : Int) (n : Nat) : Int × Bool :=
  let lo : Int := -(2 ^ (n - 1)); let hi : Int := 2 ^ (n - 1) - 1
  let y := max lo (min x hi)
  (y, decide (y ≠ x))

/-- BitLen of R34: the least L with −2^L ≤ x < 2^L. -/
def bitLen (x : Int) : Nat :=
  let a : Nat := if 0 ≤ x then x.toNat else (-x - 1).toNat
  if a = 0 then 0 else a.log2 + 1

/-- SignExtend of R34 on an encoding given as a natural. -/
def signExt (b n : Nat) : Int :=
  let v := b % 2 ^ n
  if 2 * v ≥ 2 ^ n then (v : Int) - 2 ^ n else v

/-- The n-bit two's-complement encoding of an integer. -/
def encInt (x : Int) (n : Nat) : Nat := (x % 2 ^ n).toNat

/-- A binary floating-point format of R35: width, exponent and fraction field widths, bias, whether it has
infinities, and the max finite as n × 2^q. -/
structure Fmt where
  width : Nat
  eb    : Nat
  f     : Nat
  bias  : Int
  inf   : Bool
  maxN  : Nat
  maxQ  : Int
deriving DecidableEq, Repr

def fmtF32 : Fmt := ⟨32, 8, 23, 127, true, 2 ^ 24 - 1, 104⟩
def fmtF16 : Fmt := ⟨16, 5, 10, 15, true, 2 ^ 11 - 1, 5⟩
def fmtBF16 : Fmt := ⟨16, 8, 7, 127, true, 2 ^ 8 - 1, 120⟩
def fmtE4M3 : Fmt := ⟨8, 4, 3, 7, false, 14, 5⟩
def fmtE5M2 : Fmt := ⟨8, 5, 2, 15, true, 7, 13⟩
/-- The format A16 of R151. -/
def fmtA16 : Fmt := ⟨24, 8, 15, 127, true, 2 ^ 16 - 1, 112⟩

/-- A decoded floating-point value: the sign is kept apart so that −0 differs from +0 (R36). -/
inductive Fp where
  | nan
  | inf (neg : Bool)
  | fin (neg : Bool) (m : Nat) (e : Int)
deriving DecidableEq, Repr

/-- The exact real of a finite value. -/
def Fp.dy : Fp → Dy
  | .fin neg m e => ⟨if neg then -(m : Int) else m, e⟩
  | _ => Dy.zero

def Fp.isNaN : Fp → Bool
  | .nan => true
  | _ => false
def Fp.isInf : Fp → Bool
  | .inf _ => true
  | _ => false
def Fp.isFin : Fp → Bool
  | .fin _ _ _ => true
  | _ => false
def Fp.sign : Fp → Bool
  | .nan => false
  | .inf n => n
  | .fin n _ _ => n
def Fp.isZero : Fp → Bool
  | .fin _ m _ => decide (m = 0)
  | _ => false

/-- A real as a finite value, a zero taking the sign given. -/
def Fp.ofDy (x : Dy) (zneg : Bool) : Fp :=
  .fin (if x.m = 0 then zneg else x.isNeg) x.m.natAbs x.e

/-- The value of an encoding (R35). -/
def fpDecode (F : Fmt) (b : Nat) : Fp :=
  let neg := b.testBit (F.width - 1)
  let E := (b >>> F.f) % 2 ^ F.eb
  let fr := b % 2 ^ F.f
  if E = 2 ^ F.eb - 1 ∧ F.inf then if fr = 0 then .inf neg else .nan
  else if E = 2 ^ F.eb - 1 ∧ fr = 2 ^ F.f - 1 ∧ ¬ F.inf then .nan
  else if E = 0 then .fin neg fr (1 - F.bias - F.f)
  else .fin neg (2 ^ F.f + fr) ((E : Int) - F.bias - F.f)

/-- A NaN encoding whose most significant fraction bit is 0, in FP32, FP16 or BF16 (R37). -/
def fpSignalling (F : Fmt) (b : Nat) : Bool :=
  F.width > 8 && (fpDecode F b).isNaN && !b.testBit (F.f - 1)

/-- A non-zero encoding whose exponent field is 0. -/
def fpSubnormal (F : Fmt) (b : Nat) : Bool :=
  decide ((b >>> F.f) % 2 ^ F.eb = 0 ∧ b % 2 ^ F.f ≠ 0)

/-- A finite encoding whose magnitude is below the smallest normal, zero included. -/
def fpBelowNormal (F : Fmt) (b : Nat) : Bool := decide ((b >>> F.f) % 2 ^ F.eb = 0)

/-- The sign bit of a format, set when `neg`. -/
def fpSignBit (F : Fmt) (neg : Bool) : Nat := if neg then 2 ^ (F.width - 1) else 0

/-- The canonical NaN (R36, R37). -/
def fpNaN (F : Fmt) : Nat :=
  if F.inf then ((2 ^ F.eb - 1) <<< F.f) + 2 ^ (F.f - 1) else 2 ^ (F.width - 1) - 1

def fpInf (F : Fmt) (neg : Bool) : Nat := fpSignBit F neg + ((2 ^ F.eb - 1) <<< F.f)

/-- Encode of R34. -/
def fpEncode (F : Fmt) (neg : Bool) (n : Nat) (q : Int) : Nat :=
  fpSignBit F neg +
    if n < 2 ^ F.f then n else ((q + F.f + F.bias).toNat <<< F.f) + (n - 2 ^ F.f)

def fpMax (F : Fmt) (neg : Bool) : Nat := fpEncode F neg F.maxN F.maxQ

/-- Overflow(F, rm, neg) of R48. -/
def fpOverflow (F : Fmt) (rm : Nat) (neg : Bool) : Nat :=
  if ¬ F.inf then fpMax F neg
  else
    match rm with
    | 1 => fpMax F neg
    | 2 => if neg then fpInf F neg else fpMax F neg
    | 3 => if neg then fpMax F neg else fpInf F neg
    | _ => fpInf F neg

/-- RoundToFormat of R48 on the real of sign `neg` and magnitude m × 2^e. -/
def roundToFormat (F : Fmt) (neg : Bool) (m : Nat) (e : Int) (rm d : Nat) : Nat × Fl :=
  if m = 0 then (fpSignBit F neg, 0#6)
  else
    let q0 := max ((m.log2 : Int) + e) (1 - F.bias) - F.f
    let n0 := roundInt m (e - q0) rm neg d
    let carry := decide (n0 = 2 ^ (F.f + 1))
    let n := if carry then 2 ^ F.f else n0
    let q := if carry then q0 + 1 else q0
    if (Dy.mk F.maxN F.maxQ).lt ⟨n, q⟩ then (fpOverflow F rm neg, flOF ||| flNX)
    else
      let inexact := !(Dy.mk n q).eq ⟨m, e⟩
      (fpEncode F neg n q,
        flIf inexact flNX ||| flIf (decide (n < 2 ^ F.f ∧ n ≠ 0) && inexact) flUF)

/-- The result flush of R50 under flush mode `fm`. -/
def flushResult (F : Fmt) (fm : Nat) (r : Nat × Fl) : Nat × Fl :=
  if 1 ≤ fm ∧ fpSubnormal F r.1 then (fpSignBit F (r.1.testBit (F.width - 1)), r.2 ||| flUF ||| flNX) else r

/-- The operand flush of R50: an encoding, read as zero when FM = 2 and it is subnormal. -/
def flushIn (F : Fmt) (fm : Nat) (b : Nat) : Nat :=
  if fm = 2 ∧ fpSubnormal F b then fpSignBit F (b.testBit (F.width - 1)) else b

/-- A finite real rounded to a format and flushed. -/
def roundFlush (F : Fmt) (neg : Bool) (m : Nat) (e : Int) (rm fm d : Nat) : Nat × Fl :=
  flushResult F fm (roundToFormat F neg m e rm d)

/-- NV when an operand is a signalling NaN (R37). -/
def nvSignalling (F : Fmt) (bs : List Nat) : Fl := flIf (bs.any (fpSignalling F)) flNV

/-- The sign IEEE 754 gives the exact zero sum of terms of signs `a` and `b`. -/
def zeroSumSign (rm : Nat) (a b : Bool) : Bool := if a = b then a else decide (rm = 2)

/-- The sum of two exact values, rounded once (R38). -/
def fpSum (F : Fmt) (rm fm d : Nat) (x y : Fp) : Nat × Fl :=
  match x, y with
  | .nan, _ => (fpNaN F, 0#6)
  | _, .nan => (fpNaN F, 0#6)
  | .inf a, .inf b => if a = b then (fpInf F a, 0#6) else (fpNaN F, flNV)
  | .inf a, _ => (fpInf F a, 0#6)
  | _, .inf b => (fpInf F b, 0#6)
  | .fin a _ _, .fin b _ _ =>
    let z := x.dy.add y.dy
    roundFlush F (if z.m = 0 then zeroSumSign rm a b else z.isNeg) z.m.natAbs z.e rm fm d

/-- The exact product of two values, and NV for 0 × ∞ (R38). -/
def fpProduct (x y : Fp) : Fp × Fl :=
  match x, y with
  | .nan, _ => (.nan, 0#6)
  | _, .nan => (.nan, 0#6)
  | .fin a m e, .fin b n f => (.fin (a != b) (m * n) (e + f), 0#6)
  | x, y => if x.isZero || y.isZero then (.nan, flNV) else (.inf (x.sign != y.sign), 0#6)

/-- a + b on encodings (R38, R50). -/
def fpAdd (F : Fmt) (rm fm d a b : Nat) : Nat × Fl :=
  let a := flushIn F fm a; let b := flushIn F fm b
  let r := fpSum F rm fm d (fpDecode F a) (fpDecode F b)
  (r.1, r.2 ||| nvSignalling F [a, b])

/-- An encoding with its sign inverted. -/
def fpNegate (F : Fmt) (b : Nat) : Nat := b ^^^ 2 ^ (F.width - 1)

/-- a − b on encodings (R38, R50). -/
def fpSub (F : Fmt) (rm fm d a b : Nat) : Nat × Fl := fpAdd F rm fm d a (fpNegate F b)

/-- a × b on encodings (R38, R50). -/
def fpMul (F : Fmt) (rm fm d a b : Nat) : Nat × Fl :=
  let a := flushIn F fm a; let b := flushIn F fm b
  let p := fpProduct (fpDecode F a) (fpDecode F b)
  let fl := p.2 ||| nvSignalling F [a, b]
  match p.1 with
  | .nan => (fpNaN F, fl)
  | .inf n => (fpInf F n, fl)
  | .fin n m e => let r := roundFlush F n m e rm fm d; (r.1, r.2 ||| fl)

/-- a × b + c on encodings, rounded once (R135). -/
def fpFma (F : Fmt) (rm fm d a b c : Nat) : Nat × Fl :=
  let a := flushIn F fm a; let b := flushIn F fm b; let c := flushIn F fm c
  let p := fpProduct (fpDecode F a) (fpDecode F b)
  let r := fpSum F rm fm d p.1 (fpDecode F c)
  (r.1, r.2 ||| p.2 ||| nvSignalling F [a, b, c])

/-- Less-than of two non-NaN values, −0 below +0 when `z` (R38). -/
def fpLess (z : Bool) (x y : Fp) : Bool :=
  match x, y with
  | .inf a, .inf b => a && !b
  | .inf a, _ => a
  | _, .inf b => !b
  | _, _ => if x.isZero && y.isZero then z && x.sign && !y.sign else x.dy.lt y.dy

/-- Min (or Max when `max`) of R38 and R135: an operand as read, or the canonical NaN. -/
def fpMinMax (F : Fmt) (max : Bool) (fm a b : Nat) : Nat × Fl :=
  let a := flushIn F fm a; let b := flushIn F fm b
  let x := fpDecode F a; let y := fpDecode F b
  let r :=
    if x.isNaN && y.isNaN then fpNaN F
    else if x.isNaN then b
    else if y.isNaN then a
    else if (if max then fpLess true x y else fpLess true y x) then b else a
  (r, nvSignalling F [a, b])

/-- The compare kinds of R138. -/
inductive Cmp where
  | eq | lt | le
deriving DecidableEq, Repr

/-- A floating-point compare of R138. -/
def fpCompare (F : Fmt) (c : Cmp) (fm a b : Nat) : Bool × Fl :=
  let a := flushIn F fm a; let b := flushIn F fm b
  let x := fpDecode F a; let y := fpDecode F b
  if x.isNaN || y.isNaN then
    (false, if c = .eq then nvSignalling F [a, b] else flNV)
  else
    let eq := !fpLess false x y && !fpLess false y x
    (match c with
      | .eq => eq
      | .lt => fpLess false x y
      | .le => fpLess false x y || eq, 0#6)

/-- A conversion between floating-point formats (R51); a finite value is kept when the formats are one (R142). DEDUCED (log 54): the
flush that R51 names acts on E4M3 and E5M2 results too, below their own smallest normal. -/
def fpConvert (S D : Fmt) (rm fm d b : Nat) : Nat × Fl :=
  let b := if S.width > 8 then flushIn S fm b else b
  let fl := nvSignalling S [b]
  match fpDecode S b with
  | .nan => (fpNaN D, fl)
  | .inf n => if D.inf then (fpInf D n, fl) else (fpMax D n, fl ||| flOF)
  | .fin n m e =>
    if S = D then let r := flushResult D fm (b, 0#6); (r.1, r.2 ||| fl)
    else let r := roundFlush D n m e rm fm d; (r.1, r.2 ||| fl)

/-- FloatToInt of R52, signed, at width `w`. -/
def fpToInt (x : Fp) (w rm d : Nat) : Int × Fl :=
  match x with
  | .nan => (0, flNV)
  | .inf n => ((saturate (if n then -(2 ^ w) else 2 ^ w) w).1, flNV ||| flSAT)
  | .fin n m e =>
    let a := roundInt m e rm n d
    let v : Int := if n then -(a : Int) else a
    let s := saturate v w
    if s.2 then (s.1, flNV ||| flSAT)
    else (s.1, flIf (!(Dy.ofInt v).eq x.dy) flNX)

/-- An exact integer rounded to a format (R52). -/
def intToFp (F : Fmt) (x : Int) (rm fm d : Nat) : Nat × Fl :=
  roundFlush F (decide (x < 0)) x.natAbs 0 rm fm d

/-- The exact value of a block-scaled element (R40, R45, R53). -/
def elemValue (n b S : Nat) (isBSF : Bool) : Fp :=
  if isBSF then
    if b % 0x80 = 0x7F then .nan
    else
      match fpDecode fmtE4M3 b with
      | .fin neg m e => .fin neg m (e + S - 127)
      | x => x
  else
    let v := signExt b n
    .fin (decide (v < 0)) v.natAbs ((S : Int) - 127 - ((n : Int) - 2))

/-- DecodeElem of R53. -/
def decodeElem (n b S : Nat) (isBSF : Bool) (rm fm : Nat) : Nat × Fl :=
  match elemValue n b S isBSF with
  | .nan => (0x7FC00000, 0#6)
  | .inf neg => (fpInf fmtF32 neg, 0#6)
  | .fin neg m e => let r := roundToFormat fmtF32 neg m e rm 0; (flushIn fmtF32 fm r.1, r.2)

/-- The greatest magnitude of a list of values, as a real. -/
def maxAbs (xs : List Fp) : Dy :=
  xs.foldl (fun a x => if a.lt x.dy.abs then x.dy.abs else a) Dy.zero

/-- An element of EncodeBlock rounded under scale S. -/
def scaleRound (x : Fp) (n S rm d : Nat) : Int :=
  match x with
  | .fin neg m e =>
    let r := roundInt m (e + n - 2 - (S - 127)) rm neg d
    if neg then -(r : Int) else r
  | _ => 0

/-- The scale search of R54: the least scale from S at which every rounded element fits. -/
def fitScale (xs : List Fp) (ds : List Nat) (n rm : Nat) : Nat → Nat → Nat × List Int
  | 0, S => (S, List.zipWith (fun x d => scaleRound x n S rm d) xs ds)
  | k + 1, S =>
    let ms := List.zipWith (fun x d => scaleRound x n S rm d) xs ds
    if S < 255 ∧ ms.any (fun m => decide (m > 2 ^ (n - 1) - 1)) then fitScale xs ds n rm k (S + 1)
    else (S, ms)

/-- One element of EncodeBlock after the scale is settled: saturation, NX and the flush (R54). -/
def settleElem (n S fm : Nat) (x : Fp) (m : Int) : Int × Fl :=
  let s := saturate m n
  let v : Dy := ⟨s.1, (S : Int) - 127 - ((n : Int) - 2)⟩
  let fl := flIf s.2 (flSAT ||| flOF) ||| flIf (!v.eq x.dy) flNX
  if 1 ≤ fm ∧ ¬ v.isZero ∧ v.abs.lt ⟨1, -126⟩ then (0, fl ||| flUF ||| flNX) else (s.1, fl)

/-- EncodeBlock of R54: the scale, the four integers and the flags. -/
def encodeBlock (xs : List Fp) (n rm fm : Nat) (ds : List Nat) : Nat × List Int × Fl :=
  let fl0 := flIf (xs.any Fp.isNaN) flNV
  let xs := xs.map fun x => if x.isNaN then .fin false 0 0 else x
  if xs.any Fp.isInf then
    (255, xs.map fun x => if x.isZero then 0 else if x.sign then -(2 ^ (n - 1)) else 2 ^ (n - 1) - 1,
      fl0 ||| flOF ||| flSAT)
  else
    let a := maxAbs xs
    if a.isZero then (0, [0, 0, 0, 0], fl0)
    else
      let S0 := (max 0 (min (a.log2 + 127) 255)).toNat
      let r := fitScale xs ds n rm 255 S0
      let es := List.zipWith (settleElem n r.1 fm) xs r.2
      (r.1, es.map Prod.fst, es.foldl (fun f e => f ||| e.2) fl0)

/-- An element of EncodeBlockF rounded under scale S, and whether the rounding overflows 448. -/
def scaleRoundF (x : Fp) (S rm d : Nat) : Nat × Bool :=
  match x with
  | .fin neg m e =>
    let r := roundToFormat fmtE4M3 neg m (e + 127 - S) rm d
    (r.1, r.2 &&& flOF != 0#6)
  | _ => (0x7F, false)

/-- The scale search of R55. -/
def fitScaleF (xs : List Fp) (ds : List Nat) (rm : Nat) : Nat → Nat → Nat × List (Nat × Bool)
  | 0, S => (S, List.zipWith (fun x d => scaleRoundF x S rm d) xs ds)
  | k + 1, S =>
    let ws := List.zipWith (fun x d => scaleRoundF x S rm d) xs ds
    if S < 255 ∧ ws.any Prod.snd then fitScaleF xs ds rm k (S + 1) else (S, ws)

/-- One element of EncodeBlockF after the scale is settled (R55). -/
def settleElemF (S fm : Nat) (x : Fp) (w : Nat × Bool) : Nat × Fl :=
  if x.isNaN then (0x7F, flNV)
  else
    let v := (elemValue 8 w.1 S true).dy
    let fl := flIf w.2 flOF ||| flIf (!v.eq x.dy) flNX
    if 1 ≤ fm ∧ ¬ v.isZero ∧ v.abs.lt ⟨1, -126⟩ then (w.1 &&& 0x80, fl ||| flUF ||| flNX) else (w.1, fl)

/-- EncodeBlockF of R55: the scale, the four encodings and the flags. DEDUCED (log 54): beside an infinite member a finite non-zero one
takes ±448 too, as EncodeBlock's branch for infinities does, and with it NX. -/
def encodeBlockF (xs : List Fp) (rm fm : Nat) (ds : List Nat) : Nat × List Int × Fl :=
  if xs.any Fp.isInf then
    let w (x : Fp) : Nat := if x.isNaN then 0x7F else (if x.sign then 0x80 else 0) + if x.isZero then 0 else 0x7E
    (255, xs.map fun x => (w x : Int),
      flOF ||| flIf (xs.any Fp.isNaN) flNV ||| flIf (xs.any fun x => x.isFin && !(elemValue 8 (w x) 255 true).dy.eq x.dy) flNX)
  else
    let a := maxAbs xs
    if a.isZero then (0, xs.map fun x => if x.isNaN then 0x7F else 0, flIf (xs.any Fp.isNaN) flNV)
    else
      let S0 := (max 0 (min (a.log2 - 8 + 127) 255)).toNat
      let r := fitScaleF xs ds rm 255 S0
      let es := List.zipWith (settleElemF r.1 fm) xs r.2
      (r.1, es.map fun e => (e.1 : Int), es.foldl (fun f e => f ||| e.2) 0#6)

/-- The integer q of DigitsFromReal (R58), with its sign, and the flags. -/
def digitsInt (x : Fp) (T : Int) (P : Nat) : Int × Fl :=
  match x with
  | .nan => (0, flNV)
  | .inf n => (if n then -(2 ^ P - 1) else 2 ^ P - 1, flSAT)
  | .fin n m e =>
    let q := roundInt m (e + P - 1 - T) 0 n 0
    let v : Dy := ⟨if n then -(q : Int) else q, T - P + 1⟩
    let fl := flIf (!v.eq x.dy) flNX
    let r : Nat × Fl := if q > 2 ^ P - 1 then (2 ^ P - 1, fl ||| flSAT) else (q, fl)
    (if n then -(r.1 : Int) else r.1, r.2)

/-- Digit j of P of a signed integer q of DigitsFromReal (R58). -/
def digitOf (q : Int) (P j : Nat) : Int :=
  if q.natAbs.testBit (P - 1 - j) then (if q < 0 then -1 else 1) else 0

/-- The exact value of the first digits of an element (R58): d[0] weighs 2^T. -/
def digitsValue (ds : List Int) (T : Int) : Dy :=
  (ds.foldl (fun (a : Dy × Int) d => (a.1.add ⟨d, a.2⟩, a.2 - 1)) (Dy.zero, T)).1

/-- RealFromDigits of R58. -/
def realFromDigits (ds : List Int) (T : Int) : Nat × Fl :=
  let v := digitsValue ds T
  roundToFormat fmtF32 v.isNeg v.m.natAbs v.e 0 0

/-- One level of the tree of R59: the first `w` values each combined with the one `w` further on. -/
def treeLevel {α : Type} (op : α → α → α × Fl) (w : Nat) (t : List α × Fl) : List α × Fl :=
  let rs := List.zipWith op (t.1.take w) (t.1.drop w)
  (rs.map Prod.fst, rs.foldl (fun f r => f ||| r.2) t.2)

/-- The six levels of R59 over 64 inputs: the one value left, and the flags. -/
def treeReduce {α : Type} (op : α → α → α × Fl) (t : List α) : List α × Fl :=
  [32, 16, 8, 4, 2, 1].foldl (fun t w => treeLevel op w t) (t, 0#6)

/-- One level of the scan of R60 at distance `d`. Lanes below `d` keep their values: they pass through no operation (log 63). -/
def scanLevel {α : Type} (op : α → α → α × Fl) (d : Nat) (t : List α × Fl) : List α × Fl :=
  let rs := List.zipWith op t.1 (t.1.drop d)
  (t.1.take d ++ rs.map Prod.fst, rs.foldl (fun f r => f ||| r.2) t.2)

/-- The six levels of R60. -/
def treeScan {α : Type} (op : α → α → α × Fl) (t : List α) : List α × Fl :=
  [1, 2, 4, 8, 16, 32].foldl (fun t d => scanLevel op d t) (t, 0#6)

/-- The round constants of R62: A, B and C for j = 0 to 9. -/
def mixRounds : List (Nat × Nat × W32) :=
  [(13, 10, 0x2D4B17A3#32), (7, 18, 0x71C60E5D#32), (17, 6, 0xB39A4F18#32), (9, 14, 0x0E87D2C6#32),
   (21, 3, 0x5F219B74#32), (5, 23, 0xC6D43A0F#32), (11, 12, 0x1A6FE851#32), (19, 16, 0x84B2706D#32),
   (8, 20, 0xE93D15B8#32), (15, 4, 0x47E8C92A#32)]

/-- The four words the generator carries from round to round, and the round number. -/
structure MixState where
  j  : Nat
  x0 : W32
  x1 : W32
  x2 : W32
  x3 : W32
deriving DecidableEq, Repr

/-- Word j of a key (R62). -/
def keyWord (key : BitVec 128) (j : Nat) : W32 := key.extractLsb' (32 * (j % 4)) 32

/-- One round of R62. -/
def mixRound (key : BitVec 128) (t : MixState) (r : Nat × Nat × W32) : MixState :=
  let x0 := t.x0 + t.x1 + keyWord key t.j
  let x3 := (t.x3 ^^^ x0).rotateLeft r.1
  let x2 := t.x2 + x3 + r.2.2
  let x1 := (t.x1 ^^^ x2).rotateLeft r.2.1
  ⟨t.j + 1, x1, x2, x3, x0⟩

/-- Mix of R62: four output words. -/
def mix (key : BitVec 128) (c : Word) (s : W32) : List W32 :=
  let t := mixRounds.foldl (mixRound key) ⟨0, c.extractLsb' 0 32, c.extractLsb' 32 32, s, 0x5B3C19E4#32⟩
  [t.x0 ^^^ keyWord key 0, t.x1 ^^^ keyWord key 1, t.x2 ^^^ keyWord key 2, t.x3 ^^^ keyWord key 3]

/-- DrawWords of R63: n words from counter c. -/
def drawWords (key : BitVec 128) (s : W32) (c : Word) (n : Nat) : List W32 :=
  ((List.range ((n + 3) / 4)).flatMap fun i => mix key (c + BitVec.ofNat 64 i) s).take n

/-- The integer square root by one bit at a time from bit `k`. -/
def isqrtFrom (x : Nat) : Nat → Nat → Nat
  | 0, r => if (r + 1) * (r + 1) ≤ x then r + 1 else r
  | k + 1, r => isqrtFrom x k (if (r + 2 ^ (k + 1)) * (r + 2 ^ (k + 1)) ≤ x then r + 2 ^ (k + 1) else r)

/-- The greatest r with r × r ≤ x. -/
def isqrt (x : Nat) : Nat := if x = 0 then 0 else isqrtFrom x (x.log2 / 2 + 1) 0

/-- Fraction bits the approximations of R151 carry before their one rounding. -/
def approxBits : Nat := 128

/-- 2^(f ÷ 2^64) × 2^128 for f < 2^64, rounded down at each of its 64 steps: the product of the roots
2^(2^−i) for the one bits of f from the top. -/
def exp2Frac (f : Nat) : Nat :=
  ((List.range 64).foldl
    (fun (t : Nat × Nat) i =>
      let root := isqrt (t.1 <<< approxBits)
      (root, if f.testBit (63 - i) then (t.2 * root) >>> approxBits else t.2))
    (2 <<< approxBits, 1 <<< approxBits)).2

/-- 2^x as m × 2^e, an odd m marking a value that is not exact (R151). -/
def exp2Real (x : Dy) : Nat × Int :=
  if x.multipleOf 0 then (1, x.floor)
  else if x.abs.lt ⟨1, -40⟩ then
    -- between 1 − 2^−40 and 1 + 2^−40, on the side of the sign
    (if x.isNeg then 2 ^ 41 - 1 else 2 ^ 41 + 1, -41)
  else
    let k := x.floor
    let f := ((x.sub (Dy.ofInt k)).at (-64)).toNat
    (2 * exp2Frac f + 1, k - approxBits - 1)

/-- The first `n` bits of log2 of m ÷ 2^220 for m in [2^220, 2^221), by repeated squaring. -/
def log2Frac : Nat → Nat → Nat → Nat
  | 0, _, acc => acc
  | n + 1, m, acc =>
    let s := (m * m) >>> 220
    if s ≥ 2 ^ 221 then log2Frac n (s >>> 1) (2 * acc + 1) else log2Frac n s (2 * acc)

/-- log2 x for a positive x that is not a power of two, as a real with a set low bit past the 96 computed
ones (R151). -/
def log2Real (m : Nat) (e : Int) : Dy :=
  let L := m.log2
  let fr := log2Frac 96 (shiftNat m (220 - (L : Int))) 0
  ⟨2 * (((L : Int) + e) * 2 ^ 96 + fr) + 1, -97⟩

/-- Approx of R151: one rounding to A16, results below the smallest normal becoming zero. -/
def approx (neg : Bool) (m : Nat) (e : Int) : Nat × Fl :=
  if m = 0 then (0, 0#6) else
  let r := roundToFormat fmtA16 neg m e 0 0
  let r := if fpBelowNormal fmtA16 r.1 then (fpSignBit fmtA16 neg, r.2 ||| flUF ||| flNX) else r
  (r.1 <<< 8, r.2)

/-- VEXP2, VLOG2, VRCP, VRSQ. -/
inductive Approx where
  | exp2 | log2 | rcp | rsq
deriving DecidableEq, Repr

/-- The four function approximations of R151 on an FP32 encoding. -/
def fpApprox (k : Approx) (fm b : Nat) : Nat × Fl :=
  let b := flushIn fmtF32 fm b
  let nan := fpNaN fmtF32
  match k, fpDecode fmtF32 b with
  | _, .nan => (nan, nvSignalling fmtF32 [b])
  | .exp2, .inf n => (if n then 0 else fpInf fmtF32 false, 0#6)
  | .exp2, .fin n m e =>
    let x := (Fp.fin n m e).dy
    -- past ±1,024 the result overflows, or is below 2^−126, whatever the fraction
    if x.lt ⟨-1024, 0⟩ then approx false 1 (-1024)
    else if (Dy.mk 1024 0).lt x then approx false 1 1024
    else let y := exp2Real x; approx false y.1 y.2
  | .log2, .inf n => if n then (nan, flNV) else (fpInf fmtF32 false, 0#6)
  | .log2, .fin n m e =>
    if m = 0 then (fpInf fmtF32 true, flDZ)
    else if n then (nan, flNV)
    else if m = 2 ^ m.log2 then
      let y : Int := (m.log2 : Int) + e
      approx (decide (y < 0)) y.natAbs 0
    else let y := log2Real m e; approx y.isNeg y.m.natAbs y.e
  | .rcp, .inf n => (fpSignBit fmtF32 n, 0#6)
  | .rcp, .fin n m e =>
    if m = 0 then (fpInf fmtF32 n, flDZ)
    else
      let q := 2 ^ 80 / m
      approx n (2 * q + if q * m = 2 ^ 80 then 0 else 1) (-e - 81)
  | .rsq, .inf n => if n then (nan, flNV) else (0, 0#6)
  | .rsq, .fin n m e =>
    if m = 0 then (fpInf fmtF32 n, flDZ)
    else if n then (nan, flNV)
    else
      -- an even exponent, then 2^120 ÷ √M from the square root of 2^240 ÷ M
      let M := if e % 2 = 0 then m else 2 * m
      let E := if e % 2 = 0 then e else e - 1
      let q := isqrt (2 ^ 240 / M)
      approx false (2 * q + if q * q * M = 2 ^ 240 then 0 else 1) (-(E / 2) - 121)

end Sys2Proof.Machine
end

