-- ==== Sys2Proof/Machine/State.lean ====
section
/-! DEFINITION. The state of one BV9-M512 module as plain data: contexts, cores, clusters, dies, the package,
the fabric endpoint and memory. Every field names the rule of spec/ that gives it; reset values the manual
does not give are those of notes/assumptions/6.md. -/

namespace Sys2Proof.Machine

/-- Why the machine stops. No rule of the manual stops the whole module: every fault of R211 is taken by a
context. -/
inductive Fault where
  /-- Raised by no meaning: an access to a physical address that R337 does not list completes its transfer
  with page-format instead. Safe. -/
  | noSuchAddress
deriving DecidableEq, Repr

/-- Why the model gives an instruction no meaning. -/
inductive Refusal where
  /-- Raised by an arm of exec that has no meaning yet. Safe. -/
  | notModelled (mnemonic : String)
deriving DecidableEq, Repr

/-! ### Registers of a context -/

/-- The register files of R9, by physical index (R10). -/
structure Regs where
  s : Vector Word 32 := Vector.replicate 32 0
  p : Vector Bool 8 := (Vector.replicate 8 false).set 0 true
  m : Vector Word 8 := (Vector.replicate 8 0).set 0 (BitVec.allOnes 64)
  v : Vector Lanes 32 := Vector.replicate 32 (List.replicate 64 0)
  k : Vector Word 64 := Vector.replicate 64 0
deriving DecidableEq, Repr

/-- A window descriptor: word 0 and word 1 (R26). -/
structure Win where
  w0 : Word := 0
  w1 : Word := 0
deriving DecidableEq, Repr

/-- The system registers of R12 to R24, R68. CTXSTAT is held by its fields; CTX is the context's index and
STATE reads 1 to the context itself (R17). -/
structure Sys where
  brconf  : Bool := false
  wconf   : Bool := false
  coll    : Bool := false
  esat    : Bool := false
  gang    : Bool := false
  prot    : Bool := false
  intrap  : Bool := false
  priv    : Bool := false
  epc     : W32 := 0
  cause   : W32 := 0
  faddr   : BitVec 55 := 0
  wid     : Word := 0
  taskid  : Word := 0
  flags   : Fl := 0
  rmode   : BitVec 3 := 0
  fmode   : BitVec 2 := 0
  ecnt    : BitVec 48 := 0
  eres    : BitVec 4 := 0
  stream  : W32 := 0
  seed    : BitVec 8 := 0
  rcnt    : Word := 0
  seedsel : BitVec 10 := 0
  lc      : W32 := 0
  nstg    : BitVec 3 := 0
  rot     : BitVec 4 := 0
  strv0   : Word := 0
  strv1   : Word := 0
  strl0   : Word := 0
  strl1   : Word := 0
  strx    : Word := 0
  wins    : Vector Win 8 := Vector.replicate 8 {}
deriving DecidableEq, Repr

/-- The current operation of a sticky slot: its syllable and the literal word it captured (R79, R82). The NOP
of R90 is the operation of opcode 0. -/
structure Cur where
  word : W32 := 0
  lit  : W32 := 0
deriving DecidableEq, Repr

/-- A destination register of a result: FILE and REG of R216, a system register by its R15 number. -/
inductive Dest where
  | s (i : Fin 32)
  | p (i : Fin 8)
  | m (i : Fin 8)
  | v (i : Fin 32)
  | k (i : Fin 64)
  | sr (n : Nat)
deriving DecidableEq, Repr

/-- A result in flight (R83), and a chest entry (R216), whose OFF is `left`: it lands at the end of the clk in
which `left` is 1. Slot 8 ranks the loop-end update above every slot (R112). -/
structure Landing where
  left  : Nat
  slot  : Nat
  ord   : Nat
  dest  : Dest
  word  : Word
  vec   : Lanes
  lanes : Word
  flags : Fl
deriving DecidableEq, Repr

/-- Where an access's result goes when it performs: to the registers, to the freeze chest image or to the
trap chest image (R166, R214). -/
inductive Capture where
  | live | freeze | trap
deriving DecidableEq, Repr

/-- The kinds of static-domain access (R249); XSTAT and XPCNT read at the end of their issue clk (R310, R417). -/
inductive AccKind where
  | vld | vst | sld | sst | sldd | sstd | vlds | vsts | vldg | vstg | vldm | vstm
  | aadd | aaddF | amin | amax | axchg | acas | pfxld
  | msmx | copyRead | copyWrite | xstat | xpcnt
deriving DecidableEq, Repr

/-- A static-domain access in flight (R159): what it captured at issue, the clk left until it performs, and
the clk left until its result lands. -/
structure Access where
  kind  : AccKind
  core  : Nat
  ctx   : Nat
  slot  : Nat
  ord   : Nat
  left  : Nat
  land  : Nat
  keep  : Capture
  port  : Nat
  win   : Win
  elem  : Int
  step  : Int
  index : Lanes
  data  : Lanes
  arg   : Word
  arg2  : Word
  mask  : Word
  rm    : Nat
  fm    : Nat
  dest  : Dest
  dest2 : Dest
  x     : Xid
  msmx  : List (Nat × List Int)
deriving DecidableEq, Repr

/-- A bundle whose issues are under way: the index of the next issue, the registers and windows as they stood
at its first issue (R101, R160), and the bases its L slots have stepped to (R80). -/
structure Run where
  bundle : Bundle
  r      : Nat
  regs   : Regs
  wins   : Vector Win 8
  base0  : Word
  base1  : Word
deriving DecidableEq, Repr

/-- A trap to take: its code and FADDR (R211), the slot CAUSE names, if it names one
(R19), and the transfer whose fault record it takes, if it takes one (R117, R121). -/
structure Trap where
  code  : Nat
  faddr : Nat := 0
  slot  : Option Nat := none
  taken : Option Xid := none
deriving DecidableEq, Repr

/-- An open index sequence (R300): the gather or scatter it belongs to and how many XIDX have pushed. -/
structure IndexSeq where
  x      : Xid
  n      : Nat
  pushed : Nat
deriving DecidableEq, Repr

/-- The bind record and bind extension (R273, R274), by field. WID, TASKID, PRIV, PROT and GANG of the record
are loaded into the context (R276). -/
structure Bind where
  wid      : Word := 0
  taskid   : Word := 0
  startscc : Word := 0
  quant    : BitVec 16 := 0
  ebud     : BitVec 48 := 0
  v        : Bool := false
  prio     : BitVec 3 := 0
  priv     : Bool := false
  prot     : Bool := false
  cls      : BitVec 2 := 0
  reex     : Bool := false
  vbnd     : Bool := false
  gang     : Bool := false
  tline    : BitVec 5 := 0
  gangid   : BitVec 16 := 0
  gsize    : BitVec 9 := 0
  gmem     : BitVec 9 := 0
  ctx      : BitVec 2 := 0
  core     : BitVec 4 := 0
  rsm      : Bool := false
  rsv4     : BitVec 7 := 0
  chkn     : BitVec 16 := 0
  tiles    : BitVec 8 := 0
  mgrant   : Bool := false
  rsv5     : BitVec 7 := 0
  pc       : W32 := 0
  ext      : BitVec 24 := 0
  rsv6     : BitVec 40 := 0
  rsv7     : Word := 0
  wins     : Vector Win 8 := Vector.replicate 8 {}
  lres     : Vector Word 4 := Vector.replicate 4 0
  tvec     : W32 := 0
  save     : BitVec 55 := 0
  asid     : BitVec 16 := 0
  map      : Vector W32 32 := Vector.replicate 32 0
  dimg     : BitVec 55 := 0
  dlen     : BitVec 19 := 0
  doff     : BitVec 18 := 0
  rsvx     : Bool := false
deriving DecidableEq, Repr

/-- Why a frozen context stands (R213, R372, R277, R279); `gang`: because another member of its gang took a trap (R218). -/
inductive Freeze where
  | none | request | trap | park | preempt | hold | gang
deriving DecidableEq, Repr

/-- One context (R9 to R33, R103, R196 to R220, R257, R300). -/
structure Ctx where
  regs    : Regs := {}
  sys     : Sys := {}
  pc      : W32 := 0
  lsa     : W32 := 0
  lsk     : Bool := false
  ppriv   : Bool := false
  plsk    : Bool := false
  cur     : Vector Cur 5 := Vector.replicate 5 {}
  tcur    : Vector Cur 5 := Vector.replicate 5 {}
  land    : List Landing := []
  chest   : List Landing := []
  tchest  : List Landing := []
  reload  : Bool := false
  treload : Bool := false
  second  : Option (BitVec 10) := none
  bound   : Bool := false
  started : Bool := false
  frozen  : Freeze := .none
  wantF   : Option Freeze := none
  boundary : Nat := 0
  resumeIn : Option Nat := none
  report  : Option Trap := none
  /-- The slot of the TEND that has acted (R121). -/
  ended   : Option Nat := none
  /-- Clk until the trap chest image is complete and stands in the save area (R209, R214). -/
  tsaveIn : Option Nat := none
  wait    : List Word := []
  region  : Bool := false
  arrived : Bool := false
  release : Option Nat := none
  stepBk  : Bool := false
  run     : Option Run := none
  ord     : Nat := 0
  dead    : Nat := 0
  sets    : BitVec 4 := 0
  fsets   : Fl := 0
  charge  : Nat := 0
  chargeM : Nat := 0
  mirror  : Bool := false
  armed   : Bool := false
  chkn    : BitVec 16 := 0
  chkcnt  : BitVec 16 := 0
  seq     : Option IndexSeq := none
  bind    : Bind := {}
  boundAt : Nat := 0
  saveIn  : Option Nat := none
deriving DecidableEq, Repr

/-! ### The core -/

/-- A row of an accumulator tile (R46, R188). -/
structure Row where
  e     : Int := 0
  unset : Bool := false
  m     : List Int := List.replicate 64 0
  max   : W32 := 0xFF800000#32
  sum   : W32 := 0
deriving DecidableEq, Repr

/-- An accumulator tile (R188), and its XMVB shadow when one stands (R361). -/
structure Tile where
  rows   : List Row := List.replicate 64 {}
  loss   : Nat := 0
  log    : Vector Word 16 := Vector.replicate 16 0
  nseq   : BitVec 16 := 0
  ovf    : Bool := false
  chkerr : Bool := false
  check  : Word := 0
deriving DecidableEq, Repr

/-- A nest table (R180): four registers of six levels each, and the six registers from 0x20. -/
structure NestTab where
  cnt   : Vector (BitVec 16) 6 := Vector.replicate 6 1
  sta   : Vector W32 6 := Vector.replicate 6 0
  stb   : Vector W32 6 := Vector.replicate 6 0
  stc   : Vector (BitVec 4) 6 := Vector.replicate 6 0
  abase : W32 := 0
  bbase : W32 := 0
  pitch : W32 := 0
  bt    : Bool := false
  fa    : BitVec 2 := 2
  fb    : BitVec 2 := 2
  tgt   : BitVec 3 := 0
  psh   : BitVec 5 := 0
  half  : Bool := false
deriving DecidableEq, Repr

/-- A step whose operands have been read and whose rows are still to be updated (R185): the values of R183 by
row. -/
structure StepVals where
  left : Nat
  step : Nat
  tile : Int
  rows : List (List Dy)
deriving DecidableEq, Repr

/-- A nest that has been issued and has not ended (R182, R185, R194, R197): `wait` clk to the next read, `remain` to
the end, `array` of the array's time (R186). -/
structure Nest where
  ctx     : Nat
  tab     : NestTab
  winA    : Win
  winB    : Win
  next    : Nat
  wait    : Nat
  remain  : Nat
  array   : Nat
  rotate  : Bool
  mirror  : Bool
  frozen  : Bool
  /-- The clk in hand is the last before the nest stands. -/
  stopping : Bool
  vals    : List StepVals
  sums1   : List W32
  sums2   : List W32
deriving DecidableEq, Repr

/-- A row that a tile instruction writes: its exponent and mantissas, when it changes them, and its side registers,
when it changes those. -/
structure RowWrite where
  row  : Nat
  val  : Option (Int × List Int)
  side : Option (W32 × W32)
deriving DecidableEq, Repr

/-- What a tile instruction does when it lands (R199). -/
inductive TileOp where
  | init (e : Int) (unset : Bool)
  | rows (ws : List RowWrite) (ovf : Bool) (loss : Nat) (flags : Fl)
  | apply (row : Nat) (x : List Dy)
  | mlo (row : Nat) (x : Lanes)
  | mhi (row : Nat) (x : Lanes)
  | clearLoss
deriving DecidableEq, Repr

/-- A tile instruction in flight, and the context that issued it. -/
structure TileWrite where
  left : Nat
  ctx  : Nat
  tile : Nat
  op   : TileOp
deriving DecidableEq, Repr

/-- A registration of a transfer on a tile (R191): its units are counted as they apply. -/
structure Registration where
  tile  : Nat
  x     : Xid
  ctx   : Nat
  total : Nat
  done  : Nat
  after : Nat
deriving DecidableEq, Repr

/-- A channel (R282). -/
structure Channel where
  nid : W32 := 0
  wm  : W32 := 0
  done : List W32 := []
  /-- Complete transfers that WM has not passed, with their TASKID (R362). -/
  whose : List (W32 × Word) := []
deriving DecidableEq, Repr

/-- The phases of a transfer: held for its tokens, at work, performed, complete (R284, R289). -/
inductive Phase where
  | held | started | waiting | done
deriving DecidableEq, Repr

/-- One end of a transfer: element i of the end is element `off + i` of a region at byte `base`, physical for a window and
virtual otherwise. FMT 16 is a raw width. -/
structure Area where
  virt   : Bool
  base   : Nat
  off    : Int
  bits   : Nat
  fmt    : Nat
  geo    : Nat
  pitch  : Nat
  shadow : Nat
  len    : Nat
deriving DecidableEq, Repr

/-- A masked byte an engine writes: the block it belongs to, its address in the end's own space, mask and value. -/
structure Cell where
  block : Option Nat
  scale : Bool
  addr  : Nat
  mask  : Nat
  val   : Nat
deriving DecidableEq, Repr

/-- A transfer in flight (R283 to R311, R354 to R362, R384, R408 to R420): the syllable and operands captured in
its issue clk, the windows it was issued under, and how far it has come. -/
structure Xfer where
  op     : Instr
  x      : Xid
  core   : Nat
  ctx    : Nat
  asid   : Nat
  wid    : Word
  taskid : Word
  lit    : W32
  /-- The consumed tokens, as read at issue. -/
  uses   : List Word
  bulk   : Bool
  /-- Word 0 onwards of its record, command block or descriptor, as read at issue. -/
  recd   : List Word
  /-- s(a), s(a + 1), … as read at issue. -/
  args   : List Word
  /-- The lane values of XREDV, as read at issue. -/
  vec    : Lanes
  wins   : Vector Win 8
  /-- A static-domain copy (R299). -/
  fixed  : Bool
  phase  : Phase := .held
  /-- SCC and issue order of the issue clk. -/
  since  : Nat
  ord    : Nat
  /-- WCC of the issue clk. -/
  issued : Nat := 0
  /-- The transfers and accesses an XFENCE waits for (R311). -/
  after  : List Xid := []
  /-- Pieces, rows or lanes that have performed. A line of a row that has not wholly performed counts as 64 × (its number + 1) + the
  row. -/
  pieces : List Nat := []
  /-- Bytes read and held: the source of a static-domain copy, the hutch buffer. -/
  buf    : List Byte := []
  /-- The indices pushed by XIDX (R300). -/
  index  : List Word := []
  /-- The command block at work and how many blocks are done (R306). -/
  block  : Word := 0
  nblk   : Nat := 0
  /-- The value an arrival, atomic or request found. -/
  found  : Word := 0
  /-- The element, row or lane a resumed transfer goes on from (R348, R349). -/
  rp     : Nat := 0
  err    : Option (Nat × Nat) := none
  /-- The number of the last retained-wait round (R374). -/
  round  : Nat := 0
  waitAt : Nat := 0
  /-- Lines of a peer that have been read, by physical address (R399). -/
  got    : List (Nat × List Byte) := []
  /-- Pieces sent to a peer and not yet answered. -/
  sent   : List Nat := []
  /-- The transfer was cut (R375). -/
  cut    : Bool := false
  /-- The scalar register that s(a + 3) named at issue, of an operation whose result lands with its token (R79). -/
  late   : Fin 32 := 0
  /-- The bytes performed before its error (R286, R348). -/
  bytes  : Nat := 0
  /-- The resumption point of an error, while writes sent before it await their answers (R348). -/
  failRp : Nat := 0
  /-- The command blocks of a chain that were read at issue, by their copy addresses (R291). -/
  blocks : List (Word × List Word) := []
  /-- The destination of a result in hand, the cells of it still to perform, and those that commit it after all of these (R290,
  R302). -/
  dst    : Option Area := none
  out    : List Cell := []
  commit : List Cell := []
  /-- The header of a compressed object as read (R302, R303). -/
  head   : List Byte := []
deriving DecidableEq, Repr

/-- A fault record of a transfer (R286, R347): the transfer as it stood, and whether a KWAIT trap or a TEND
report has taken the record. -/
structure FaultRec where
  xf    : Xfer
  code  : Nat
  faddr : Nat
  taken : Bool
deriving DecidableEq, Repr

/-- An entry of the pending-range table (R292): physical bytes `lo` to `hi − 1`. -/
structure Pending where
  lo : Nat
  hi : Nat
  x  : Xid
deriving DecidableEq, Repr

/-- A breakpoint register (R230). -/
structure Bkpt where
  en   : Bool := false
  any  : Bool := false
  ctxn : BitVec 2 := 0
  addr : BitVec 30 := 0
deriving DecidableEq, Repr

/-- A collective status entry (R417). -/
structure Cst where
  word : Word := 0
  live : Bool := false
  /-- The channel of the identifier. -/
  ch   : Nat := 0
deriving DecidableEq, Repr

/-- A place of a core whose parity is in error (R363): a register of a context, an accumulator tile, a context's chest, a word of the
instruction store by its byte address; and a defective processing element of the array, 64 × row + column (R197). -/
inductive Upset where
  | reg (ctx : Nat) (d : Dest)
  | tile (t : Nat)
  | chest (ctx : Nat)
  | istore (addr : Nat)
  | pe (n : Nat)
deriving DecidableEq, Repr

/-- One core (R69, R87, R89, R176 to R206, R230, R232, R282 to R292, R347, R349, R417). -/
structure Core where
  ctxs   : Vector Ctx 4 := Vector.replicate 4 {}
  holder : Option (Fin 4) := none
  last   : Fin 4 := 3
  ran    : Bool := false
  wait   : Nat := 0
  istore : Memory := []
  tiles  : Vector Tile 8 := Vector.replicate 8 {}
  shadow : NestTab := {}
  active : NestTab := {}
  nests  : List Nest := []
  twr    : List TileWrite := []
  regn   : List Registration := []
  mvshadow : Table Tile := []
  arrq   : List ArrUnit := []
  retry  : List ArrUnit := []
  /-- Queued units that stand in the save area of a task that has left, which their transfer units still count (R194, R220). -/
  away   : List ArrUnit := []
  chans  : Vector Channel 8 := Vector.replicate 8 {}
  xfers  : List Xfer := []
  faults : List FaultRec := []
  resume : Word := 0
  pend   : List Pending := []
  bkpts  : Vector Bkpt 4 := Vector.replicate 4 {}
  cst    : Vector Cst 16 := Vector.replicate 16 {}
  ewt    : Vector (BitVec 16) 16 := Vector.replicate 16 0
  spwr   : BitVec 16 := 0
  icnt   : BitVec 48 := 0
  ires   : BitVec 4 := 0
  /-- The places whose parity is in error (R363). -/
  upsets : List Upset := []
  /-- The MODEL's own: the parts of the clk in hand that have been done: issue, nest reads, nest updates, the arrival
  unit, the charge (log 2). -/
  did    : BitVec 5 := 0
  /-- The MODEL's own: the bundle and the issue of it that issued in the clk in hand (R226). -/
  issued : Option (W32 × Nat) := none
  /-- The MODEL's own: the context that holds issue in the clk in hand (R234). -/
  payer  : Option (Fin 4) := none
deriving DecidableEq, Repr

/-- A third run (R228): the member of its task that disagreed, the original pair with its mismatch record, and whose launch it is. -/
structure ThirdRun where
  gmem   : Nat
  pair   : Nat
  lead   : W32
  trail  : W32
  nc     : Nat
  lnum   : Nat
  wid    : Word
  taskid : Word
deriving DecidableEq, Repr

/-- The trailing core's own computation, where a fault of one core's array makes it differ (R225): the leading core as it stood at the
end of the last clk, the trailing one as it stood then, and the accesses that it has issued. -/
structure Trail where
  lead : Core
  own  : Core
  acc  : List Access
deriving DecidableEq, Repr

/-- The state of a core pair (R224 to R229). -/
structure Pair where
  prot    : Bool := false
  csig    : W32 := 0xFFFFFFFF#32
  csigT   : W32 := 0xFFFFFFFF#32
  /-- CSIG of the leading core at the clk that the trailing core has reached. -/
  csigL   : W32 := 0xFFFFFFFF#32
  /-- The leading core's CSIG and commit record of each clk that the trailing core has still to reach. -/
  lag     : List (W32 × List Byte) := []
  nc      : Nat := 0
  /-- The mismatch record: both CSIG values and NC (R227). -/
  vote    : Option (W32 × W32 × Nat) := none
  score   : Nat := 0
  quar    : Bool := false
  /-- WCC since which the pair has served without a mismatch, or its score last fell (R229). -/
  since   : Nat := 0
  /-- What the leading core's clk in hand has landed and written so far, for its commit record (R226). -/
  lands   : List Landing := []
  perf    : List Byte := []
  /-- A third run is on this pair (R228). -/
  watch   : Option ThirdRun := none
  /-- CSIG of the third run after NC commits. -/
  seen    : Option W32 := none
  /-- The trailing core's computation; none: it is the leading core's. -/
  trail   : Option Trail := none
deriving DecidableEq, Repr

/-! ### The issue frame -/

/-- The issue in hand: which context issues, what the syllable's literals and operands are, and what its
bundle has asked for so far (R79, R86, R118 to R121). -/
structure Frame where
  core  : Nat := 0
  ctx   : Fin 4 := 0
  lits  : List W32 := []
  cap   : Option W32 := none
  next  : W32 := 0
  tmpl  : BitVec 4 := 0
  reps  : Nat := 1
  fresh : Bool := true
  snap  : Option (Regs × Vector Win 8) := none
  base  : Option Word := none
  branch : Option W32 := none
  loop  : Bool := false
  trap  : Option (Nat × Nat) := none
  eret  : Bool := false
  yield : Bool := false
  tend  : Option Nat := none
  draw  : Option (Word × Nat × Nat) := none
  copies : List (Nat × Nat) := []
  bulk  : Nat := 0
  other : Nat := 0
deriving DecidableEq, Repr

/-! ### The die and the module -/

/-- What an access or delivery writes in its perform clk: bytes under bit masks, and the key of the block when a
whole block is rewritten (R158, R244, R251). -/
structure Put where
  port  : Nat
  core  : Nat
  ctx   : Nat
  block : Option Nat
  cells : List (Nat × Nat × Nat)
deriving DecidableEq, Repr

/-- A token-domain delivery into on-die SRAM (R252): bytes, an arrival at a barrier object (R253), or the addition of a POST to a word
(R419). -/
inductive Delivery where
  | bytes (x : Xid) (p : Put)
  | arrive (x : Xid) (port core ctx addr : Nat) (inc : Option Word)
deriving DecidableEq, Repr

/-- A seed-log entry (R65). -/
structure SeedEntry where
  key    : BitVec 128 := 0
  issue  : Word := 0
  core   : BitVec 12 := 0
  ctxn   : BitVec 2 := 0
  asid   : BitVec 16 := 0
  valid  : Bool := false
  origin : BitVec 2 := 0
deriving DecidableEq, Repr

/-- A page or block that a walk found (R341): `size` bytes from virtual address `va` on. -/
structure Mapping where
  va   : Nat
  size : Nat
  pa   : Nat
  fmt  : Nat
  geo  : Nat
  rd   : Bool
  wr   : Bool
  cd   : Bool
deriving DecidableEq, Repr

/-- A cached translation of a cluster, or of the die's store when `cluster` is 24 (R345). -/
structure TlbEntry where
  cluster : Nat
  asid    : Nat
  map     : Mapping
deriving DecidableEq, Repr

/-- An entry of a port's write queue (R353): the reductions of one operation on one 64-byte line, each a byte
address and an operand, in the order accepted. -/
structure QueueLine where
  line : Nat
  op   : Nat
  ops  : List (Nat × Nat)
deriving DecidableEq, Repr

/-- A park's progress (R371, R373): frozen in its grace, at retention, or unparked with no context of it yet issuing. -/
inductive ParkPhase where
  | none | grace | retained | unparking
deriving DecidableEq, Repr

/-- One die (R25, R254, R338, R345, R346, R352, R353, R363, R364, R367, R370, R371, R271). -/
structure Die where
  scc     : Word := 0
  held    : Bool := false
  acc     : List Access := []
  deliv   : List Delivery := []
  tlb     : List TlbEntry := []
  tinv    : Word := 0
  queue   : List QueueLine := []
  park    : ParkPhase := .none
  hold    : Nat := 0
  /-- Clk of the window of 64 in hand that have passed, and the hold clk among them (R370). -/
  winClk  : Nat := 0
  winHeld : Nat := 0
  /-- The MODEL's own: the accesses and deliveries of the clk in hand have performed (log 2). -/
  performed : Bool := false
  /-- Corrected HBM errors, each count with the WCC of its report (R363, R393). -/
  errs    : List (Nat × Nat) := []
  /-- Rows that gave an uncorrectable error in the patrol period that `patrol` numbers (R364). -/
  badRows : List Nat := []
  patrol  : Nat := 0
  retired : List Nat := []
  /-- The gang that holds the die's reservation: its cluster and queue entry. -/
  reserved : Option (Nat × Nat) := none
deriving DecidableEq, Repr

/-- The statuses of a slot-table entry (R276). -/
inductive SlotStatus where
  | empty | loading | waitstart | running | refused | frozen | ended
deriving DecidableEq, Repr

/-- A slot-table entry (R273, R276): the bind record as written, the status word, the SCC of the GO write, and the
queue entry it serves. -/
structure Slot where
  recd   : Vector Word 8 := Vector.replicate 8 0
  dst    : SlotStatus := .empty
  reason : Nat := 0
  goScc  : Nat := 0
  /-- The queue entry it serves: its cluster and index. -/
  entry  : Option (Nat × Nat) := none
deriving DecidableEq, Repr

/-- The states of a task-queue entry (R268). -/
inductive EntryState where
  | free | ready | claimed | stealing | bound | held | done
deriving DecidableEq, Repr

/-- Where a frozen task or gang member last ran, and what Vizin keeps of it for its resume (R218, R221, R248, R279):
its member number, the first SCC after its boundary, its energy, whether it was inside a gang-timed region, its bind
record's reservations and windows, the code pages that were mapped, and the slot of a TEND that has acted. -/
structure Home where
  core   : Nat
  ctx    : Nat
  gmem   : Nat
  bound  : Nat
  ecnt   : Nat
  region : Bool
  lres   : List Word
  wins   : List Win
  pages  : List Nat
  ended  : Option Nat
deriving DecidableEq, Repr

/-- A task-queue entry (R268); `gid` is the base member's place for the entry of a bound gang. -/
structure QueueEntry where
  gen   : BitVec 16 := 0
  owner : Nat := 0
  st    : EntryState := .free
  wid   : Word := 0
  lnum  : Nat := 0
  node  : Nat := 0
  prio  : Nat := 0
  gang  : Bool := false
  vbnd  : Bool := false
  rsm   : Bool := false
  mig   : Bool := false
  prot  : Bool := false
  enq   : Nat := 0
  save  : Nat := 0
  /-- Members bound and not yet completed. -/
  live  : Nat := 0
  /-- WCC since which the entry has been at the head of its order. -/
  head  : Option Nat := none
  /-- Where its frozen members last ran. -/
  home  : List Home := []
  /-- ECNT of the save area, for the launch's spent energy (R279). -/
  saved : Nat := 0
  /-- SEEDIDX and RCNT that a restart at the commit point loads, by member number (R383). -/
  mark  : List (Nat × Word × Word) := []
  /-- Its next run is the third of R228. -/
  third : Option ThirdRun := none
deriving DecidableEq, Repr

/-- A walker at work on a TASK node (R267): the number of the next instance to look at, in ascending identifier order. -/
structure Walk where
  lnum : Nat
  node : Nat
  next : Nat
deriving DecidableEq, Repr

/-- One cluster (R267, R268, R273): its slot table, its task queue, and its walker. -/
structure Cluster where
  slots : Table Slot := []
  queue : Table QueueEntry := []
  walk  : List Walk := []
  /-- The hutch buffer has a parity error (R306, R363). -/
  bufBad : Bool := false
deriving DecidableEq, Repr

/-- A graph node at work (R265): the iteration or arrival count, and the instances of a TASK's activation that have
not completed. -/
structure NodeState where
  count  : Nat := 0
  opened : Bool := false
  live   : Nat := 0
deriving DecidableEq, Repr

/-- The checkpoint protocol of a launch (R394, R395). -/
structure Ckpt where
  pol    : Word := 0
  n      : Nat := 0
  asked  : Option Nat := none
  last   : Nat := 0
  cost   : Option Nat := none
  missed : Nat := 0
  /-- Its tasks are frozen for a checkpoint, of this TAG. -/
  busy   : Option Word := none
deriving DecidableEq, Repr

/-- A launch (R259 to R267, R279 to R281): its record and graph as read at acceptance. -/
structure Launch where
  num     : Nat
  queue   : Option Nat
  /-- The XLAUNCH that submitted it, and its WAIT. -/
  issuer  : Option (Nat × Xid × Bool)
  recd    : List Word
  graph   : List Byte
  nodes   : Table NodeState := []
  /-- Nodes to activate. -/
  pending : List Nat := []
  ended   : Bool := false
  caphit  : Bool := false
  held    : Bool := false
  /-- Its restored state awaits acceptance (R396). -/
  waiting : Bool := false
  failed  : Option (Nat × Word × Word) := none
  /-- The host has aborted it: its record with status 5 has still to be written. -/
  aborted : Bool := false
  /-- Its record with status 3 has still to be written. -/
  due     : Bool := false
  budget  : Nat
  /-- Energy of completed tasks. -/
  spent   : Nat := 0
  wacc    : Nat
  ckpt    : Ckpt := {}
deriving DecidableEq, Repr

/-- A submission queue's registers (R262, R394). -/
structure SubQueue where
  base : Nat := 0
  size : Nat := 0
  tail : Nat := 0
  head : Nat := 0
  lbud : Nat := 0
  lost : Word := 0
  ckpol : Word := 0
  /-- SQBASE or SQSIZE changed while records stood in the ring. -/
  torn : Bool := false
deriving DecidableEq, Repr

/-- Where an S3 sequence stands (R369, R375, R377). -/
inductive S3Phase where
  | none | quiesce | drain | closed
deriving DecidableEq, Repr

/-- The power controller (R367 to R370, R439): the registers of R367 and the S3 sequence. -/
structure Power where
  reserve : Nat := 9600000
  rescap  : Nat := 9600000
  fixCost : Nat := 40000
  sealCost : Nat := 5000
  rate    : Nat := 1075
  st      : Nat := 0
  uv      : Bool := false
  pfw     : Bool := false
  shedN   : Nat := 8
  order   : Nat := 0x53977
  plimit  : Nat := 2400
  rwlim   : Nat := 600000
  rwint   : Nat := 100
  tlimit  : Nat := 105
  s3      : S3Phase := .none
  trig    : Nat := 0
  wccTrig : Nat := 0
  resTrig : Nat := 0
  /-- SEQ and HFIN of the last restored manifest (R390). -/
  seq     : Nat := 0
  hfin    : List Byte := []
  /-- WCC of supply events (R393, R394): PFW_N assertions, S2 entries, S3 entries, RAS launch failures. -/
  pfws    : List Nat := []
  s2s     : List Nat := []
  s3s     : List Nat := []
  ras     : List Nat := []
  /-- WCC of the last restore, and of the last cold start or scrub (R394). -/
  restoredAt : Option Nat := none
  coldAt  : Nat := 0
  /-- Vizin has reported that no manifest was restored (R381). -/
  unrestored : Bool := false
deriving DecidableEq, Repr

/-- A HIBLIST entry (R376). -/
structure HibEntry where
  w0 : Word := 0
  w1 : Word := 0
  w2 : Word := 0
deriving DecidableEq, Repr

/-- An entry that Vizin's resident routine added for a task, in the list it keeps (R432): the task's WID and TASKID, the entry's index
and the entry. -/
structure HibKept where
  wid    : Word
  taskid : Word
  index  : Nat
  entry  : HibEntry
deriving DecidableEq, Repr

/-- A restored launch awaiting acceptance (R396): the TAG and D of its state, the peers that have still to answer, and what a
peer at the same TAG holds instead. -/
structure RestoreCheck where
  lnum   : Nat
  tag    : Word
  digest : List Byte
  peers  : Nat
  other  : List Byte
  /-- The manifest's region records that the launch owns, by place. -/
  owned  : List Nat
  /-- WCC of the question, and whether the regions are being copied from a peer. -/
  asked  : Nat := 0
  copying : Bool := false
deriving DecidableEq, Repr

/-- Tenancy, attestation, bench test and RISK (R386 to R393, R396). -/
structure Tenancy where
  go      : Bool := false
  pend    : Bool := false
  phase   : Nat := 0
  err     : Nat := 0
  count   : W32 := 0
  nonce   : List Byte := List.replicate 32 0
  attbuf  : Nat := 0
  attgo   : Bool := false
  attdone : Bool := false
  /-- M_1 to M_6 as measured at reset; none listed: as the stored images measure. -/
  chain   : List (List Byte) := []
  /-- Stored firmware images and their versions, and those installed for the next reset. -/
  images  : List (List Byte) := List.replicate 6 []
  versions : List Nat := List.replicate 6 0
  newImages : Table (List Byte) := []
  benchgo : Bool := false
  benchdone : Bool := false
  benchabort : Bool := false
  benchnonce : List Byte := List.replicate 32 0
  benchbuf : Nat := 0
  /-- Chozo lanes that a bench test marked down (R392). -/
  lanes   : List Nat := []
  benchhash : List Byte := List.replicate 32 0
  /-- A launch has been accepted since the last scrub. -/
  used    : Bool := false
  unver   : Bool := false
  /-- The tenant SCM key of AES-256-XTS, under which the contents of SCM are held (R387). -/
  scmKey  : List (BitVec 256) := [0, 0]
  risk    : BitVec 16 := 0
  /-- Restored launches awaiting acceptance (R396). -/
  digests : List RestoreCheck := []
  /-- Which records of the manifests in SCM are regions that a launch owns: SEQ, launch number, place (R396). -/
  owned   : List (Nat × Nat × Nat) := []
deriving DecidableEq, Repr

/-- A flit in a port's queue (R398): its class, whether it is a header, and its bytes. -/
structure QueuedFlit where
  cls  : Nat
  hdr  : Bool
  flit : List Byte
deriving DecidableEq, Repr

/-- One Chozo port (R397, R398, R402): the registers of R402, the endpoint, and the units on the wire. -/
structure Port where
  st     : Nat := 0
  lsuseq : W32 := 0
  retry  : BitVec 24 := 0
  /-- LSEQ of the next unit sent. -/
  lseq   : BitVec 12 := 0
  /-- The last LSEQ received good. -/
  lack   : BitVec 12 := 0xFFF
  /-- Units are dropped until the replay arrives. -/
  dropping : Bool := false
  /-- A NAK came: the units from LACK + 1 are to be replayed. -/
  naked  : Bool := false
  /-- Replays in a row since the last unit was acknowledged. -/
  fails  : Nat := 0
  /-- The classes the other end has paused, and those that this end pauses (R398). -/
  pause  : BitVec 3 := 0
  pausing : BitVec 3 := 0
  /-- The retry buffer. -/
  buf    : List LinkUnit := []
  /-- Flits of packets not yet wholly received, by class. -/
  rx     : List QueuedFlit := []
  /-- The queues of the three classes to send, and packets that wait for room in them. -/
  outq   : List QueuedFlit := []
  wait   : List Packet := []
  /-- Control packets that have not been wholly acknowledged, oldest first (R403). -/
  ctl    : List Packet := []
  tx     : List LinkUnit := []
  errs   : Nat := 0
  /-- WCC of the last good unit (R397). -/
  heard  : Nat := 0
deriving DecidableEq, Repr

/-- A request that has been sent and not answered (R399, R401, R403): the port it left on, the drain round, the
piece and the virtual address it serves. -/
structure Sent where
  pkt   : Packet
  port  : Nat
  round : Nat
  piece : Nat
  va    : Nat
deriving DecidableEq, Repr

/-- A group entry (R407). -/
structure Group where
  v      : Bool := false
  gen    : Nat := 0
  asid   : Nat := 0
  n      : Nat := 0
  rank   : Nat := 0
  mlist  : Nat := 0
  step   : Nat := 0
  plane  : Nat := 0
  waitlim : Nat := 0
  coln   : Nat := 0
  /-- Steps of the collectives issued so far. -/
  steps  : Nat := 0
deriving DecidableEq, Repr

/-- The four collectives (R415). -/
inductive CollKind where
  | allReduce | reduceScatter | allGather | broadcast
deriving DecidableEq, Repr

/-- A collective at this member (R408 to R418): its descriptor by field, its place in the group's steps, and how far
its streams have come. A stream is keyed by its step within the collective × 65,536 + its tile; a plane is a 128-bit
integer, or the 64 FP32 words of a tile for OP 1 to 3. -/
structure Coll where
  core  : Nat
  x     : Xid
  kind  : CollKind
  /-- The GROUP value, and the number of the collective on it. -/
  group : Nat
  coln  : Nat
  /-- The number of its first step, less 1. -/
  base  : Nat
  n     : Nat
  rank  : Nat
  ne    : Nat
  p     : Nat
  op    : Nat
  fixe  : Bool
  acc   : Bool
  tfix  : Int
  sent  : Nat
  acct  : Nat
  row0  : Nat
  root  : Nat
  src   : Word
  dst   : Word
  stage : Word
  /-- The source has been read: its FP32 elements by tile. -/
  started : Bool := false
  own   : Table (List Nat) := []
  /-- e_t by rank × 65,536 + tile. -/
  exps  : Table Int := []
  /-- T by tile, once known, and the arriving streams with SAT and ERR. -/
  ts    : Table Int := []
  sat   : List Nat := []
  err   : List Nat := []
  /-- Planes that have arrived, and the C of a marker that has. -/
  inp   : Table (List Nat) := []
  cutIn : Table Nat := []
  /-- Planes sent and acknowledged; markers sent and acknowledged. -/
  out   : Table Nat := []
  acked : Table Nat := []
  marked : List Nat := []
  markAcked : List Nat := []
  /-- e of the tiles this owner has cut; a cut request has been taken. -/
  cutAt : Table Nat := []
  cutDone : Bool := false
  /-- The counter word written into a tile, by (0 destination, 1 staging) × 65,536 + tile; 1 for words of OP 1 to 3. -/
  landed : Table Nat := []
  /-- WCC at which its streams paused (R421). -/
  paused : Option Nat := none
  complete : Bool := false
  /-- Arrival units made, and the tile and plane of the next (R416). -/
  units : Nat := 0
  unitTile : Nat := 0
  unitPlane : Nat := 0
deriving DecidableEq, Repr

/-- A posted XRECV (R420), and the message matched to it: its source module, core and transfer, its length and the
bytes written. -/
structure Recv where
  core  : Nat
  x     : Xid
  asid  : Nat
  tag   : Nat
  src   : Nat
  cap   : Nat
  mate  : Option (Nat × Nat × Xid) := none
  len   : Nat := 0
  landed : Nat := 0
deriving DecidableEq, Repr

/-- The module. -/
structure State where
  cores   : Table Core := []
  pairs   : Table Pair := []
  clusters : Table Cluster := []
  dies    : Table Die := []
  /-- Memory by physical address (R337). -/
  mem     : Memory := []
  /-- 64-byte lines that hold an uncorrectable error (R363). -/
  flaws   : List Nat := []
  wcc     : Word := 0
  seedlog : Table SeedEntry := []
  entropyBad : Bool := false
  astab   : Nat := 0
  power   : Power := {}
  hiblist : Table HibEntry := []
  /-- The HIBLIST entries that Vizin keeps per task (R432). -/
  kept    : List HibKept := []
  ten     : Tenancy := {}
  launches : List Launch := []
  lnext   : Nat := 0
  subqs   : Table SubQueue := []
  modnum  : Nat := 0
  ports   : Table Port := []
  /-- The live-port mask and sequence held for each module (R402). -/
  links   : Table (Nat × W32) := []
  /-- The next PSEQ by destination × 4 + class (R399). -/
  pseqs   : Table W32 := []
  sents   : List Sent := []
  /-- Requests performed: source × 4 + class, PSEQ, and the reply (R401). -/
  served  : List (Nat × Nat × Packet) := []
  groups  : Table Group := []
  colls   : List Coll := []
  recvs   : List Recv := []
  /-- Packets of a collective that is not yet issued here. -/
  early   : List Packet := []
  /-- Ready-to-send packets waiting for a receive (R420). -/
  rts     : List Packet := []
  /-- Replies to performed requests that wait for a delivery into on-die SRAM, each with the core number and transfer that it has. -/
  owed    : List ((Nat × Xid) × Packet) := []
  /-- HBM lines the host may hold, oldest first (R405). -/
  directory : List Nat := []
  /-- Host lines the device holds written, oldest first (R406). -/
  hostLines : List (Nat × List Byte) := []
  /-- MSI-X vectors raised (R404). -/
  msix    : List Nat := []
  /-- The MODEL's own: the issue in hand (log 7). -/
  fr      : Frame := {}
  /-- The MODEL's own: what the event at hand is about (log 2). -/
  ev      : Subject := {}
  /-- The MODEL's own: the events and clk still to come; `none` is one module clk (log 2). -/
  agenda  : List (Option (Instr × Subject)) := []
  /-- The MODEL's own: numbers the free values (log 4). -/
  free    : Nat := 0
deriving DecidableEq, Repr

/-- The outcome of a step of this machine. -/
abbrev Out := Host.Outcome State Fault Refusal

/-- The machine right after module reset. -/
def State.reset : State := {}

end Sys2Proof.Machine
end

