-- ==== Sys2Proof/Machine/Ops.lean ====
section
/-! DEFINITION. The named operations: registers by logical index (R9, R10), results in flight (R83, R84), the
capture of results (R214), freezing (R213), taking a trap (R208, R209) and returning from one (R210). -/

namespace Sys2Proof.Machine

/-! ### Reaching a context -/

def State.core (s : State) (c : Nat) : Core := Table.get {} s.cores c
def State.setCore (s : State) (c : Nat) (k : Core) : State := { s with cores := Table.put s.cores c k }
def State.die (s : State) (d : Nat) : Die := Table.get {} s.dies d
def State.setDie (s : State) (d : Nat) (x : Die) : State := { s with dies := Table.put s.dies d x }
/-- The die's clk run and it takes dispatches: it is neither in the grace of a park nor at retention (R371, R373). -/
def Die.awake (x : Die) : Bool := x.park == .none || x.park == .unparking
def State.pair (s : State) (p : Nat) : Pair := Table.get {} s.pairs p
def State.setPair (s : State) (p : Nat) (x : Pair) : State := { s with pairs := Table.put s.pairs p x }

def Core.ctx (k : Core) (x : Fin 4) : Ctx := k.ctxs[x]
def Core.setCtx (k : Core) (x : Fin 4) (c : Ctx) : Core := { k with ctxs := k.ctxs.set x c }
def State.ctx (s : State) (c : Nat) (x : Fin 4) : Ctx := (s.core c).ctx x
def State.setCtx (s : State) (c : Nat) (x : Fin 4) (v : Ctx) : State := s.setCore c ((s.core c).setCtx x v)

/-- The tile's row. -/
def Tile.row (t : Tile) (i : Nat) : Row := t.rows.getD (i % 64) {}
def Tile.setRow (t : Tile) (i : Nat) (r : Row) : Tile := { t with rows := t.rows.set (i % 64) r }
def Core.tile (k : Core) (t : Nat) : Tile := k.tiles[(⟨t % 8, Nat.mod_lt _ (by omega)⟩ : Fin 8)]
def Core.setTile (k : Core) (t : Nat) (x : Tile) : Core :=
  { k with tiles := k.tiles.set (⟨t % 8, Nat.mod_lt _ (by omega)⟩ : Fin 8) x }

/-- The context whose issue is in hand. -/
def State.me (s : State) : Ctx := s.ctx s.fr.core s.fr.ctx
def State.setMe (s : State) (v : Ctx) : State := s.setCtx s.fr.core s.fr.ctx v
/-- The core whose issue is in hand, and its die. -/
def State.myCore (s : State) : Core := s.core s.fr.core
def State.setMyCore (s : State) (k : Core) : State := s.setCore s.fr.core k
def State.myDie (s : State) : Die := s.die (dieOf s.fr.core)
def State.setMyDie (s : State) (d : Die) : State := s.setDie (dieOf s.fr.core) d
def State.setFr (s : State) (f : Frame) : State := { s with fr := f }

/-! ### Registers by logical index -/

/-- The physical register of a logical index under ROT (R10). -/
def physReg (rot : BitVec 4) (i : BitVec 5) : Fin 32 :=
  if i.toNat < 16 then ⟨i.toNat, i.isLt⟩
  else ⟨16 + (i.toNat + rot.toNat) % 16, by omega⟩

/-- s(i): s0 reads 0 (R9). -/
def Regs.sGet (r : Regs) (rot : BitVec 4) (i : BitVec 5) : Word :=
  if i = 0 then 0 else r.s[physReg rot i]
/-- p(i): p0 reads 1 (R9). -/
def Regs.pGet (r : Regs) (i : BitVec 3) : Bool :=
  if i = 0 then true else r.p[(⟨i.toNat, i.isLt⟩ : Fin 8)]
/-- m(i): m0 reads all ones (R9). -/
def Regs.mGet (r : Regs) (i : BitVec 3) : Word :=
  if i = 0 then BitVec.allOnes 64 else r.m[(⟨i.toNat, i.isLt⟩ : Fin 8)]
/-- v(i). -/
def Regs.vGet (r : Regs) (rot : BitVec 4) (i : BitVec 5) : Lanes := r.v[physReg rot i]
/-- k(i): k0 is always ready (R9, R11). -/
def Regs.kGet (r : Regs) (i : BitVec 6) : Word :=
  if i = 0 then 0 else r.k[(⟨i.toNat, i.isLt⟩ : Fin 64)]

/-- Lane k of a vector value. -/
def lane (v : Lanes) (k : Nat) : W32 := v.getD k 0
/-- The vector value with lane k = f k. -/
def mkLanes (f : Nat → W32) : Lanes := (List.range 64).map f
/-- Every lane x. -/
def splat (x : W32) : Lanes := mkLanes fun _ => x

/-- The registers an S-slot syllable reads: those of its bundle's first issue (R101). -/
def State.opRegs (s : State) : Regs :=
  match s.fr.snap with
  | some p => p.1
  | none => s.me.regs

/-- s(a) as an S-slot syllable reads it (R101). -/
def State.rdS (s : State) (a : BitVec 5) : Word := s.opRegs.sGet s.me.sys.rot a
/-- p(a) as an S-slot syllable reads it (R101). -/
def State.rdP (s : State) (a : BitVec 3) : Bool := s.opRegs.pGet a
/-- s(a) in the issue clk (R83). -/
def State.nowS (s : State) (a : BitVec 5) : Word := s.me.regs.sGet s.me.sys.rot a
/-- v(a) in the issue clk (R83). -/
def State.nowV (s : State) (a : BitVec 5) : Lanes := s.me.regs.vGet s.me.sys.rot a
/-- m(a) in the issue clk (R83). -/
def State.nowM (s : State) (a : BitVec 3) : Word := s.me.regs.mGet a

/-- The address base of an L or X syllable: the stepped value of a re-issue (R80), else the register. -/
def State.baseS (s : State) (a : BitVec 5) : Word :=
  match s.fr.base with
  | some b => b
  | none => s.nowS a

/-- The windows an L-slot syllable reads: those of its bundle's first issue (R160). -/
def State.opWin (s : State) (w : BitVec 3) : Win :=
  match s.fr.snap with
  | some p => p.2[(⟨w.toNat, w.isLt⟩ : Fin 8)]
  | none => s.me.sys.wins[(⟨w.toNat, w.isLt⟩ : Fin 8)]

/-- The literal an L field names: the captured word of a sticky operation, else the bundle's (R75, R79). -/
def State.literal (s : State) (n : Nat) : W32 :=
  match s.fr.cap with
  | some w => w
  | none => s.fr.lits.getD n 0

/-! ### Results in flight -/

/-- A result enters flight, to land at the end of clk issue + lat − 1 (R83). -/
def State.put (s : State) (slot lat : Nat) (d : Dest) (w : Word) (v : Lanes) (lanes : Word) (fl : Fl) : State :=
  s.setMe { s.me with land := s.me.land ++ [⟨lat, slot, s.me.ord, d, w, v, lanes, fl⟩] }

/-- A scalar result to s(d), the register named now (R79). -/
def State.putS (s : State) (slot lat : Nat) (d : BitVec 5) (w : Word) : State :=
  s.put slot lat (.s (physReg s.me.sys.rot d)) w [] 0 0
/-- A predicate result. -/
def State.putP (s : State) (slot lat : Nat) (d : BitVec 3) (b : Bool) : State :=
  s.put slot lat (.p ⟨d.toNat, d.isLt⟩) (if b then 1 else 0) [] 0 0
/-- A lane-mask result. -/
def State.putM (s : State) (slot lat : Nat) (d : BitVec 3) (w : Word) (fl : Fl) : State :=
  s.put slot lat (.m ⟨d.toNat, d.isLt⟩) w [] 0 fl
/-- A vector result on the lanes named (R131). -/
def State.putV (s : State) (slot lat : Nat) (d : BitVec 5) (v : Lanes) (lanes : Word) (fl : Fl) : State :=
  s.put slot lat (.v (physReg s.me.sys.rot d)) 0 v lanes fl
/-- A token result (R95). -/
def State.putK (s : State) (slot lat : Nat) (d : BitVec 6) (w : Word) : State :=
  s.put slot lat (.k ⟨d.toNat, d.isLt⟩) w [] 0 0
/-- A system-register result. -/
def State.putSr (s : State) (slot lat n : Nat) (w : Word) : State := s.put slot lat (.sr n) w [] 0 0

/-- A register whose writes change nothing and set no flag (R9). A result discarded in m0 counts toward WCONF all the same
(R153). -/
def Dest.inert : Dest → Bool
  | .s i => i.val == 0
  | .p i => i.val == 0
  | .k i => i.val == 0
  | _ => false

/-- Whether two results that land together meet in one register, vector lanes apart (R84, R131). -/
def Landing.meets (a b : Landing) : Bool :=
  decide (a.dest = b.dest) && !a.dest.inert &&
    (match a.dest with
     | .v _ => a.lanes &&& b.lanes != 0
     | _ => true)

/-- Some two of a list meet. -/
def anyMeet : List Landing → Bool
  | [] => false
  | a :: l => l.any a.meets || anyMeet l

/-- Order among results that land together: by slot, then by issue (R84). -/
def Landing.before (a b : Landing) : Bool := decide (a.slot < b.slot ∨ (a.slot = b.slot ∧ a.ord ≤ b.ord))

def insertLanding (a : Landing) : List Landing → List Landing
  | [] => [a]
  | b :: l => if b.before a then b :: insertLanding a l else a :: b :: l

def sortLandings (l : List Landing) : List Landing := l.foldl (fun acc a => insertLanding a acc) []

/-- A register write as bytes of a commit record: FILE, REG and value (R226). -/
def Landing.record (l : Landing) : List Byte :=
  let head (f r : Nat) : List Byte := [BitVec.ofNat 8 f, BitVec.ofNat 8 r]
  match l.dest with
  | .s i => head 0 i.val ++ leBytes 8 l.word.toNat
  | .p i => head 1 i.val ++ leBytes 8 l.word.toNat
  | .m i => head 2 i.val ++ leBytes 8 l.word.toNat
  | .v i => head 3 i.val ++ leBytes 8 l.lanes.toNat ++ l.vec.flatMap fun w => leBytes 4 w.toNat
  | .k i => head 4 i.val ++ leBytes 8 l.word.toNat
  | .sr n => head 5 n ++ leBytes 8 l.word.toNat

/-- CTXSTAT.STATE as Vizin and the debugger see it (R17): 0 unbound, 3 frozen, 2 blocked on a token or past the issue of
its TEND (R116, R121), 1 ready. -/
def Ctx.stateField (c : Ctx) : Nat :=
  if !c.bound then 0 else if c.frozen != .none then 3 else if c.ended.isSome || !c.wait.isEmpty then 2 else 1

/-- CTXSTAT of context `x` with the STATE field `st` (R17). -/
def ctxstatAs (st : Nat) (x : Fin 4) (y : Sys) : Word :=
  let bit (b : Bool) (n : Nat) : Nat := if b then 2 ^ n else 0
  BitVec.ofNat 64 (x.val * 2 ^ 14 + st * 2 ^ 12 + bit y.priv 11 + bit y.intrap 10 + bit y.prot 9 + bit y.gang 8
    + bit y.esat 3 + bit y.coll 2 + bit y.wconf 1 + bit y.brconf 0)

/-- CTXSTAT, as the context reads it (R17): STATE is 1. -/
def ctxstatWord (x : Fin 4) (y : Sys) : Word := ctxstatAs 1 x y

/-- Word 0 of a window as written: VCL is rsv unless KIND is 2 (R16, R26). -/
def winWord0 (w : Word) : Word := if w.extractLsb' 62 2 = 2#2 then w else w &&& 0xC1FFFFFFFFFFFFFF#64
/-- Word 1 of a window as written: bits [23:0] are rsv (R16, R26). -/
def winWord1 (w : Word) : Word := w &&& 0xFFFFFFFFFF000000#64

/-- A window as its descriptor holds it: rsv bits are 0 (R16, R26). -/
def Win.stored (w : Win) : Win := ⟨winWord0 w.w0, winWord1 w.w1⟩

/-- The fields of a system-register write as it lands (R12, R14, R17, R19, R21 to R24, R26, R68, R123). -/
def Sys.write (y : Sys) (n : Nat) (w : Word) : Sys :=
  if 0x40 ≤ n ∧ n < 0x50 then
    let i : Fin 8 := ⟨(n - 0x40) / 2 % 8, Nat.mod_lt _ (by omega)⟩
    let o := y.wins[i]
    { y with wins := y.wins.set i (if n % 2 = 0 then { o with w0 := winWord0 w } else { o with w1 := winWord1 w }) }
  else
    match n with
    | 0x00 =>
      { y with
        brconf := y.brconf && !w.getLsbD 0, wconf := y.wconf && !w.getLsbD 1
        coll := y.coll && !w.getLsbD 2, esat := y.esat && !w.getLsbD 3, priv := w.getLsbD 11 }
    | 0x01 => { y with epc := w.truncate 32 }
    | 0x02 => { y with cause := w.truncate 32 &&& 0x00F003FF#32 }
    | 0x03 => { y with faddr := w.truncate 55 }
    | 0x06 => { y with flags := w.truncate 6 }
    | 0x07 => { y with rmode := w.truncate 3 }
    | 0x08 => { y with fmode := w.truncate 2 }
    | 0x09 => { y with ecnt := w.truncate 48 }
    | 0x0A => { y with eres := w.truncate 4 }
    | 0x0B => { y with stream := w.extractLsb' 32 32, seed := w.truncate 8 }
    | 0x0C => { y with rcnt := w }
    | 0x0D => { y with seedsel := w.truncate 10 }
    | 0x10 => { y with lc := w.truncate 32 }
    | 0x11 => { y with nstg := w.truncate 3 }
    | 0x12 => { y with rot := w.truncate 4 }
    | 0x18 => { y with strv0 := w }
    | 0x19 => { y with strv1 := w }
    | 0x1A => { y with strl0 := w }
    | 0x1B => { y with strl1 := w }
    | 0x1C => { y with strx := w }
    | _ => y

/-- The lanes named by a mask replaced (R131). -/
def mergeLanes (old new : Lanes) (lanes : Word) : Lanes :=
  mkLanes fun k => if lanes.getLsbD k then lane new k else lane old k

/-- One result lands in its register; s0, p0, m0 and k0 are fixed (R9). -/
def Ctx.landOne (c : Ctx) (l : Landing) : Ctx :=
  match l.dest with
  | .s i => if i.val = 0 then c else { c with regs := { c.regs with s := c.regs.s.set i l.word } }
  | .p i => if i.val = 0 then c else { c with regs := { c.regs with p := c.regs.p.set i (l.word != 0) } }
  | .m i => if i.val = 0 then c else { c with regs := { c.regs with m := c.regs.m.set i l.word } }
  | .v i => { c with regs := { c.regs with v := c.regs.v.set i (mergeLanes c.regs.v[i] l.vec l.lanes) } }
  | .k i => if i.val = 0 then c else { c with regs := { c.regs with k := c.regs.k.set i l.word } }
  | .sr n => { c with sys := c.sys.write n l.word }

/-- The sticky bits the hardware sets in a clk, in the order of CTXSTAT [3:0] (R17). -/
def Sys.set (y : Sys) (b : BitVec 4) : Sys :=
  { y with
    brconf := y.brconf || b.getLsbD 0, wconf := y.wconf || b.getLsbD 1
    coll := y.coll || b.getLsbD 2, esat := y.esat || b.getLsbD 3 }

/-- The end of a clk for one context's results: those due land in the order of R84, the others come one clk
nearer, and hardware sets of sticky bits and flags stand against program clears (R18, R21). -/
def Ctx.landAll (c : Ctx) : Ctx :=
  let due := sortLandings (c.land.filter fun l => decide (l.left ≤ 1))
  let rest := (c.land.filter fun l => decide (1 < l.left)).map fun l => { l with left := l.left - 1 }
  let c1 := due.foldl Ctx.landOne { c with land := rest }
  let y := c1.sys.set (c.sets ||| (if anyMeet due then 0x2#4 else 0#4))
  { c1 with
    sys := { y with flags := due.foldl (fun f l => f ||| l.flags) (y.flags ||| c.fsets) }
    sets := 0, fsets := 0 }

/-- The hardware sets a sticky bit in this clk. -/
def State.setSticky (s : State) (b : BitVec 4) : State := s.setMe { s.me with sets := s.me.sets ||| b }
/-- The hardware sets flags in this clk. -/
def State.setFlags (s : State) (f : Fl) : State := s.setMe { s.me with fsets := s.me.fsets ||| f }

/-! ### Freezing and traps -/

/-- The results of a context later than a boundary, with the offsets of R214: `k` is 1 when the boundary is the
clk in hand, whose own landings are still to come, and 0 when that clk is past. -/
def laterThan (k : Nat) (l : List Landing) : List Landing :=
  (l.filter fun x => decide (k < x.left)).map fun x => { x with left := x.left - k }

/-- The accesses of a context later than a boundary take their results to a chest image (R166, R214). -/
def captureAcc (core : Nat) (x : Fin 4) (k : Nat) (tout : Capture) (l : List Access) : List Access :=
  l.map fun a =>
    if a.core = core ∧ a.ctx = x.val ∧ a.keep = .live ∧ k < a.land then { a with keep := tout, land := a.land - k } else a

/-- Capture of R214 to the freeze chest image or the trap chest image. -/
def State.capture (s : State) (core : Nat) (x : Fin 4) (k : Nat) (tout : Capture) : State :=
  let c := s.ctx core x
  let got := laterThan k c.land
  let c1 := { c with land := c.land.filter fun l => decide (l.left ≤ k) }
  let c2 := if tout = .trap then { c1 with tchest := c1.tchest ++ got } else { c1 with chest := c1.chest ++ got }
  let d := s.die (dieOf core)
  (s.setCtx core x c2).setDie (dieOf core) { d with acc := captureAcc core x k tout d.acc }

/-- The nests of the matrix-grant holder stop between steps (R194): in this clk, or, when the boundary is the clk in
hand, after it. -/
def Core.haltNests (k : Core) (x : Fin 4) (later : Nat) : Core :=
  { k with nests := k.nests.map fun n =>
      if n.ctx = x.val then (if later = 0 then { n with frozen := true } else { n with stopping := true }) else n }

/-- The core loses its holder when that is context x. -/
def Core.release (k : Core) (x : Fin 4) : Core :=
  if k.holder = some x then { k with holder := none, last := x, wait := 0 } else k

/-- The core loses its holder to a freeze. Only a block, a YIELD and a TEND make a switch (R87): the context that issues next pays no
switch clk (R332, log 13). -/
def Core.freed (k : Core) (x : Fin 4) : Core :=
  if k.holder = some x then { k.release x with ran := false } else k

/-! ### The slot table -/

def State.cluster (s : State) (c : Nat) : Cluster := Table.get {} s.clusters c
def State.setCluster (s : State) (c : Nat) (x : Cluster) : State := { s with clusters := Table.put s.clusters c x }
def State.slot (s : State) (c e : Nat) : Slot := Table.get {} (s.cluster c).slots e
def State.setSlot (s : State) (c e : Nat) (x : Slot) : State :=
  s.setCluster c { s.cluster c with slots := Table.put (s.cluster c).slots e x }
/-- The slot-table entry of a context (R273). -/
def entryOf (core : Nat) (x : Fin 4) : Nat := 4 * (core % numCores) + x.val
/-- DST of a context's entry (R276). -/
def State.setDst (s : State) (core : Nat) (x : Fin 4) (d : SlotStatus) : State :=
  s.setSlot (clusterIndex core) (entryOf core x) { s.slot (clusterIndex core) (entryOf core x) with dst := d }

/-! ### Freezing and trapping -/

/-- One context freezes at its boundary (R213): results are captured, the nest stops between steps, a trestle
wait is abandoned, the context holds issue no longer, and DST reads FROZEN (R276). The save area is written 32 clk later (R214). -/
def State.freezeOne (s : State) (core : Nat) (x : Fin 4) (k : Nat) (why : Freeze) : State :=
  if (s.ctx core x).frozen ≠ .none then s
  else
    let s := s.capture core x k .freeze
    let c := s.ctx core x
    let s := s.setCtx core x
      { c with frozen := why, reload := true, arrived := false, release := none, run := none, wantF := none
               boundary := (s.die (dieOf core)).scc.toNat + k, saveIn := some (32 + k), dead := 0 }
    (s.setCore core (((s.core core).freed x).haltNests x k)).setDst core x .frozen

/-- The bound contexts of a gang on a die: those with its GANGID (R255, R273). -/
def State.gangOf (s : State) (core : Nat) (x : Fin 4) : List (Nat × Fin 4) :=
  let b := (s.ctx core x).bind
  s.cores.flatMap fun e =>
    (List.finRange 4).filterMap fun y =>
      let c := e.2.ctx y
      if dieOf e.1 = dieOf core ∧ c.bound ∧ c.bind.gang ∧ c.bind.gangid = b.gangid then some (e.1, y) else none

/-- The context issued a bundle in the clk in hand. -/
def Core.issuedIn (k : Core) (x : Fin 4) : Bool := k.issued.isSome && k.payer == some x

/-- The boundary of a freeze that is asked for in the clk in hand (R213): that clk, for the context that made a final issue in
it; else the clk before. -/
def Core.boundaryOff (k : Core) (x : Fin 4) : Nat := if k.issuedIn x then 1 else 0

/-- A freeze is wanted of a context: at once between bundles, at the final issue of a bundle under way (R82,
R213). -/
def State.wantFreeze (s : State) (core : Nat) (x : Fin 4) (why : Freeze) : State :=
  let c := s.ctx core x
  if ¬ c.bound then s
  else if c.run.isSome then s.setCtx core x { c with wantF := some why }
  else s.freezeOne core x ((s.core core).boundaryOff x) why

/-- A context freezes with the members of its gang: Vizin asks for theirs in the next clk, and they freeze at their own
boundaries (R218). -/
def State.freeze (s : State) (core : Nat) (x : Fin 4) (k : Nat) (why : Freeze) : State :=
  let g := if (s.ctx core x).region then s.gangOf core x else []
  (g.foldl (fun s m => if m = (core, x) ∨ (s.ctx m.1 m.2).frozen ≠ .none then s
    else s.setCtx m.1 m.2 { s.ctx m.1 m.2 with wantF := some (if why = .trap then .gang else why) }) s).freezeOne core x k why

/-- The codes that R211 delivers by freezing. -/
def freezeCodes : List Nat :=
  [0x101, 0x281, 0x303, 0x304, 0x305, 0x306, 0x307, 0x308, 0x309, 0x30A, 0x30B, 0x383]

/-- CAUSE of R19. -/
def causeWord (t : Trap) : W32 :=
  BitVec.ofNat 32 (t.code % 2 ^ 10 + (match t.slot with
    | some n => (n % 8) * 2 ^ 21 + 2 ^ 20
    | none => 0))

/-- A result of the trap's own bundle that lands in the clk of its final issue lands before the trap is taken (R118): in CAUSE,
EPC and FADDR the trap's value stands, and PRIV is the handler's when one is entered. -/
def Landing.underTrap (t : Trap) (epc : W32) (enters : Bool) (l : Landing) : Landing :=
  match l.dest with
  | .sr 0x00 => if enters then { l with word := l.word ||| 0x800#64 } else l
  | .sr 0x01 => { l with word := epc.zeroExtend 64 }
  | .sr 0x02 => { l with word := (causeWord t).zeroExtend 64 }
  | .sr 0x03 => { l with word := (BitVec.ofNat 55 t.faddr).zeroExtend 64 }
  | _ => l

/-- The results of a context as a trap leaves them, those due in the `k` clk up to its boundary among them. -/
def trapLand (k : Nat) (t : Trap) (epc : W32) (enters : Bool) (l : List Landing) : List Landing :=
  l.map fun r => if r.left ≤ k then r.underTrap t epc enters else r

/-- PRIV at the boundary of a trap: a write of CTXSTAT that lands by then has taken effect (R118, R123). -/
def Ctx.privAt (c : Ctx) (k : Nat) : Bool :=
  match (sortLandings (c.land.filter fun l => decide (l.left ≤ k ∧ l.dest = .sr 0x00))).getLast? with
  | some l => l.word.getLsbD 11
  | none => c.sys.priv

/-- CAUSE, EPC and FADDR are written together (R19). -/
def Ctx.causes (c : Ctx) (t : Trap) (epc : W32) : Ctx :=
  { c with sys := { c.sys with cause := causeWord t, epc := epc, faddr := BitVec.ofNat 55 t.faddr } }

/-- What a freeze or a trap captured lands again (R210, R217): each entry `k` clk later than its offset, the accesses that have
still to perform at their landing. A trap image stands while its handler runs. -/
def State.reload (s : State) (core : Nat) (x : Fin 4) (k : Nat) : State :=
  let c := s.ctx core x
  let whole := c.reload
  let trap := c.treload || (whole && !c.sys.intrap)
  if ¬ (whole ∨ trap) then s
  else
    let back (l : List Landing) : List Landing := l.map fun e => { e with left := e.left + k }
    let s := s.setCtx core x
      { c with land := c.land ++ back (if whole then c.chest else []) ++ back (if trap then c.tchest else [])
               chest := if whole then [] else c.chest, tchest := if trap then [] else c.tchest
               reload := false, treload := false }
    let d := s.die (dieOf core)
    s.setDie (dieOf core) { d with acc := d.acc.map fun a =>
        if a.core = core ∧ a.ctx = x.val ∧ ((whole ∧ a.keep = .freeze) ∨ (trap ∧ a.keep = .trap)) then
          { a with keep := .live, land := a.land + k } else a }

/-- EnterHandler of R209. `k` is 1 when the boundary is the clk in hand (a trap after a final issue) and 0 when
the trap is taken before a first issue in this clk: the handler's first bundle issues in clk u + 4. The trap chest image stands in the
save area once its capture is complete (R214). -/
def State.enterHandler (s : State) (core : Nat) (x : Fin 4) (k : Nat) (t : Trap) (epc : W32) : State :=
  let s := s.reload core x k
  let c := (s.ctx core x).causes t epc
  let c := { c with ppriv := c.privAt k, plsk := c.lsk, lsk := false, land := trapLand k t epc true c.land
                    sys := { c.sys with priv := true, intrap := true }
                    tcur := c.cur, cur := Vector.replicate 5 {}, pc := c.bind.tvec, run := none, dead := 0
                    tsaveIn := some (32 + k) }
  let s := (s.setCtx core x c).capture core x k .trap
  let kc := (s.core core).haltNests x k
  s.setCore core { kc with holder := some x, wait := 3 + k }

/-- The fault record of a transfer is taken (R117, R121, R347). -/
def Core.takeRecord (k : Core) (x : Option Xid) : Core :=
  { k with faults := k.faults.map fun r => if some r.xf.x = x then { r with taken := true } else r }

/-- A trap is taken (R208): by the handler, by a freeze, or, inside a handler, as a double trap. DEDUCED (log 57): CODE of the
secondary cause is then the second trap's own code. -/
def State.takeTrap (s : State) (core : Nat) (x : Fin 4) (k : Nat) (t : Trap) (epc : W32) : State :=
  let s := s.setCore core ((s.core core).takeRecord t.taken)
  let c := s.ctx core x
  if c.sys.intrap then
    (s.setCtx core x { c with second := some (BitVec.ofNat 10 t.code), pc := epc }).freeze core x k .trap
  else if freezeCodes.contains t.code || c.region then
    (s.setCtx core x { c.causes t epc with pc := epc, land := trapLand k t epc false c.land }).freeze core x k .trap
  else s.enterHandler core x k t epc

/-- The clk a reload of n chest entries takes (R210). -/
def reloadClk (n : Nat) : Nat := if n = 0 then 0 else 2 + (n + 7) / 8

/-- What ERET restores at its final issue (R119, R210); the trap chest image lands, and a frozen nest resumes,
from the first issue of the return target. DESIGN CHOICE (log 62): an MTSR of CTXSTAT in the same bundle lands after PRIV := PPRIV,
whatever the slots; the trap image of the current operations is five NOPs once it has been written back; and a trap chest image
whose capture was not complete is no longer written to the save area. -/
def State.returnFromTrap (s : State) (core : Nat) (x : Fin 4) : State :=
  let c := s.ctx core x
  let n := c.tchest.length
  let s := s.setCtx core x
    { c with sys := { c.sys with priv := c.ppriv, intrap := false }, lsk := c.plsk, cur := c.tcur
             tcur := Vector.replicate 5 {}, treload := true, tsaveIn := none }
  let k := s.core core
  s.setCore core { k with wait := max 1 (reloadClk n) }

end Sys2Proof.Machine
end

