-- ==== Sys2Proof/Machine/Operands.lean ====
section
/-! DEFINITION. Operand forms: immediates and literals (R76, R75), conditions and lane masks (R73, R130), token
literals (R95), windows and element addressing (R26 to R29, R41 to R44, R154, R155), copy addresses (R293) and
the physical places of on-die SRAM (R337). -/

namespace Sys2Proof.Machine

/-! ### Immediates, slots, conditions -/

/-- A two's-complement immediate (R76). -/
def immS {n : Nat} (b : BitVec n) : Word := b.signExtend 64
/-- An unsigned immediate (R76). -/
def immU {n : Nat} (b : BitVec n) : Word := b.zeroExtend 64

/-- The slot of a syllable of a two-slot class whose first slot is `first` (R69). -/
def slotOf (t : Tag2) (first : Nat) : Nat := if t.second then first + 1 else first

/-- The condition of an S-slot syllable, read with its operands (R101). -/
def State.condS (s : State) (t : Tag2) : Bool := s.rdP t.pidx != t.inv
/-- The condition of an L-slot syllable, read in the issue clk (R160). -/
def State.condL (s : State) (t : Tag2) : Bool := s.me.regs.pGet t.pidx != t.inv
/-- The condition of an M- or X-slot syllable (R73). -/
def State.cond (s : State) (t : Tag) : Bool := s.me.regs.pGet t.pidx != t.inv

/-- The selection mask of a vector syllable (R130). -/
def State.sel (s : State) (t : Tag2) : Word :=
  if t.inv then ~~~ (s.nowM t.pidx) else s.nowM t.pidx

/-- RM of the context (R22). -/
def State.rm (s : State) : Nat := s.me.sys.rmode.toNat
/-- RM where stochastic is read as RNE (R148, R157, R203). -/
def State.rmPlain (s : State) : Nat := if s.me.sys.rmode = 4 then 0 else s.me.sys.rmode.toNat
/-- FM of the context (R22, R49). -/
def State.fm (s : State) : Nat := s.me.sys.fmode.toNat

/-! ### Physical places (R337) -/

def hbmAddr (die : Nat) : Nat := die * 0x1000000000
def hbmSize : Nat := 0x1000000000
def scmAddr : Nat := 0x20000000000
def scmSize : Nat := 0x20000000000
def vaultAddr (die cl : Nat) : Nat := 0x40000000000 + die * 0x20000000 + cl * 0x1000000
def vaultSize : Nat := 0x1000000
/-- The scratchpad of a core by its module-wide number. -/
def padAddr (core : Nat) : Nat :=
  0x40000000000 + dieOf core * 0x20000000 + 0x18000000 + core % 384 * 0x40000
def padSize : Nat := 0x40000
def hostAddr : Nat := 0x100000000000
def peerAddr : Nat := 0x8000000000000
def peerSize : Nat := 0x80000000000

/-! ### Windows (R26) -/

def Win.kind (w : Win) : Nat := (w.w0.extractLsb' 62 2).toNat
def Win.vcl (w : Win) : Nat := (w.w0.extractLsb' 57 5).toNat
def Win.rd (w : Win) : Bool := w.w0.getLsbD 56
def Win.wr (w : Win) : Bool := w.w0.getLsbD 55
def Win.fmt (w : Win) : Nat := (w.w0.extractLsb' 51 4).toNat
def Win.geo (w : Win) : Nat := (w.w0.extractLsb' 49 2).toNat
def Win.len (w : Win) : Nat := (w.w0.extractLsb' 24 25).toNat
def Win.base (w : Win) : Nat := (w.w0.extractLsb' 0 24).toNat
def Win.shadow (w : Win) : Nat := (w.w1.extractLsb' 40 24).toNat
def Win.pitch (w : Win) : Nat := (w.w1.extractLsb' 24 16).toNat

/-- The format is block-scaled (R27). -/
def blockFmt (f : Nat) : Bool := decide (6 ≤ f ∧ f ≤ 9)

/-- Bits of an element of a format (R155). -/
def elemBits (f : Nat) : Nat :=
  match f with
  | 2 | 3 | 11 => 16
  | 4 | 5 | 8 | 9 | 10 => 8
  | 7 => 6
  | 6 => 4
  | _ => 32

/-- Elements of a region of `len` bytes (R155). -/
def regionElems (f len : Nat) : Nat := len * 8 / elemBits f

/-- An element's number in the region's own numbering (R43). -/
def elemNumber (geo pitch e : Nat) : Nat :=
  let y := e / pitch; let x := e % pitch
  match geo with
  | 1 => (y / 4 * pitch + x) * 4 + y % 4
  | 2 => (y / 2 * (pitch / 2) + x / 2) * 4 + y % 2 * 2 + x % 2
  | _ => e

/-- The storage offset of the element numbered n (R43, inverted). -/
def elemAt (geo pitch n : Nat) : Nat :=
  match geo with
  | 1 =>
    let q := n / 4
    (q / pitch * 4 + n % 4) * pitch + q % pitch
  | 2 =>
    let q := n / 4; let h := pitch / 2
    (q / h * 2 + n % 4 / 2) * pitch + (q % h * 2 + n % 2)
  | _ => n

/-- The greatest scale-byte number of a region of `n` elements, n > 0 (R43). -/
def lastScale (geo pitch n : Nat) : Nat :=
  let e := n - 1
  let y := e / pitch; let x := e % pitch
  match geo with
  | 1 => y / 4 * pitch + (if y % 4 = 0 then x else pitch - 1)
  | 2 => y / 2 * (pitch / 2) + (if y % 2 = 0 then x / 2 else pitch / 2 - 1)
  | _ => e / 4

/-- Bytes of the SRAM a window names (R28). -/
def Win.sramSize (w : Win) : Nat := if w.kind = 1 then padSize else vaultSize

/-- The checks of R28 on word 0. -/
def Win.word0Ok (w : Win) : Bool :=
  w.kind == 0 ||
    (w.kind != 3 && decide (w.fmt < 14) && (if blockFmt w.fmt then decide (w.geo ≤ 2) else w.geo == 3)
      && w.len % 64 == 0 && decide (64 ≤ w.len) && w.base % 64 == 0
      && (w.kind != 2 || decide (w.vcl ≤ 23)) && decide (w.base + w.len ≤ w.sramSize))

/-- The checks of R28 on word 1, made only under KIND 1 or 2. -/
def Win.word1Ok (w : Win) : Bool :=
  w.kind == 0 || !blockFmt w.fmt ||
    ((w.geo != 1 || (w.pitch != 0 && w.pitch % 4 == 0)) && (w.geo != 2 || (w.pitch != 0 && w.pitch % 2 == 0))
      && decide (w.shadow + lastScale w.geo w.pitch (regionElems w.fmt w.len) < w.sramSize))

/-- Every check of R28. -/
def Win.ok (w : Win) : Bool := w.word0Ok && w.word1Ok

/-- The physical address of byte 0 of the SRAM that a core's window names (R26, R337). -/
def Win.sram (w : Win) (core : Nat) : Nat :=
  if w.kind = 1 then padAddr core else vaultAddr (dieOf core) w.vcl

/-- The physical address of a region's first byte. -/
def Win.addr (w : Win) (core : Nat) : Nat := w.sram core + w.base
/-- The physical address of a region's first scale byte. -/
def Win.scaleAddr (w : Win) (core : Nat) : Nat := w.sram core + w.shadow

/-- The scale-byte number of element e (R43). -/
def Win.scaleIndex (w : Win) (e : Nat) : Nat := elemNumber w.geo w.pitch e / 4

/-- The element lies in the region: every bit of it (R155). -/
def Win.hasElem (w : Win) (e : Int) : Bool :=
  decide (0 ≤ e ∧ (e + 1) * elemBits w.fmt ≤ w.len * 8)

/-- The present members of the block of element e, by storage offset; none for an absent member (R43, R44). -/
def Win.members (w : Win) (blk : Nat) : List (Option Nat) :=
  (List.range 4).map fun j =>
    let e := elemAt w.geo w.pitch (4 * blk + j)
    if w.hasElem e then some e else none

/-- Bits [lo + n − 1 : lo] counted from the byte at `a`, little-endian (R41). -/
def Memory.bits (m : Memory) (a lo n : Nat) : Nat :=
  (m.nat (a + lo / 8) ((lo % 8 + n + 7) / 8) >>> (lo % 8)) % 2 ^ n

/-- The encoding of element e of a region at byte address `a`, of `b` bits (R41, R155). -/
def Memory.elem (m : Memory) (a b e : Nat) : Nat := m.bits a (e * b) b

/-! ### Token literals (R95) -/

def litOpt (w : W32) : Nat := (w.extractLsb' 24 8).toNat
def litCh (w : W32) : Fin 8 := ⟨(w.extractLsb' 21 3).toNat, (w.extractLsb' 21 3).isLt⟩
def litScope (w : W32) : Nat := (w.extractLsb' 18 3).toNat
def litKC (w : W32) : BitVec 6 := w.extractLsb' 12 6
def litKB (w : W32) : BitVec 6 := w.extractLsb' 6 6
def litKA (w : W32) : BitVec 6 := w.extractLsb' 0 6

/-- The token literal of form XT: an L field of 15 stands for the value 0 (R75, R95). -/
def State.tokenLit (s : State) (l : BitVec 4) : W32 := if l = 15 then 0 else s.literal l.toNat

/-- SCOPE and the OPT bits an instruction defines (R95): anything else is an illegal syllable. -/
def tokenLitOk (w : W32) (optBits : Nat) : Bool := litScope w != 7 && decide (litOpt w < 2 ^ optBits)

/-- VAL, CH and ID of a token (R11). -/
def tokVal (w : Word) : Bool := w.getLsbD 63
def tokCh (w : Word) : Fin 8 := ⟨(w.extractLsb' 32 3).toNat, (w.extractLsb' 32 3).isLt⟩
def tokId (w : Word) : W32 := w.extractLsb' 0 32
/-- The token of a transfer (R11, R283). -/
def tokenOf (x : Xid) : Word := BitVec.ofNat 64 (2 ^ 63 + x.ch % 8 * 2 ^ 32 + x.id.toNat)
/-- The transfer a token names. -/
def tokXid (w : Word) : Xid := ⟨(tokCh w).val, tokId w⟩

/-- The comparison of R283: a token is ready when its identifier is past the watermark. -/
def Core.ready (k : Core) (w : Word) : Bool :=
  !tokVal w ||
    (let c := k.chans[tokCh w]
     decide ((tokId w - c.wm).toNat ≥ (c.nid - c.wm).toNat))

/-- The untaken fault record of the transfer a token names (R117, R286). -/
def Core.errorOf (k : Core) (w : Word) : Option FaultRec :=
  if tokVal w then k.faults.find? fun r => !r.taken && decide (r.xf.x = tokXid w) else none

/-! ### Copy addresses (R293) -/

/-- The window form. -/
def addrWindow (a : Word) : Bool := a.getLsbD 63
def addrWin (a : Word) : BitVec 3 := a.extractLsb' 60 3
def addrElem (a : Word) : Nat := (a.extractLsb' 0 32).toNat
def addrVirt (a : Word) : Nat := (a.extractLsb' 0 55).toNat
/-- The generation field of XBARW. -/
def addrGen (a : Word) : Nat := (a.extractLsb' 55 5).toNat

/-- The rsv bits of a copy address are clear; `gen` when bits [59:55] are XBARW's generation (R293, R309). -/
def addrOk (a : Word) (gen : Bool) : Bool :=
  if addrWindow a then a.extractLsb' 32 23 == 0 && (gen || a.extractLsb' 55 5 == 0)
  else a.extractLsb' 60 3 == 0 && (gen || a.extractLsb' 55 5 == 0)

end Sys2Proof.Machine
end

