-- ==== Sys2Proof/Machine/Flags.lean ====
section
/-! DEFINITION. Flag computations: what an operation over elements and lanes raises (R21, R39, R132), and the
predicate results of the compares (R106, R107). -/

namespace Sys2Proof.Machine

/-- The results and flags of a lane-wise operation: only active lanes raise flags (R132). -/
def laneMap (sel : Word) (f : Nat → W32 × Fl) : Lanes × Fl :=
  let rs := (List.range 64).map fun k => (k, f k)
  (rs.map fun r => r.2.1, rs.foldl (fun a r => if sel.getLsbD r.1 then a ||| r.2.2 else a) 0)

/-- Element e of `n` bits of a lane (R129). -/
def elemOf (x : W32) (n e : Nat) : Nat := (x.toNat >>> (n * e)) % 2 ^ n

/-- A lane from its elements of `n` bits, low element first (R129). -/
def packElems (n : Nat) (es : List Nat) : W32 :=
  BitVec.ofNat 32 ((es.zipIdx.map fun p => (p.1 % 2 ^ n) <<< (n * p.2)).sum)

/-- An operation on every element of a lane: the lane and the flags of its elements (R129). -/
def elemMap (n : Nat) (f : Nat → Nat × Fl) : W32 × Fl :=
  let rs := (List.range (32 / n)).map f
  (packElems n (rs.map Prod.fst), rs.foldl (fun a r => a ||| r.2) 0)

/-- A wrapped integer result (R39). -/
def wrapInt (n : Nat) (x : Int) : Nat × Fl := (encInt x n, 0)

/-- A saturated integer result: SAT when it clamps (R39). -/
def satInt (n : Nat) (x : Int) : Nat × Fl :=
  let r := saturate x n
  (encInt r.1 n, flIf r.2 flSAT)

/-- The signed and unsigned compares of R106. -/
inductive SCmp where
  | eq | ne | lt | ge | ltu | geu
deriving DecidableEq, Repr

def SCmp.eval (c : SCmp) (a b : Word) : Bool :=
  match c with
  | .eq => a == b
  | .ne => a != b
  | .lt => BitVec.slt a b
  | .ge => !BitVec.slt a b
  | .ltu => BitVec.ult a b
  | .geu => !BitVec.ult a b

/-- The predicate operations of R107. -/
inductive POp where
  | and | or | xor
deriving DecidableEq, Repr

def POp.eval (o : POp) (a b : Bool) : Bool :=
  match o with
  | .and => a && b
  | .or => a || b
  | .xor => a != b

end Sys2Proof.Machine
end

