-- ==== Sys2Proof/Machine/Parity.lean ====
section
/-! DEFINITION. Parity (R211, R363): the registers and tiles that a syllable reads, and the report of a place among them whose
parity is in error, which waits for the context's next boundary as the reports of R197 and R207 do. -/

namespace Sys2Proof.Machine

/-! ### What a syllable reads -/

/-- Registers of the files, those that are wired apart (R9). -/
def readS (rot : BitVec 4) (l : List (BitVec 5)) : List Dest := (l.filter fun a => a != 0).map fun a => .s (physReg rot a)
def readV (rot : BitVec 4) (l : List (BitVec 5)) : List Dest := l.map fun a => .v (physReg rot a)
def readP (l : List (BitVec 3)) : List Dest := (l.filter fun a => a != 0).map fun a => .p ⟨a.toNat, a.isLt⟩
def readM (l : List (BitVec 3)) : List Dest := (l.filter fun a => a != 0).map fun a => .m ⟨a.toNat, a.isLt⟩
def readK (l : List (BitVec 6)) : List Dest := (l.filter fun a => a != 0).map fun a => .k ⟨a.toNat, a.isLt⟩

/-- The registers that a syllable's operands name and that it reads whether it acts or not, as its checks do (R78): those that its
rule gives it, the two after s(a) that the record of a transfer takes (R347), and the tokens of a token literal (R95). -/
def operandReads (rot : BitVec 4) (lit : BitVec 4 → W32) (i : Instr) : List Dest :=
  match i with
  | .add _ _ a b | .sub _ _ a b | .mul _ _ a b | .mulh _ _ a b | .and _ _ a b | .or _ _ a b | .xor _ _ a b
  | .andn _ _ a b | .shl _ _ a b | .shr _ _ a b | .sra _ _ a b | .min _ _ a b | .max _ _ a b | .addx3 _ _ a b
  | .cmpeq _ _ a b | .cmpne _ _ a b | .cmplt _ _ a b | .cmpge _ _ a b | .cmpltu _ _ a b | .cmpgeu _ _ a b
  | .sel _ _ a b => readS rot [a, b]
  | .addi _ _ a _ | .muli _ _ a _ | .andi _ _ a _ | .ori _ _ a _ | .xori _ _ a _ | .shli _ _ a _ | .shri _ _ a _
  | .srai _ _ a _ | .addl _ _ a _ | .clz _ _ a | .popc _ _ a | .cmpeqi _ _ a _ | .cmplti _ _ a _ | .cmpltui _ _ a _
  | .jr _ a | .callr _ a | .loop _ _ a | .vmovm _ _ a | .vsplat _ _ a | .vld _ _ _ a | .sld _ _ _ a | .sldd _ _ _ a
  | .vlds _ _ _ a _ | .vldm _ _ _ a | .pfxld _ _ _ a | .mcfg _ _ a | .accinit _ _ a | .accnorm _ _ a
  | .accnormRow _ _ a | .accrd _ _ _ a _ | .accscale _ _ a | .accscaleRow _ _ a | .msmx _ _ _ _ a | .accst _ _ _ a
  | .accexp _ _ _ a | .accloss _ _ _ a | .acclog _ _ _ a | .accside _ _ _ a | .xidx _ a | .xpcnt _ _ a => readS rot [a]
  | .pand _ _ pa pb _ _ | .por _ _ pa pb _ _ | .pxor _ _ pa pb _ _ => readP [pa, pb]
  | .ret _ => readS rot [15]
  | .kwait _ ka kb => readK [ka, kb]
  | .mtsr _ d _ => readS rot [d]
  | .vaddF32 _ _ a b | .vsubF32 _ _ a b | .vmulF32 _ _ a b | .vminF32 _ _ a b | .vmaxF32 _ _ a b | .vaddBf16 _ _ a b
  | .vsubBf16 _ _ a b | .vmulBf16 _ _ a b | .vminBf16 _ _ a b | .vmaxBf16 _ _ a b | .vaddF16 _ _ a b
  | .vmulF16 _ _ a b | .vaddI32 _ _ a b | .vsubI32 _ _ a b | .vmulI32 _ _ a b | .vaddsI32 _ _ a b | .vminI32 _ _ a b
  | .vmaxI32 _ _ a b | .vaddI16 _ _ a b | .vsubI16 _ _ a b | .vmulI16 _ _ a b | .vaddsI16 _ _ a b | .vaddI8 _ _ a b
  | .vsubI8 _ _ a b | .vaddsI8 _ _ a b | .vcmpeqF32 _ _ a b | .vcmpltF32 _ _ a b | .vcmpleF32 _ _ a b
  | .vcmpeqI32 _ _ a b | .vcmpltI32 _ _ a b | .vcmpleI32 _ _ a b | .vsel _ _ a b | .vand _ _ a b | .vor _ _ a b
  | .vxor _ _ a b | .vshlI32 _ _ a b | .vshrI32 _ _ a b | .vsraI32 _ _ a b | .vperm _ _ a b => readV rot [a, b]
  | .vfmaF32 _ d a b | .vfmaBf16 _ d a b | .vfmaF16 _ d a b => readV rot [a, b, d]
  | .vmand _ _ ma mb | .vmor _ _ ma mb | .vmxor _ _ ma mb => readM [ma, mb]
  | .vcvt _ _ a _ _ | .vcvtSr _ _ a _ _ | .vpack _ _ a _ | .vunpk _ _ a _ | .vredAddF32 _ _ a | .vredMinF32 _ _ a
  | .vredMaxF32 _ _ a | .vredAddI32 _ _ a | .vscanAddF32 _ _ a | .vscanAddI32 _ _ a | .vbcast _ _ a _ | .vexp2 _ _ a
  | .vlog2 _ _ a | .vrcp _ _ a | .vrsq _ _ a => readV rot [a]
  | .vpart _ _ ma _ => readM [ma]
  | .vst _ d _ a | .vsts _ d _ a _ | .accwr _ d _ a _ => readS rot [a] ++ readV rot [d]
  | .sst _ d _ a | .sstd _ d _ a | .aadd _ d _ a | .aaddF32 _ d _ a | .amin _ d _ a | .amax _ d _ a | .axchg _ d _ a =>
    readS rot [a, d]
  | .vldg _ _ _ vi => readV rot [vi]
  | .vstg _ d _ vi => readV rot [d, vi]
  | .vstm _ d _ a mk => readS rot [a] ++ readV rot [d] ++ readM [mk]
  | .acas _ d _ a => readS rot [a, d, (d + 1)]
  | .xcopy _ _ a l | .xlin _ _ a l | .xgath _ _ a l | .xscat _ _ a l | .xchain _ _ a l | .xred _ _ a l
  | .xatom _ _ a l | .xbara _ _ a l | .xbarw _ _ a l | .xallr _ _ a l | .xrdsc _ _ a l | .xallg _ _ a l
  | .xbcst _ _ a l | .xpcan _ _ a l | .xmvb _ _ a l | .xlaunch _ _ a l | .xckpt _ _ a l | .xhadd _ _ a l
  | .xhdel _ _ a l | .xsend _ _ a l | .xrecv _ _ a l | .xsig _ _ a l =>
    readS rot [a, (a + 1), (a + 2)] ++ readK [litKA (lit l), litKB (lit l), litKC (lit l)]
  | .xmove _ _ _ a => readS rot [a, (a + 1), (a + 2)]
  | .xredv _ _ a l =>
    readS rot [a, (a + 1), (a + 2)] ++ readV rot [BitVec.ofNat 5 (litOpt (lit l))]
      ++ readK [litKA (lit l), litKB (lit l), litKC (lit l)]
  | _ => []

/-- The tiles whose rows a tile instruction reads or updates (R195, R199 to R205). -/
def tileReads (i : Instr) : List (BitVec 3) :=
  match i with
  | .accnorm _ t _ | .accnormRow _ t _ | .accrd _ _ t _ _ | .accwr _ _ t _ _ | .accscale _ t _ | .accscaleRow _ t _
  | .accexp _ _ t _ | .accside _ _ t _ => [t]
  | .msmx _ ts tout _ _ => [ts, tout]
  | _ => []

/-- A syllable of slot V0 or V1. -/
def vectorSlot (w : W32) : Bool := (wordSlot w).toNat == 2 || (wordSlot w).toNat == 3

/-- The register of a syllable's condition, read whether it acts or not (R73, R130): a mask in a vector slot, else a predicate. -/
def condReads (i : Instr) : List Dest :=
  match encode i with
  | w :: _ => if vectorSlot w then readM [wordPidx w] else readP [wordPidx w]
  | [] => []

/-- A syllable of slot M acts (R73). -/
def State.acts (s : State) (i : Instr) : Bool :=
  match encode i with
  | w :: _ => s.me.regs.pGet (wordPidx w) != wordInv w
  | [] => false

/-- A syllable that is no NOP. -/
def readsAny (i : Instr) : Bool :=
  match i with
  | .nop _ => false
  | _ => true

/-! ### Reports -/

/-- The parity error that a syllable meets in its slot: a register's first, with the slot (R211), then a tile's (R197). -/
def State.meets (s : State) (i : Instr) (slot : Nat) : Option Trap :=
  let bad := s.myCore.upsets
  if bad = [] ∨ ¬ readsAny i then none
  else
    let regs := condReads i ++ operandReads s.me.sys.rot s.tokenLit i
    if regs.any fun d => bad.contains (.reg s.fr.ctx.val d) then some ⟨0x305, 0, some slot, none⟩
    else if s.acts i then
      ((tileReads i).find? fun t => bad.contains (.tile t.toNat)).map fun t => ⟨0x304, t.toNat, none, none⟩
    else none

/-- CHKERR of a tile is set (R197). -/
def Core.markTile (k : Core) (t : Nat) : Core := k.setTile t { k.tile t with chkerr := true }

/-- A report waits for the issuing context's next boundary (R207); the first stands. A tile's sets CHKERR of the tile (R197). -/
def State.meet (s : State) (m : Option Trap) : State :=
  match m with
  | none => s
  | some t =>
    let s := if t.code = 0x304 then s.setMyCore (s.myCore.markTile t.faddr) else s
    s.setMe { s.me with report := s.me.report.or (some t) }

end Sys2Proof.Machine
end

