-- ==== Sys2Proof/WellFormed.lean ====
section
/-! DEFINITION. Which decoded instructions hold only field values their entries assign (R77). A syllable that
decodes but is not well formed raises the illegal-syllable fault. -/

namespace Sys2Proof

/-- A pair of registers starts at an even one (R77). -/
def evenReg (r : BitVec 5) : Bool := r.extractLsb' 0 1 == 0#1

/-- A group of four registers starts at a multiple of four. -/
def quadReg (r : BitVec 5) : Bool := r.extractLsb' 0 2 == 0#2

/-- The configuration register numbers of R180: six levels of each of four registers, then 0x20 to 0x25. -/
def matrixReg (cr : BitVec 8) : Bool :=
  decide (cr.toNat < 0x20 ∧ cr.toNat % 8 < 6) || decide (0x20 ≤ cr.toNat ∧ cr.toNat ≤ 0x25)

/-- The formats ACCWR accepts (R204). -/
def accWrFormat (f : BitVec 3) : Bool := f == 0#3 || f == 3#3 || f == 6#3 || f == 7#3

/-- The hutch operations a port number of XMOVE may name (R309). -/
def hutchOp (op : BitVec 4) : Bool := decide (1 ≤ op.toNat ∧ op.toNat ≤ 7)

/-- The field values of `i` are ones its entry assigns (R77). -/
def wellFormed (i : Instr) : Bool :=
  match i with
  | .nop _ => true
  | .add _ _ _ _ => true
  | .sub _ _ _ _ => true
  | .mul _ _ _ _ => true
  | .mulh _ _ _ _ => true
  | .and _ _ _ _ => true
  | .or _ _ _ _ => true
  | .xor _ _ _ _ => true
  | .andn _ _ _ _ => true
  | .shl _ _ _ _ => true
  | .shr _ _ _ _ => true
  | .sra _ _ _ _ => true
  | .min _ _ _ _ => true
  | .max _ _ _ _ => true
  | .addi _ _ _ _ => true
  | .muli _ _ _ _ => true
  | .andi _ _ _ _ => true
  | .ori _ _ _ _ => true
  | .xori _ _ _ _ => true
  | .shli _ _ _ _ => true
  | .shri _ _ _ _ => true
  | .srai _ _ _ _ => true
  | .addl _ _ _ _ => true
  | .addx3 _ _ _ _ => true
  | .movi _ _ _ => true
  | .movl _ _ _ => true
  | .movl64 _ _ _ => true
  | .clz _ _ _ => true
  | .popc _ _ _ => true
  | .cmpeq _ _ _ _ => true
  | .cmpne _ _ _ _ => true
  | .cmplt _ _ _ _ => true
  | .cmpge _ _ _ _ => true
  | .cmpltu _ _ _ _ => true
  | .cmpgeu _ _ _ _ => true
  | .cmpeqi _ _ _ _ => true
  | .cmplti _ _ _ _ => true
  | .cmpltui _ _ _ _ => true
  | .pand _ _ _ _ _ _ => true
  | .por _ _ _ _ _ _ => true
  | .pxor _ _ _ _ _ _ => true
  | .sel _ _ _ _ => true
  | .br _ _ => true
  | .call _ _ => true
  | .jr _ _ => true
  | .callr _ _ => true
  | .ret _ => true
  | .brl _ _ => true
  | .loop _ _ _ => true
  | .sync _ => true
  | .kwait _ _ _ => true
  | .trap _ code => decide (0x3C0#10 ≤ code)
  | .eret _ => true
  | .yield _ => true
  | .tend _ => true
  | .mfsr _ _ _ => true
  | .mtsr _ _ _ => true
  | .rden _ _ => true
  | .rand _ _ => true
  | .seedreq _ _ _ => true
  | .vaddF32 _ _ _ _ => true
  | .vsubF32 _ _ _ _ => true
  | .vmulF32 _ _ _ _ => true
  | .vfmaF32 _ _ _ _ => true
  | .vminF32 _ _ _ _ => true
  | .vmaxF32 _ _ _ _ => true
  | .vaddBf16 _ _ _ _ => true
  | .vsubBf16 _ _ _ _ => true
  | .vmulBf16 _ _ _ _ => true
  | .vfmaBf16 _ _ _ _ => true
  | .vminBf16 _ _ _ _ => true
  | .vmaxBf16 _ _ _ _ => true
  | .vaddF16 _ _ _ _ => true
  | .vmulF16 _ _ _ _ => true
  | .vfmaF16 _ _ _ _ => true
  | .vaddI32 _ _ _ _ => true
  | .vsubI32 _ _ _ _ => true
  | .vmulI32 _ _ _ _ => true
  | .vaddsI32 _ _ _ _ => true
  | .vminI32 _ _ _ _ => true
  | .vmaxI32 _ _ _ _ => true
  | .vaddI16 _ _ _ _ => true
  | .vsubI16 _ _ _ _ => true
  | .vmulI16 _ _ _ _ => true
  | .vaddsI16 _ _ _ _ => true
  | .vaddI8 _ _ _ _ => true
  | .vsubI8 _ _ _ _ => true
  | .vaddsI8 _ _ _ _ => true
  | .vcmpeqF32 _ _ _ _ => true
  | .vcmpltF32 _ _ _ _ => true
  | .vcmpleF32 _ _ _ _ => true
  | .vcmpeqI32 _ _ _ _ => true
  | .vcmpltI32 _ _ _ _ => true
  | .vcmpleI32 _ _ _ _ => true
  | .vmand _ _ _ _ => true
  | .vmor _ _ _ _ => true
  | .vmxor _ _ _ _ => true
  | .vmovm _ _ _ => true
  | .vsel _ _ _ _ => true
  | .vand _ _ _ _ => true
  | .vor _ _ _ _ => true
  | .vxor _ _ _ _ => true
  | .vshlI32 _ _ _ _ => true
  | .vshrI32 _ _ _ _ => true
  | .vsraI32 _ _ _ _ => true
  | .vcvt _ _ _ _ _ => true
  | .vcvtSr _ _ _ _ _ => true
  | .vpack _ _ _ _ => true
  | .vunpk _ _ _ _ => true
  | .vredAddF32 _ _ _ => true
  | .vredMinF32 _ _ _ => true
  | .vredMaxF32 _ _ _ => true
  | .vredAddI32 _ _ _ => true
  | .vscanAddF32 _ _ _ => true
  | .vscanAddI32 _ _ _ => true
  | .vperm _ _ _ _ => true
  | .vbcast _ _ _ _ => true
  | .vsplat _ _ _ => true
  | .vpart _ _ _ _ => true
  | .vexp2 _ _ _ => true
  | .vlog2 _ _ _ => true
  | .vrcp _ _ _ => true
  | .vrsq _ _ _ => true
  | .vrand _ _ => true
  | .vld _ _ _ _ => true
  | .vst _ _ _ _ => true
  | .sld _ _ _ _ => true
  | .sst _ _ _ _ => true
  | .sldd _ _ _ _ => true
  | .sstd _ _ _ _ => true
  | .vlds _ _ _ _ _ => true
  | .vsts _ _ _ _ _ => true
  | .vldg _ _ _ _ => true
  | .vstg _ _ _ _ => true
  | .vldm _ _ _ _ => true
  | .vstm _ _ _ _ _ => true
  | .aadd _ _ _ _ => true
  | .aaddF32 _ _ _ _ => true
  | .amin _ _ _ _ => true
  | .amax _ _ _ _ => true
  | .axchg _ _ _ _ => true
  | .acas _ d _ _ => evenReg d
  | .pfxld _ d _ _ => evenReg d
  | .mcfg _ cr _ => matrixReg cr
  | .mcfgl _ cr _ => matrixReg cr
  | .mnest _ => true
  | .accinit _ _ _ => true
  | .accinitU _ _ => true
  | .accnorm _ _ _ => true
  | .accnormRow _ _ _ => true
  | .accrd _ _ _ _ _ => true
  | .accwr _ _ _ _ f => accWrFormat f
  | .accscale _ _ _ => true
  | .accscaleRow _ _ _ => true
  | .msmx _ ts tout _ _ => ts != tout
  | .mchk _ mode => mode != 3#2
  | .accst _ _ _ _ => true
  | .accexp _ _ _ _ => true
  | .accloss _ _ _ _ => true
  | .acclog _ _ _ _ => true
  | .accside _ _ _ _ => true
  | .mcfgrd _ cr _ => matrixReg cr
  | .xcopy _ _ _ _ => true
  | .xlin _ _ _ _ => true
  | .xidx _ _ => true
  | .xgath _ _ _ _ => true
  | .xscat _ _ _ _ => true
  | .xmove _ op _ _ => hutchOp op
  | .xchain _ _ _ _ => true
  | .xstat _ _ _ => true
  | .xfence _ _ sc => sc != 7#3
  | .xred _ _ a _ => quadReg a
  | .xatom _ _ a _ => quadReg a
  | .xredv _ _ a _ => evenReg a
  | .xbara _ _ _ _ => true
  | .xbarw _ _ _ _ => true
  | .xallr _ _ _ _ => true
  | .xrdsc _ _ _ _ => true
  | .xallg _ _ _ _ => true
  | .xbcst _ _ _ _ => true
  | .xpcnt _ _ _ => true
  | .xpcan _ _ _ _ => true
  | .xmvb _ _ a _ => evenReg a
  | .xlaunch _ _ _ _ => true
  | .xckpt _ _ a _ => quadReg a
  | .xhadd _ _ a _ => quadReg a
  | .xhdel _ _ a _ => quadReg a
  | .xsend _ _ a _ => quadReg a
  | .xrecv _ _ a _ => quadReg a
  | .xsig _ _ a _ => quadReg a
  | .bundleIssue => true
  | .loopSkipScan => true
  | .contextSwitch => true
  | .resultLand => true
  | .energyBudgetFreeze => true
  | .freezeRequest => true
  | .chestEntryLand => true
  | .csigCompare => true
  | .reexecutionVote => true
  | .suspectScoreDecay => true
  | .pairModeChange => true
  | .migration => true
  | .staticAccessPerform => true
  | .trestleArrive => true
  | .trestleRelease => true
  | .holdClk => true
  | .nestStepRead => true
  | .nestStepUpdate => true
  | .nestEnd => true
  | .arrivalUnitQueue => true
  | .arrivalUnitRetry => true
  | .arrivalUnitApply => true
  | .transferStart => true
  | .transferPiecePerform => true
  | .transferComplete => true
  | .faultBufferFree => true
  | .staticCopyRead => true
  | .staticCopyWrite => true
  | .indexRowMove => true
  | .hutchPack => true
  | .hutchUnpack => true
  | .hutchConvert => true
  | .hutchReblock => true
  | .hutchTranspose => true
  | .hutchDpenc => true
  | .hutchDpdec => true
  | .barrierArrival => true
  | .translationWalk => true
  | .tinv => true
  | .tinvComplete => true
  | .transferResume => true
  | .writeQueueAccept => true
  | .writeQueueDrain => true
  | .reductionBarrierSend => true
  | .xmvbOutput => true
  | .patrolRead => true
  | .powerLimitExceeded => true
  | .s1Exit => true
  | .undervoltageSag => true
  | .parkNextDie => true
  | .parkGraceExpiry => true
  | .supplyRecovery => true
  | .unparkDie => true
  | .pfwNAssert => true
  | .undervoltageTrip => true
  | .shedExhausted => true
  | .quiesceEnd => true
  | .restart => true
  | .reserveGaugeUpdate => true
  | .retainedWait => true
  | .checkpointWrite => true
  | .tenantScrub => true
  | .moduleReset => true
  | .attestationRequest => true
  | .benchTest => true
  | .firmwareInstall => true
  | .riskUpdate => true
  | .checkpointDue => true
  | .checkpointAck => true
  | .checkpointWithdraw => true
  | .restoreTimeout => true
  | .submitDoorbell => true
  | .launchAccept => true
  | .launchContinue => true
  | .launchAbort => true
  | .taskNodeActivate => true
  | .condNodeActivate => true
  | .whileNodeActivate => true
  | .joinNodeActivate => true
  | .endNodeActivate => true
  | .instanceEnqueue => true
  | .instanceBind => true
  | .gangReserve => true
  | .workSteal => true
  | .dispatchGo => true
  | .loadingEnd => true
  | .firstIssue => true
  | .taskComplete => true
  | .preemptExamine => true
  | .launchHold => true
  | .completionRecord => true
  | .seedreqComplete => true
  | .linkUnitReceive => true
  | .linkReplay => true
  | .portDead => true
  | .linkStateUpdate => true
  | .readRequest => true
  | .writeRequest => true
  | .reductionRequest => true
  | .planeData => true
  | .messageData => true
  | .readData => true
  | .done => true
  | .planeAcknowledgement => true
  | .oldValue => true
  | .exponent => true
  | .cutRequest => true
  | .errorNotice => true
  | .rejoin => true
  | .rejack => true
  | .readyToSend => true
  | .clearToSend => true
  | .restoreDigest => true
  | .drainRound => true
  | .streamResume => true
  | .waitlimExpiry => true
  | .waitsReexamine => true
  | .hostMemRead => true
  | .hostMemWrite => true
  | .hostSnoop => true
  | .registerWrite => true
  | .portUp => true
  | .entropyHealthTest => true
  | .idleClkCharge => true

end Sys2Proof
end

