-- ==== Sys2Proof/Machine/Issue.lean ====
section
/-! DEFINITION. The issue of a syllable: its charge (R233), its condition (R73), what its bundle asks for, and
Control after the final issue (R79, R86, R112, R118 to R121). A meaning of exec is the issue of a bundle of that
one syllable by the context of the issue frame. -/

namespace Sys2Proof.Machine

/-- An issue enters the machine: it is charged the weight of its class (R233) and takes its place in the issue
order (R84). -/
def State.enter (s : State) (cls : Fin 16) : State :=
  s.setMe { s.me with ord := s.me.ord + 1, charge := s.me.charge + (s.myCore.ewt[cls]).toNat }

/-- An operation that acts only when its condition is 1 (R73). -/
def State.gate (s : State) (b : Bool) (f : State → State) : State := if b then f s else s

/-- What a bundle has asked for is forgotten: the frame of a bundle's first issue. -/
def Frame.clear (f : Frame) : Frame :=
  { f with branch := none, loop := false, trap := none, eret := false, yield := false, tend := none, draw := none
           copies := [] }

/-- The bulk transfers of R285. -/
def bulkOp (i : Instr) : Bool :=
  match i with
  | .xcopy _ _ _ _ | .xlin _ _ _ _ | .xgath _ _ _ _ | .xscat _ _ _ _ => true
  | _ => false

/-- The other operations that allocate an identifier (R283, R285). -/
def otherOp (i : Instr) : Bool :=
  match i with
  | .seedreq _ _ _ | .xmove _ _ _ _ | .xchain _ _ _ _ | .xfence _ _ _ | .xred _ _ _ _ | .xatom _ _ _ _
  | .xredv _ _ _ _ | .xbara _ _ _ _ | .xbarw _ _ _ _ | .xallr _ _ _ _ | .xrdsc _ _ _ _ | .xallg _ _ _ _
  | .xbcst _ _ _ _ | .xpcan _ _ _ _ | .xmvb _ _ _ _ | .xlaunch _ _ _ _ | .xckpt _ _ _ _ | .xhadd _ _ _ _
  | .xhdel _ _ _ _ | .xsend _ _ _ _ | .xrecv _ _ _ _ | .xsig _ _ _ _ => true
  | _ => false

/-- The frame in which a bundle of one syllable acts: one issue. -/
def Frame.solo (f : Frame) : Frame := { f.clear with reps := 1, fresh := true, bulk := 0, other := 0 }

/-- The frame in which a bundle of one syllable is checked: with the transfers it will make (R285). -/
def Frame.alone (f : Frame) (i : Instr) : Frame :=
  { f.solo with bulk := if bulkOp i then 1 else 0, other := if otherOp i then 1 else 0 }

/-- The limits of R285: the transfers in flight and every issue the bundle will make. -/
def State.inFlightOver (s : State) : Bool :=
  let xs := s.myCore.xfers
  decide ((xs.filter fun x => x.bulk).length + s.fr.bulk > 32 ∨ (xs.filter fun x => !x.bulk).length + s.fr.other > 16)

/-- A branch is taken to `target` (R86): the first of the bundle stands, and a second to another target sets
BRCONF. `f` is what the branch does beside, done only when it stands. -/
def State.branchTo (s : State) (target : W32) (f : State → State) : State :=
  match s.fr.branch with
  | some t => if t = target then s else s.setSticky 0x1#4
  | none => f (s.setFr { s.fr with branch := some target })

/-- LoopEndUpdate of R112: its writes land at the end of the clk and rank above every slot. Second, whether the
back edge is to be taken. -/
def State.loopEnd (s : State) : State × Bool :=
  let y := s.me.sys
  let S := y.nstg.toNat
  if S = 0 then (s, false)
  else
    let lc := y.lc - 1
    let s := (s.putSr 8 1 0x10 (lc.zeroExtend 64)).putSr 8 1 0x12 ((y.rot - 1).zeroExtend 64)
    let s := (List.range (S - 1)).foldl (fun s i =>
        -- stage j = S − 1 − i takes the predicate of the stage below
        s.putP 8 1 (BitVec.ofNat 3 (4 + (S - 1 - i))) (s.me.regs.pGet (BitVec.ofNat 3 (3 + (S - 1 - i))))) s
    let s := s.putP 8 1 4#3 (decide (S ≤ lc.toNat))
    if lc = 0 then (s.putSr 8 1 0x11 0, false) else (s, true)

/-- Control(B) of R79: after the final issue control passes by R86, and a TRAP, TEND or YIELD that acted takes
effect (R118, R120, R121). A TRAP suppresses TEND and YIELD, a TEND suppresses YIELD; inside a gang-timed region a context keeps its
core (R256). A LOOP of no trips sends the scan to LSA
(R113). DESIGN CHOICE (log 62): beside an ERET that acts, a LOOP of no trips leaves neither LSK nor the target: ERET's LSK := PLSK and
its target stand. -/
def State.control (s : State) : State :=
  let f := s.fr
  let first := s.me.pc
  let r := if f.tmpl = 3 ∧ ¬ f.loop then s.loopEnd else (s, false)
  let s := r.1
  let target : W32 :=
    if f.loop ∧ s.me.lsk ∧ ¬ f.eret then s.me.lsa
    else
      match f.branch with
      | some t => t
      | none => if r.2 then s.me.lsa else f.next
  let s := if f.eret then s.returnFromTrap f.core f.ctx else s
  let s := s.setMe { s.me with pc := target, run := none }
  match f.trap with
  | some (slot, code) => s.takeTrap f.core f.ctx 1 ⟨code, 0, some slot, none⟩ target
  | none =>
    match f.tend with
    | some slot =>
      let s := s.setMe { s.me with ended := some slot, pc := first, region := false }
      s.setMyCore (s.myCore.release f.ctx)
    | none =>
      let s :=
        if f.eret then s
        else if f.branch.isSome then s.setMyCore { s.myCore with wait := 1 } else s
      if f.yield ∧ ¬ s.me.region then
        let s := s.setMe { s.me with dead := s.myCore.wait }
        s.setMyCore (s.myCore.release f.ctx)
      else s

/-- The trap of a syllable: illegal-syllable first (R77, R78 check 4), then its own issue-time fault. A bundle-level
cause names no slot (R19). -/
def sylTrap (slot : Nat) (legal : Bool) (chk : Option Trap) : Option Trap :=
  if ¬ legal then some ⟨0x002, 0, some slot, none⟩
  else chk.map fun t => if t.code = 0x001 then t else { t with slot := some (t.slot.getD slot) }

/-- The literal index of a sticky syllable that has one (R76, R79). -/
def litIndex (i : Instr) : Option Nat :=
  match i with
  | .vlds _ _ _ _ l => some l.toNat
  | .vsts _ _ _ _ l => some l.toNat
  | .xcopy _ _ _ l => some l.toNat
  | .xlin _ _ _ l => some l.toNat
  | .xgath _ _ _ l => some l.toNat
  | .xscat _ _ _ l => some l.toNat
  | .xchain _ _ _ l => some l.toNat
  | .xred _ _ _ l => some l.toNat
  | .xatom _ _ _ l => some l.toNat
  | .xredv _ _ _ l => some l.toNat
  | .xbara _ _ _ l => some l.toNat
  | .xbarw _ _ _ l => some l.toNat
  | .xallr _ _ _ l => some l.toNat
  | .xrdsc _ _ _ l => some l.toNat
  | .xallg _ _ _ l => some l.toNat
  | .xbcst _ _ _ l => some l.toNat
  | .xpcan _ _ _ l => some l.toNat
  | .xmvb _ _ _ l => some l.toNat
  | .xlaunch _ _ _ l => some l.toNat
  | .xckpt _ _ _ l => some l.toNat
  | .xhadd _ _ _ l => some l.toNat
  | .xhdel _ _ _ l => some l.toNat
  | .xsend _ _ _ l => some l.toNat
  | .xrecv _ _ _ l => some l.toNat
  | .xsig _ _ _ l => some l.toNat
  | _ => none

/-- The operations the asynchronous map marks one-shot (R81, R95). -/
def oneShot (i : Instr) : Bool :=
  match i with
  | .xchain _ _ _ _ => true
  | .xfence _ _ _ => true
  | .xbara _ _ _ _ => true
  | .xbarw _ _ _ _ => true
  | .xallr _ _ _ _ => true
  | .xrdsc _ _ _ _ => true
  | .xallg _ _ _ _ => true
  | .xbcst _ _ _ _ => true
  | .xpcan _ _ _ _ => true
  | .xlaunch _ _ _ _ => true
  | .xckpt _ _ _ _ => true
  | .xhadd _ _ _ _ => true
  | .xhdel _ _ _ _ => true
  | .xsend _ _ _ _ => true
  | .xrecv _ _ _ _ => true
  | .xsig _ _ _ _ => true
  | _ => false

/-- The place of a sticky slot among the current operations (R82). -/
def curIndex (slot : Nat) : Option (Fin 5) :=
  match slot with
  | 2 => some 0
  | 3 => some 1
  | 4 => some 2
  | 5 => some 3
  | 7 => some 4
  | _ => none

/-- Capture of R79: the syllable and its literal become the slot's current operation, a one-shot operation
leaving NOP behind it (R81). -/
def State.captureCur (s : State) (i : Instr) (slot : Nat) : State :=
  match curIndex slot with
  | none => s
  | some j =>
    let lit := match litIndex i with
      | some n => if n = 15 then 0 else s.literal n
      | none => 0
    s.setMe { s.me with cur := s.me.cur.set j (if oneShot i then {} else ⟨(encode i).headD 0, lit⟩) }

/-- Each issuing clk of a bundle is charged to class 15 (R233). -/
def State.chargeBundle (s : State) : State :=
  s.setMe { s.me with charge := s.me.charge + (s.myCore.ewt[(15 : Fin 16)]).toNat }

/-- The issue of a bundle of one syllable (R78, R79): a failing check traps and the bundle changes nothing;
else the syllable acts, control passes, and a parity error that it met is reported (R211). -/
def State.issueSyl (s : State) (i : Instr) (slot : Nat) (legal : State → Bool) (chk : State → Option Trap)
    (act : State → State) : State :=
  let t := s.setFr (s.fr.alone i)
  match sylTrap slot (legal t) (chk t) with
  | some f => t.takeTrap t.fr.core t.fr.ctx 0 f t.me.pc
  | none => (act ((s.setFr s.fr.solo).chargeBundle.captureCur i slot)).control.meet (s.meets i slot)

/-- No literal of the syllable can be illegal: its fields decide (R77). -/
def fieldsOnly (i : Instr) (_ : State) : Bool := wellFormed i
/-- The instruction has no issue-time fault. -/
def noFault (_ : State) : Option Trap := none

/-- The matrix grant (R179). -/
def grantFault (s : State) : Option Trap := if s.me.bind.mgrant then none else some ⟨0x085, 0, none, none⟩

/-- The matrix grant of an M-slot syllable: a handler has none (R179, R209). -/
def matrixFault (s : State) : Option Trap :=
  if s.me.bind.mgrant && !s.me.sys.intrap then none else some ⟨0x085, 0, none, none⟩

/-- A NOP of slot M is a syllable of slot M, which the matrix grant covers (R179). -/
def nopFault (tg : TagAny) (s : State) : Option Trap := if tg.slot = 6 then matrixFault s else none

end Sys2Proof.Machine
end

