-- ==== Sys2Proof/Machine/Transfer.lean ====
section
/-! DEFINITION. Channels and transfer identifiers (R282 to R286): allocation, the transfer a syllable makes, its
completion, the watermark and fault records (R347). -/

namespace Sys2Proof.Machine

/-- The tokens a token literal consumes, as read in the issue clk (R95): k0 places no edge. -/
def State.litTokens (s : State) (lit : W32) : List Word :=
  [s.me.regs.kGet (litKA lit), s.me.regs.kGet (litKB lit), s.me.regs.kGet (litKC lit)].filter tokVal

/-- The next identifier of a channel of the issuing core (R283). -/
def State.nextXid (s : State) (ch : Fin 8) : Xid := ⟨ch.val, s.myCore.chans[ch].nid⟩

/-- An identifier is allocated on a channel (R283). -/
def Core.alloc (k : Core) (ch : Fin 8) : Core :=
  let c := k.chans[ch]
  { k with chans := k.chans.set ch { c with nid := c.nid + 1 } }

/-- A transfer of the issuing context, with what every transfer captures at issue (R308). -/
def State.mkXfer (s : State) (i : Instr) (ch : Fin 8) (lit : W32) (args recd : List Word) : Xfer :=
  { op := i, x := s.nextXid ch, core := s.fr.core, ctx := s.fr.ctx.val, asid := s.me.bind.asid.toNat
    wid := s.me.sys.wid, taskid := s.me.sys.taskid, lit := lit, uses := s.litTokens lit, bulk := bulkOp i
    recd := recd, args := args, vec := [], wins := s.me.sys.wins, fixed := false
    since := s.myDie.scc.toNat, ord := s.me.ord, issued := s.wcc.toNat }

/-- A transfer is issued: its identifier is allocated and it is in flight (R283, R285). -/
def State.addXfer (s : State) (x : Xfer) (ch : Fin 8) : State :=
  let k := s.myCore.alloc ch
  s.setMyCore { k with xfers := k.xfers ++ [x] }

/-- The transfer of a core that a channel and identifier name. -/
def Core.xfer? (k : Core) (x : Xid) : Option Xfer := k.xfers.find? fun t => decide (t.x = x)

/-- The transfer's record replaced. -/
def Core.setXfer (k : Core) (t : Xfer) : Core :=
  { k with xfers := k.xfers.map fun u => if u.x = t.x then t else u }

/-- WM passes each identifier whose transfer and all earlier ones are complete (R284). -/
def Channel.advance : Nat → Channel → Channel
  | 0, c => c
  | n + 1, c =>
    if c.done.contains c.wm then
      Channel.advance n { c with wm := c.wm + 1, done := c.done.filter fun i => i != c.wm }
    else c

/-- A fault record enters the buffer (R347). A taken one takes no room, and stands until Vizin has failed its launch or resumed its
transfer (R349). -/
def putRecord (r : FaultRec) (l : List FaultRec) : List FaultRec := l ++ [r]

/-- A transfer is complete (R284): it leaves flight, its pending ranges are freed (R292), the watermark moves,
and an error leaves its fault record (R286). -/
def Core.complete (k : Core) (t : Xfer) : Core :=
  let ch : Fin 8 := ⟨t.x.ch % 8, Nat.mod_lt _ (by omega)⟩
  let c := k.chans[ch]
  let c := Channel.advance (c.done.length + 1) { c with done := t.x.id :: c.done }
  let c := { c with whose := (c.whose ++ [(t.x.id, t.taskid)]).filter fun p => c.done.contains p.1 }
  { k with
    chans := k.chans.set ch c
    xfers := k.xfers.filter fun u => !decide (u.x = t.x)
    pend := k.pend.filter fun p => !decide (p.x = t.x)
    faults := match t.err with
      | some (code, faddr) => putRecord ⟨t, code, faddr, false⟩ k.faults
      | none => k.faults }

/-- Complete in the state. -/
def State.completeXfer (s : State) (t : Xfer) : State := s.setCore t.core ((s.core t.core).complete t)

/-- A transfer ends with an error (R286). -/
def State.failXfer (s : State) (t : Xfer) (code faddr : Nat) : State :=
  s.completeXfer { t with err := some (code, faddr) }

/-- A transfer of a task in a context. -/
def Xfer.ofTask (t : Xfer) (ctx : Nat) (wid taskid : Word) : Bool := t.ctx == ctx && t.wid == wid && t.taskid == taskid

/-- The untaken error of a task's transfers with the lowest channel and identifier (R121). -/
def Core.taskError (k : Core) (ctx : Nat) (wid taskid : Word) : Option FaultRec :=
  (k.faults.filter fun r => !r.taken && r.xf.ofTask ctx wid taskid).foldl
    (fun b r =>
      match b with
      | none => some r
      | some q => if r.xf.x.ch < q.xf.x.ch ∨ (r.xf.x.ch = q.xf.x.ch ∧ r.xf.x.id.toNat < q.xf.x.id.toNat) then some r else b)
    none

/-- The trap that reports a fault record (R117). -/
def FaultRec.trap (r : FaultRec) : Trap := ⟨r.code, r.faddr, none, some r.xf.x⟩

end Sys2Proof.Machine
end

