-- ==== Sys2Proof/Machine/LocalMem.lean ====
section
/-! DEFINITION. Local memory instructions (R154 to R175, R243 to R251): slots L0 and L1. An issue makes the checks
of R161, captures its operands and enters an access; Access.loads and Access.puts say what the access does in its
perform clk. -/

namespace Sys2Proof.Machine

/-! ### Places and latencies -/

/-- Grid hops between two clusters of a die (R245). -/
def hops (a b : Nat) : Nat :=
  let d (x y : Nat) := (x - y) + (y - x)
  d (a % 6) (b % 6) + d (a / 6) (b / 6)

/-- The window names another cluster's vault (R163). -/
def Win.lateral (w : Win) (core : Nat) : Bool := w.kind == 2 && w.vcl != clusterOf core

/-- The perform latency of an access through a window (R93). -/
def Win.performLat (w : Win) (core : Nat) : Nat :=
  if w.kind = 1 then 3 else if w.lateral core then 12 + 2 * hops (clusterOf core) w.vcl else 8

/-- The clk from the issue until a result lands (R93), in all. -/
def AccKind.landLat (k : AccKind) (perform : Nat) : Nat :=
  match k with
  | .vlds | .vldg => perform + 4
  | .aadd | .aaddF | .amin | .amax | .axchg | .acas | .pfxld => perform + 1
  | _ => perform

def AccKind.isAtomic (k : AccKind) : Bool :=
  match k with
  | .aadd | .aaddF | .amin | .amax | .axchg | .acas => true
  | _ => false

def AccKind.isStore (k : AccKind) : Bool :=
  match k with
  | .vst | .sst | .sstd | .vsts | .vstg | .vstm => true
  | _ => false

/-- Accesses whose lanes address elements of their own (R162). -/
def AccKind.isStrided (k : AccKind) : Bool :=
  match k with
  | .vlds | .vsts | .vldg | .vstg => true
  | _ => false

/-- The formats whose register image is a bit copy (R156). -/
def copiedFmt (f : Nat) : Bool := decide (f ≤ 3 ∨ f = 10 ∨ f = 11 ∨ f = 12)

/-- The window formats an instruction accepts (R167 to R174). -/
def AccKind.accepts (k : AccKind) (f : Nat) : Bool :=
  match k with
  | .vld | .vst | .sld | .sst | .vlds | .vldg | .vstm => decide (f ≤ 12)
  | .sldd | .sstd | .vsts | .vstg | .vldm => copiedFmt f
  | .aadd | .amin | .amax => f == 0 || f == 12
  | .aaddF => f == 1
  | .axchg | .acas => f == 0 || f == 1 || f == 12
  | .pfxld => f == 13
  | .msmx | .copyRead | .copyWrite | .xstat | .xpcnt => true

/-- Bytes of a digit-plane tile (R409). -/
def tileBytes : Nat := 832

/-- Bits of what one element offset names: a tile under FMT 13 (R174, R409). DESIGN CHOICE (notes/assumptions/53.md): the byte
offset that a format mismatch reports is scaled by the window's own unit. -/
def offsetBits (f : Nat) : Nat := if f = 13 then 8 * tileBytes else elemBits f

/-- Elements a contiguous vector access moves (R156). -/
def vldCount (f : Nat) : Nat := if f = 2 ∨ f = 3 ∨ f = 11 then 128 else if f = 10 then 256 else 64

/-- The element offsets an access addresses, in lane order (R155, R167 to R174). -/
def AccKind.elems (k : AccKind) (f : Nat) (e step : Int) (idx : Lanes) : List Int :=
  match k with
  | .vld | .vst | .vstm => (List.range (vldCount f)).map fun (j : Nat) => e + (j : Int)
  | .vlds | .vsts => (List.range 64).map fun (j : Nat) => e + (j : Int) * step
  | .vldg | .vstg => idx.map fun x => (x.toNat : Int)
  | .sldd | .sstd | .vldm => (List.range (64 / elemBits f)).map fun (j : Nat) => e + (j : Int)
  | _ => [e]

/-- The first byte of element x, from the region start. -/
def byteLo (bits : Nat) (x : Int) : Int := x * bits / 8
/-- The byte after the last of element x. -/
def byteHi (bits : Nat) (x : Int) : Int := -(-((x + 1) * bits) / 8)

/-! ### The checks of R161 -/

/-- A window-relative offset as FADDR reports it (R161). -/
def faddrOf (x : Int) : Nat := (x % 2 ^ 55).toNat

/-- The least of a list of offsets. -/
def leastOf (l : List Int) : Option Int :=
  l.foldl (fun b x => match b with
    | none => some x
    | some y => if x < y then some x else some y) none

/-- The lowest byte of the elements that lies outside the region (R161 check 4). -/
def rangeFault (bits len : Nat) (es : List Int) : Option Int :=
  leastOf (es.filterMap fun x =>
    if byteLo bits x < 0 then some (byteLo bits x)
    else if byteHi bits x > len then some (max (byteLo bits x) len) else none)

/-- The lowest line that shares its bank with another line of the sweep (R154, R161, R162). -/
def lineConflict (ls : List Nat) : Option Int :=
  leastOf ((ls.filter fun a => ls.any fun b => a % 16 == b % 16 && a != b).map fun (a : Nat) => (a : Int))

/-- SRAM lines of the data bytes of a sweep. -/
def Win.dataLines (w : Win) (es : List Int) : List Nat :=
  es.flatMap fun x =>
    let lo := w.base + (byteLo (offsetBits w.fmt) x).toNat
    let hi := w.base + (byteHi (offsetBits w.fmt) x).toNat
    (List.range ((hi - 1) / 64 + 1 - lo / 64)).map fun i => lo / 64 + i

/-- SRAM lines of the shadow bytes of a sweep. -/
def Win.shadowLines (w : Win) (es : List Int) : List Nat :=
  if blockFmt w.fmt then es.map fun x => (w.shadow + w.scaleIndex x.toNat) / 64 else []

/-- Sixteen lanes a sweep for a strided or gathered access, one sweep for any other (R162). -/
def sweeps (strided : Bool) (es : List Int) : List (List Int) :=
  if strided then (List.range 4).map fun i => (es.drop (16 * i)).take 16 else [es]

/-- The window-relative first byte of the line a bank conflict reports (R161, R162). -/
def Win.bankFault (w : Win) (strided : Bool) (es : List Int) : Option Int :=
  (sweeps strided es).findSome? fun sw =>
    (leastOf ((lineConflict (w.shadowLines sw)).toList ++
        if strided then (lineConflict (w.dataLines sw)).toList else [])).map fun l => l * 64 - w.base

/-- Some enabled reservation of the bind record names the cluster and the perform clk (R247). -/
def Bind.lateralOk (b : Bind) (vcl clk : Nat) : Bool :=
  b.lres.toList.any fun r =>
    r.getLsbD 63 && decide ((r.extractLsb' 58 5).toNat = vcl) && r.getLsbD (clk % 32)

/-- The physical byte spans an access touches: its data bytes, then its shadow bytes (R29, R43). -/
def Win.spans (w : Win) (core : Nat) (es : List Int) : List (Nat × Nat) :=
  es.map (fun x => (w.addr core + (byteLo (offsetBits w.fmt) x).toNat, w.addr core + (byteHi (offsetBits w.fmt) x).toNat))
    ++ if blockFmt w.fmt then
        es.map fun x => let a := w.scaleAddr core + w.scaleIndex x.toNat; (a, a + 1)
      else []

/-- Elements, and the other present members of the blocks that a store to them rewrites (R44, R158). -/
def Win.withBlocks (w : Win) (es : List Int) : List Int :=
  if blockFmt w.fmt then
    es ++ ((distinct (es.map fun x => w.scaleIndex x.toNat)).flatMap fun b =>
      ((w.members b).filterMap fun o => o.map fun (e : Nat) => (e : Int)).filter fun e => !es.contains e)
  else es

/-- The lowest byte of spans that lies in one of the ranges. -/
def spanOverlap (sp rs : List (Nat × Nat)) : Option Nat :=
  (leastOf (sp.flatMap fun a => rs.filterMap fun r =>
    if max a.1 r.1 < min a.2 r.2 then some ((max a.1 r.1 : Nat) : Int) else none)).map Int.toNat

/-- The ranges an access of the bundle is checked against (R164). -/
def State.pendingRanges (s : State) : List (Nat × Nat) :=
  (s.myCore.pend.map fun p => (p.lo, p.hi)) ++ s.fr.copies

/-- The element offsets of the issues of a bundle, by their bases (R80, R160): the register at the first issue, the
stepped value at each later one. -/
def State.issueBases (s : State) (stride : Word) (a : BitVec 5) : List Word :=
  let n0 := if s.fr.fresh then 0 else 1
  (List.range s.fr.reps).map fun r =>
    let n := r + n0
    if a = 0 then (if n = 0 then 0 else stride) else s.nowS a + BitVec.ofNat 64 n * stride

/-- The stride register of an L slot (R14, R80). -/
def State.strideL (s : State) (tg : Tag2) : Word := if tg.second then s.me.sys.strl1 else s.me.sys.strl0

/-- The index vector of a gathered access, read at the bundle's first issue (R160). -/
def State.idxV (s : State) (vi : BitVec 5) : Lanes := s.opRegs.vGet s.me.sys.rot vi

/-- The checks of R161, in their order, over the element offsets of every issue of the bundle; but an access to a digit-plane tile that
is pending misses its operand before its format counts (R431, notes/assumptions/53.md). DESIGN CHOICE
(notes/assumptions/53.md): a gathered access starts at lane 0's element. -/
def localFault (k : AccKind) (w : Win) (starts : List Int) (step : Int) (idx : Lanes) (s : State) : Option Trap :=
  let core := s.fr.core
  let bits := offsetBits w.fmt
  let issues := starts.map fun e => k.elems w.fmt e step idx
  let first (l : List Int) : Nat := faddrOf (byteLo bits (l.headD 0))
  let mk (code faddr : Nat) : Trap := ⟨code, faddr, none, none⟩
  if w.kind = 0 ∨ (¬ k.isStore ∧ ¬ w.rd) ∨ ((k.isStore ∨ k.isAtomic) ∧ ¬ w.wr) then some (mk 0x081 (first (issues.headD [])))
  else if ¬ k.accepts w.fmt then
    match (if w.fmt = 13 then starts.findSome? fun e => spanOverlap (w.spans core [e]) s.pendingRanges else none) with
    | some b => some (mk 0x105 (faddrOf ((b : Int) - w.addr core)))
    | none => some (mk 0x082 (first (issues.headD [])))
  else
    let odd := issues.find? fun es =>
      (k == .sldd || k == .sstd || k == .vldm) && byteLo bits (es.headD 0) % 8 != 0
    match odd with
    | some es => some (mk 0x083 (first es))
    | none =>
      match issues.findSome? (rangeFault bits w.len) with
      | some b => some (mk 0x084 (faddrOf b))
      | none =>
        match issues.findSome? (w.bankFault k.isStrided) with
        | some b => some (mk 0x103 (faddrOf b))
        | none =>
          let clk0 := s.myDie.scc.toNat + w.performLat core - 1
          let late := issues.zipIdx.find? fun p =>
            w.lateral core && !s.me.bind.lateralOk w.vcl (clk0 + p.2)
          match late with
          | some p => some (mk 0x104 (first p.1))
          | none =>
            if k = .pfxld then none
            else
              match issues.findSome? fun es =>
                  spanOverlap (w.spans core (if k.isStore then w.withBlocks es else es)) s.pendingRanges with
              | some b => some (mk 0x105 (faddrOf ((b : Int) - w.addr core)))
              | none => none

/-! ### Issue -/

/-- The energy class of a local-memory operation (R233). -/
def State.localClass (s : State) (k : AccKind) (w : BitVec 3) : Fin 16 :=
  let d := s.opWin w
  if k.isAtomic ∨ k = .pfxld then 11 else if d.kind ≠ 2 then 8 else if d.lateral s.fr.core then 10 else 9

/-- The port index of an L slot of a core (R244). -/
def portL (core slot : Nat) : Nat := 8 * (core % 384) + (slot - 4)

/-- An access enters flight: it performs at the end of issue + P − 1 (R159). -/
def State.access (s : State) (k : AccKind) (slot : Nat) (w : Win) (e step : Int) (idx data : Lanes)
    (arg arg2 mask : Word) (d d2 : Dest) : State :=
  let p := w.performLat s.fr.core
  let a : Access :=
    { kind := k, core := s.fr.core, ctx := s.fr.ctx.val, slot := slot, ord := s.me.ord, left := p
      land := k.landLat p, keep := .live, port := portL s.fr.core slot, win := w, elem := e, step := step, index := idx
      data := data, arg := arg, arg2 := arg2, mask := mask, rm := s.rmPlain, fm := s.fm, dest := d, dest2 := d2
      x := ⟨0, 0⟩, msmx := [] }
  let die := s.myDie
  s.setMyDie { die with acc := die.acc ++ [a] }

/-- The destination of a store, which has none. -/
def noDest : Dest := .m 0
def State.destS (s : State) (d : BitVec 5) : Dest := .s (physReg s.me.sys.rot d)
def State.destV (s : State) (d : BitVec 5) : Dest := .v (physReg s.me.sys.rot d)

/-- The checks of an access of form LM, LMM or LMK. -/
def lmFault (k : AccKind) (tg : Tag2) (w : BitVec 3) (a : BitVec 5) (s : State) : Option Trap :=
  localFault k (s.opWin w) ((s.issueBases (s.strideL tg) a).map fun b => (b.toNat : Int)) 0 [] s
/-- The stride of form LML (R169). -/
def State.strideLit (s : State) (l : BitVec 3) : Int := (s.literal l.toNat).toInt
/-- The checks of an access of form LML. -/
def lmlFault (k : AccKind) (tg : Tag2) (w : BitVec 3) (a : BitVec 5) (l : BitVec 3) (s : State) : Option Trap :=
  localFault k (s.opWin w) ((s.issueBases (s.strideL tg) a).map fun b => (b.toNat : Int)) (s.strideLit l) [] s
/-- The checks of an access of form LG: every issue has the lanes of the first (R160). -/
def lgFault (k : AccKind) (w : BitVec 3) (vi : BitVec 5) (s : State) : Option Trap :=
  localFault k (s.opWin w) (List.replicate s.fr.reps 0) 0 (s.idxV vi) s

/-- The address base as an element offset. -/
def State.elemBase (s : State) (a : BitVec 5) : Int := ((s.baseS a).toNat : Int)

/-- A load of form LM. -/
def loadOp (k : AccKind) (tg : Tag2) (w : BitVec 3) (a : BitVec 5) (d : State → Dest) (s : State) : State :=
  (s.enter (s.localClass k w)).gate (s.condL tg) fun t =>
    t.access k (slotOf tg 4) (s.opWin w) (s.elemBase a) 0 [] [] 0 0 0 (d s) noDest

/-- A store of form LM of the vector v(d), on the lanes of a mask. -/
def storeVOp (k : AccKind) (tg : Tag2) (w : BitVec 3) (a : BitVec 5) (v : State → Lanes) (mask : State → Word)
    (s : State) : State :=
  (s.enter (s.localClass k w)).gate (s.condL tg) fun t =>
    t.access k (slotOf tg 4) (s.opWin w) (s.elemBase a) 0 [] (v s) 0 0 (mask s) noDest noDest

/-- A store of form LM of the scalar s(d). -/
def storeSOp (k : AccKind) (tg : Tag2) (w : BitVec 3) (a d : BitVec 5) (s : State) : State :=
  (s.enter (s.localClass k w)).gate (s.condL tg) fun t =>
    t.access k (slotOf tg 4) (s.opWin w) (s.elemBase a) 0 [] [] (s.nowS d) 0 0 noDest noDest

/-- An atomic (R173). -/
def atomicOp (k : AccKind) (tg : Tag2) (w : BitVec 3) (a d : BitVec 5) (s : State) : State :=
  (s.enter (s.localClass k w)).gate (s.condL tg) fun t =>
    t.access k (slotOf tg 4) (s.opWin w) (s.elemBase a) 0 [] [] (s.nowS d) (if k = .acas then s.nowS (d + 1) else 0) 0
      (s.destS d) noDest

/-! ### Performing -/

/-- The lane form of an element as a load reads it (R156, R157). -/
def loadLane (m : Memory) (w : Win) (core rm fm e : Nat) : W32 × Fl :=
  let raw := m.elem (w.addr core) (elemBits w.fmt) e
  let scale := (m.read (w.scaleAddr core + w.scaleIndex e)).toNat
  let of (r : Nat × Fl) : W32 × Fl := (BitVec.ofNat 32 r.1, r.2)
  match w.fmt with
  -- every element but a NaN widens exactly (R157)
  | 2 => of (fpConvert fmtF16 fmtF32 rm 0 0 raw)
  | 3 => of (fpConvert fmtBF16 fmtF32 rm 0 0 raw)
  | 4 => (BitVec.ofNat 32 (flushIn fmtF32 fm (fpConvert fmtE4M3 fmtF32 rm 0 0 raw).1), 0)
  | 5 => (BitVec.ofNat 32 (flushIn fmtF32 fm (fpConvert fmtE5M2 fmtF32 rm 0 0 raw).1), 0)
  | 6 => of (decodeElem 4 raw scale false rm fm)
  | 7 => of (decodeElem 6 raw scale false rm fm)
  | 8 => of (decodeElem 8 raw scale false rm fm)
  | 9 => of (decodeElem 8 raw scale true rm fm)
  | 10 => ((BitVec.ofNat 8 raw).signExtend 32, 0)
  | 11 => ((BitVec.ofNat 16 raw).signExtend 32, 0)
  | _ => (BitVec.ofNat 32 raw, 0)

/-- An element of a plain format as a store encodes a lane (R157). -/
def storeLane (f rm fm : Nat) (x : W32) : Nat × Fl :=
  match f with
  | 2 => fpConvert fmtF32 fmtF16 rm fm 0 x.toNat
  | 3 => fpConvert fmtF32 fmtBF16 rm fm 0 x.toNat
  | 4 => fpConvert fmtF32 fmtE4M3 rm fm 0 x.toNat
  | 5 => fpConvert fmtF32 fmtE5M2 rm fm 0 x.toNat
  | 10 => satInt 8 x.toInt
  | 11 => satInt 16 x.toInt
  | _ => (x.toNat, 0)

/-- Bits [lo + n − 1 : lo] counted from byte `a`, as masked bytes (R41, R155). -/
def bitCells (a lo n v : Nat) : List (Nat × Nat × Nat) :=
  let sh := lo % 8
  (List.range ((sh + n + 7) / 8)).map fun i =>
    (a + lo / 8 + i, ((2 ^ n - 1) <<< sh >>> (8 * i)) % 256, ((v % 2 ^ n) <<< sh >>> (8 * i)) % 256)

/-- Bits of a block-scaled element. -/
def blockBits (f : Nat) : Nat := match f with | 6 => 4 | 7 => 6 | _ => 8

/-- The block encoder of a format (R54, R55). -/
def encodeBlk (f rm fm : Nat) (xs : List Fp) : Nat × List Int × Fl :=
  if f = 9 then encodeBlockF xs rm fm [0, 0, 0, 0] else encodeBlock xs (blockBits f) rm fm [0, 0, 0, 0]

/-- The cells of one block: its present members and its scale byte (R44, R158). -/
def blockCells (w : Win) (core blk : Nat) (scale : Nat) (ms : List Int) : List (Nat × Nat × Nat) :=
  ((w.members blk).zip ms).flatMap (fun p =>
    match p.1 with
    | some e => bitCells (w.addr core) (e * elemBits w.fmt) (blockBits w.fmt) (encInt p.2 (blockBits w.fmt))
    | none => [])
  ++ [(w.scaleAddr core + blk, 255, scale)]

/-- A present member of a block that a store does not write, decoded as a load decodes it (R53, R157, R158). -/
def Memory.memberFp (m : Memory) (w : Win) (core rm fm e : Nat) : Fp × Fl :=
  let r := loadLane m w core rm fm e
  (fpDecode fmtF32 r.1.toNat, r.2)

/-- A block rewritten from the members a store gives and the others as they stand (R158). -/
def blockPut (m : Memory) (w : Win) (core rm fm blk : Nat) (items : List (Nat × Fp)) : (Nat × List (Nat × Nat × Nat)) × Fl :=
  let xs := (w.members blk).map fun o =>
    match o with
    | none => (Fp.fin false 0 0, 0)
    | some e => match items.find? fun p => p.1 == e with
      | some p => (p.2, 0)
      | none => m.memberFp w core rm fm e
  let r := encodeBlk w.fmt rm fm (xs.map Prod.fst)
  ((w.scaleAddr core + blk, blockCells w core blk r.1 r.2.1), xs.foldl (fun f x => f ||| x.2) r.2.2)

/-- The last item of each element stands (R171). -/
def lastItems {α : Type} (l : List (Nat × α)) : List (Nat × α) :=
  l.foldr (fun p acc => if acc.any fun q => q.1 == p.1 then acc else p :: acc) []

/-- The blocks that items touch, each once. -/
def touchedBlocks {α : Type} (w : Win) (l : List (Nat × α)) : List Nat :=
  l.foldr (fun p acc => if acc.contains (w.scaleIndex p.1) then acc else w.scaleIndex p.1 :: acc) []

/-- The element and lane pairs that an element store writes. -/
def Access.items (a : Access) : List (Nat × W32) :=
  match a.kind with
  | .sst => [(a.elem.toNat, a.arg.truncate 32)]
  | _ =>
    lastItems (((a.kind.elems a.win.fmt a.elem a.step a.index).zip a.data).zipIdx.filterMap fun p =>
      if a.kind != .vstm || a.mask.getLsbD p.2 then some (p.1.1.toNat, p.1.2) else none)

/-- A store encodes lane values as elements of the window format (R157, R158). -/
def Access.storeElems (a : Access) (m : Memory) : List Put × Fl :=
  let its := a.items
  if blockFmt a.win.fmt then
    let fps := its.map fun p => (p.1, fpDecode fmtF32 (flushIn fmtF32 a.fm p.2.toNat))
    let rs := (touchedBlocks a.win its).map fun b => blockPut m a.win a.core a.rm a.fm b fps
    (rs.map fun r => ⟨a.port, a.core, a.ctx, some r.1.1, r.1.2⟩, rs.foldl (fun f r => f ||| r.2) 0)
  else
    let rs := its.map fun p =>
      let r := storeLane a.win.fmt a.rm a.fm p.2
      (bitCells (a.win.addr a.core) (p.1 * elemBits a.win.fmt) (elemBits a.win.fmt) r.1, r.2)
    ([⟨a.port, a.core, a.ctx, none, rs.flatMap Prod.fst⟩], rs.foldl (fun f r => f ||| r.2) 0)

/-- The byte address of the first element of an access. -/
def Access.addr (a : Access) : Nat := a.win.addr a.core + (byteLo (offsetBits a.win.fmt) a.elem).toNat

/-- The writes of a store, and its flags; an atomic's write is made by its chain (R165). -/
def Access.puts (a : Access) (m : Memory) : List Put × Fl :=
  match a.kind with
  | .vst | .vstm =>
    if copiedFmt a.win.fmt then
      ([⟨a.port, a.core, a.ctx, none, (List.range 64).flatMap fun k =>
          if a.kind = .vst ∨ a.mask.getLsbD k then bitCells a.addr (32 * k) 32 (lane a.data k).toNat else []⟩], 0)
    else a.storeElems m
  | .sst | .vsts | .vstg => a.storeElems m
  | .sstd => ([⟨a.port, a.core, a.ctx, none, bitCells a.addr 0 64 a.arg.toNat⟩], 0)
  | .msmx =>
    ((a.msmx.zipIdx.map fun p =>
        let blk := a.elem.toNat / 4 + p.2
        ⟨a.port, a.core, a.ctx, some (a.win.scaleAddr a.core + blk), blockCells a.win a.core blk p.1.1 p.1.2⟩), 0)
  | _ => ([], 0)

/-- The fields of a precision-counter word (R409): C read as Min(C, P), P and T. -/
def counterC (w : W32) : Nat := min (w.extractLsb' 0 6).toNat (w.extractLsb' 22 6).toNat
def counterP (w : W32) : Nat := (w.extractLsb' 22 6).toNat
def counterT (w : W32) : Int := (w.extractLsb' 12 10).toInt

/-- Digit k of plane j of the tile at `a` (R409). -/
def Memory.digit (m : Memory) (a j k : Nat) : Int :=
  match m.bits (a + 64 + 16 * j) (2 * k) 2 with
  | 1 => 1
  | 3 => -1
  | _ => 0

/-- A tile's element k over its first c planes, as FP32 (R58, R174, R412). -/
def tileElem (m : Memory) (a c : Nat) (T : Int) (fm k : Nat) : W32 × Fl :=
  let r := flushResult fmtF32 fm (realFromDigits ((List.range c).map fun j => m.digit a j k) T)
  (BitVec.ofNat 32 r.1, r.2)

/-- What a load brings to registers in its perform clk, reading memory as it stood before the clk (R159), and its
flags. -/
def Access.loads (a : Access) (m : Memory) : List (Dest × Word × Lanes × Word) × Fl :=
  let ones := BitVec.allOnes 64
  let lanesOf (es : List Int) : Lanes × Fl :=
    let rs := es.map fun e => loadLane m a.win a.core a.rm a.fm e.toNat
    (rs.map Prod.fst, rs.foldl (fun f r => f ||| r.2) 0)
  match a.kind with
  | .vld =>
    if copiedFmt a.win.fmt then ([(a.dest, 0, mkLanes fun k => BitVec.ofNat 32 (m.nat (a.addr + 4 * k) 4), ones)], 0)
    else let r := lanesOf (a.kind.elems a.win.fmt a.elem 0 []); ([(a.dest, 0, r.1, ones)], r.2)
  | .vlds | .vldg => let r := lanesOf (a.kind.elems a.win.fmt a.elem a.step a.index); ([(a.dest, 0, r.1, ones)], r.2)
  | .sld =>
    let r := loadLane m a.win a.core a.rm a.fm a.elem.toNat
    ([(a.dest, if 10 ≤ a.win.fmt ∧ a.win.fmt ≤ 12 then r.1.signExtend 64 else r.1.zeroExtend 64, [], 0)], r.2)
  | .sldd | .vldm => ([(a.dest, m.word a.addr, [], 0)], 0)
  | .pfxld =>
    let w := BitVec.ofNat 32 (m.nat a.addr 4)
    let rs := (List.range 64).map (tileElem m a.addr (counterC w) (counterT w) a.fm)
    ([(a.dest, 0, rs.map Prod.fst, ones), (a.dest2, 0, splat w, ones)], rs.foldl (fun f r => f ||| r.2) 0)
  | _ => ([], 0)

/-- The new value of an atomic's element (R173), and its flags. -/
def Access.atomicNew (a : Access) (old : W32) : W32 × Fl :=
  let x : W32 := a.arg.truncate 32
  match a.kind with
  | .aadd => (old + x, 0)
  | .aaddF => let r := fpAdd fmtF32 a.rm a.fm 0 old.toNat x.toNat; (BitVec.ofNat 32 r.1, r.2)
  | .amin => (if BitVec.slt x old then x else old, 0)
  | .amax => (if BitVec.slt old x then x else old, 0)
  | .axchg => (x, 0)
  | .acas => (if old = x then a.arg2.truncate 32 else old, 0)
  | _ => (old, 0)

/-- The old value an atomic returns (R173). -/
def Access.atomicOld (a : Access) (old : W32) : Word :=
  if a.win.fmt = 1 then old.zeroExtend 64 else old.signExtend 64

/-! ### Meanings -/

/-- Contiguous vector load through a window, decoded by its format. -/
def actVld (tg : Tag2) (d : BitVec 5) (w : BitVec 3) (a : BitVec 5) : State → State :=
  loadOp .vld tg w a fun s => s.destV d
/-- VLD (R167), issued alone. -/
def execVld (tg : Tag2) (d : BitVec 5) (w : BitVec 3) (a : BitVec 5) (s : State) : Out :=
  .next (s.issueSyl (.vld tg d w a) (slotOf tg 4) (fieldsOnly (.vld tg d w a)) (lmFault .vld tg w a) (actVld tg d w a))

/-- Scalar load of one element in lane form. -/
def actSld (tg : Tag2) (d : BitVec 5) (w : BitVec 3) (a : BitVec 5) : State → State :=
  loadOp .sld tg w a fun s => s.destS d
/-- SLD (R168), issued alone. -/
def execSld (tg : Tag2) (d : BitVec 5) (w : BitVec 3) (a : BitVec 5) (s : State) : Out :=
  .next (s.issueSyl (.sld tg d w a) (slotOf tg 4) (fieldsOnly (.sld tg d w a)) (lmFault .sld tg w a) (actSld tg d w a))

/-- Aligned 8-byte scalar load. -/
def actSldd (tg : Tag2) (d : BitVec 5) (w : BitVec 3) (a : BitVec 5) : State → State :=
  loadOp .sldd tg w a fun s => s.destS d
/-- SLDD (R168), issued alone. -/
def execSldd (tg : Tag2) (d : BitVec 5) (w : BitVec 3) (a : BitVec 5) (s : State) : Out :=
  .next (s.issueSyl (.sldd tg d w a) (slotOf tg 4) (fieldsOnly (.sldd tg d w a)) (lmFault .sldd tg w a) (actSldd tg d w a))

/-- Load 8 bytes into a lane mask. -/
def actVldm (tg : Tag2) (md w : BitVec 3) (a : BitVec 5) : State → State :=
  loadOp .vldm tg w a fun _ => .m ⟨md.toNat, md.isLt⟩
/-- VLDM (R172), issued alone. -/
def execVldm (tg : Tag2) (md w : BitVec 3) (a : BitVec 5) (s : State) : Out :=
  .next (s.issueSyl (.vldm tg md w a) (slotOf tg 4) (fieldsOnly (.vldm tg md w a)) (lmFault .vldm tg w a) (actVldm tg md w a))

/-- Contiguous vector store through a window, encoded by its format. -/
def actVst (tg : Tag2) (d : BitVec 5) (w : BitVec 3) (a : BitVec 5) : State → State :=
  storeVOp .vst tg w a (fun s => s.nowV d) fun _ => BitVec.allOnes 64
/-- VST (R167), issued alone. -/
def execVst (tg : Tag2) (d : BitVec 5) (w : BitVec 3) (a : BitVec 5) (s : State) : Out :=
  .next (s.issueSyl (.vst tg d w a) (slotOf tg 4) (fieldsOnly (.vst tg d w a)) (lmFault .vst tg w a) (actVst tg d w a))

/-- Vector store of the lanes selected by mask mk. -/
def actVstm (tg : Tag2) (d : BitVec 5) (w : BitVec 3) (a : BitVec 5) (mk : BitVec 3) : State → State :=
  storeVOp .vstm tg w a (fun s => s.nowV d) fun s => s.nowM mk
/-- VSTM (R172), issued alone. -/
def execVstm (tg : Tag2) (d : BitVec 5) (w : BitVec 3) (a : BitVec 5) (mk : BitVec 3) (s : State) : Out :=
  .next (s.issueSyl (.vstm tg d w a mk) (slotOf tg 4) (fieldsOnly (.vstm tg d w a mk)) (lmFault .vstm tg w a) (actVstm tg d w a mk))

/-- Scalar store of one element. -/
def actSst (tg : Tag2) (d : BitVec 5) (w : BitVec 3) (a : BitVec 5) : State → State :=
  storeSOp .sst tg w a d
/-- SST (R168), issued alone. -/
def execSst (tg : Tag2) (d : BitVec 5) (w : BitVec 3) (a : BitVec 5) (s : State) : Out :=
  .next (s.issueSyl (.sst tg d w a) (slotOf tg 4) (fieldsOnly (.sst tg d w a)) (lmFault .sst tg w a) (actSst tg d w a))

/-- Aligned 8-byte scalar store. -/
def actSstd (tg : Tag2) (d : BitVec 5) (w : BitVec 3) (a : BitVec 5) : State → State :=
  storeSOp .sstd tg w a d
/-- SSTD (R168), issued alone. -/
def execSstd (tg : Tag2) (d : BitVec 5) (w : BitVec 3) (a : BitVec 5) (s : State) : Out :=
  .next (s.issueSyl (.sstd tg d w a) (slotOf tg 4) (fieldsOnly (.sstd tg d w a)) (lmFault .sstd tg w a) (actSstd tg d w a))

/-- Strided vector load with a literal stride. -/
def actVlds (tg : Tag2) (d : BitVec 5) (w : BitVec 3) (a : BitVec 5) (l : BitVec 3) : State → State :=
  fun s =>
    (s.enter (s.localClass .vlds w)).gate (s.condL tg) fun t =>
      t.access .vlds (slotOf tg 4) (s.opWin w) (s.elemBase a) (s.strideLit l) [] [] 0 0 0 (s.destV d) noDest
/-- VLDS (R169), issued alone. -/
def execVlds (tg : Tag2) (d : BitVec 5) (w : BitVec 3) (a : BitVec 5) (l : BitVec 3) (s : State) : Out :=
  .next (s.issueSyl (.vlds tg d w a l) (slotOf tg 4) (fieldsOnly (.vlds tg d w a l)) (lmlFault .vlds tg w a l) (actVlds tg d w a l))

/-- Strided vector store with a literal stride. -/
def actVsts (tg : Tag2) (d : BitVec 5) (w : BitVec 3) (a : BitVec 5) (l : BitVec 3) : State → State :=
  fun s =>
    (s.enter (s.localClass .vsts w)).gate (s.condL tg) fun t =>
      t.access .vsts (slotOf tg 4) (s.opWin w) (s.elemBase a) (s.strideLit l) [] (s.nowV d) 0 0 0 noDest noDest
/-- VSTS (R169), issued alone. -/
def execVsts (tg : Tag2) (d : BitVec 5) (w : BitVec 3) (a : BitVec 5) (l : BitVec 3) (s : State) : Out :=
  .next (s.issueSyl (.vsts tg d w a l) (slotOf tg 4) (fieldsOnly (.vsts tg d w a l)) (lmlFault .vsts tg w a l) (actVsts tg d w a l))

/-- Gathered vector load by lane indices. -/
def actVldg (tg : Tag2) (d : BitVec 5) (w : BitVec 3) (vi : BitVec 5) : State → State :=
  fun s =>
    (s.enter (s.localClass .vldg w)).gate (s.condL tg) fun t =>
      t.access .vldg (slotOf tg 4) (s.opWin w) 0 0 (s.idxV vi) [] 0 0 0 (s.destV d) noDest
/-- VLDG (R170), issued alone. -/
def execVldg (tg : Tag2) (d : BitVec 5) (w : BitVec 3) (vi : BitVec 5) (s : State) : Out :=
  .next (s.issueSyl (.vldg tg d w vi) (slotOf tg 4) (fieldsOnly (.vldg tg d w vi)) (lgFault .vldg w vi) (actVldg tg d w vi))

/-- Scattered vector store by lane indices. -/
def actVstg (tg : Tag2) (d : BitVec 5) (w : BitVec 3) (vi : BitVec 5) : State → State :=
  fun s =>
    (s.enter (s.localClass .vstg w)).gate (s.condL tg) fun t =>
      t.access .vstg (slotOf tg 4) (s.opWin w) 0 0 (s.idxV vi) (s.nowV d) 0 0 0 noDest noDest
/-- VSTG (R170), issued alone. -/
def execVstg (tg : Tag2) (d : BitVec 5) (w : BitVec 3) (vi : BitVec 5) (s : State) : Out :=
  .next (s.issueSyl (.vstg tg d w vi) (slotOf tg 4) (fieldsOnly (.vstg tg d w vi)) (lgFault .vstg w vi) (actVstg tg d w vi))

/-- Atomic integer add returning the old value. -/
def actAadd (tg : Tag2) (d : BitVec 5) (w : BitVec 3) (a : BitVec 5) : State → State :=
  atomicOp .aadd tg w a d
/-- AADD (R173), issued alone. -/
def execAadd (tg : Tag2) (d : BitVec 5) (w : BitVec 3) (a : BitVec 5) (s : State) : Out :=
  .next (s.issueSyl (.aadd tg d w a) (slotOf tg 4) (fieldsOnly (.aadd tg d w a)) (lmFault .aadd tg w a) (actAadd tg d w a))

/-- Atomic FP32 add returning the old value. -/
def actAaddF32 (tg : Tag2) (d : BitVec 5) (w : BitVec 3) (a : BitVec 5) : State → State :=
  atomicOp .aaddF tg w a d
/-- AADD.F32 (R173), issued alone. -/
def execAaddF32 (tg : Tag2) (d : BitVec 5) (w : BitVec 3) (a : BitVec 5) (s : State) : Out :=
  .next (s.issueSyl (.aaddF32 tg d w a) (slotOf tg 4) (fieldsOnly (.aaddF32 tg d w a)) (lmFault .aaddF tg w a) (actAaddF32 tg d w a))

/-- Atomic signed minimum. -/
def actAmin (tg : Tag2) (d : BitVec 5) (w : BitVec 3) (a : BitVec 5) : State → State :=
  atomicOp .amin tg w a d
/-- AMIN (R173), issued alone. -/
def execAmin (tg : Tag2) (d : BitVec 5) (w : BitVec 3) (a : BitVec 5) (s : State) : Out :=
  .next (s.issueSyl (.amin tg d w a) (slotOf tg 4) (fieldsOnly (.amin tg d w a)) (lmFault .amin tg w a) (actAmin tg d w a))

/-- Atomic signed maximum. -/
def actAmax (tg : Tag2) (d : BitVec 5) (w : BitVec 3) (a : BitVec 5) : State → State :=
  atomicOp .amax tg w a d
/-- AMAX (R173), issued alone. -/
def execAmax (tg : Tag2) (d : BitVec 5) (w : BitVec 3) (a : BitVec 5) (s : State) : Out :=
  .next (s.issueSyl (.amax tg d w a) (slotOf tg 4) (fieldsOnly (.amax tg d w a)) (lmFault .amax tg w a) (actAmax tg d w a))

/-- Atomic exchange. -/
def actAxchg (tg : Tag2) (d : BitVec 5) (w : BitVec 3) (a : BitVec 5) : State → State :=
  atomicOp .axchg tg w a d
/-- AXCHG (R173), issued alone. -/
def execAxchg (tg : Tag2) (d : BitVec 5) (w : BitVec 3) (a : BitVec 5) (s : State) : Out :=
  .next (s.issueSyl (.axchg tg d w a) (slotOf tg 4) (fieldsOnly (.axchg tg d w a)) (lmFault .axchg tg w a) (actAxchg tg d w a))

/-- Atomic compare-and-swap with the register pair d, d+1. -/
def actAcas (tg : Tag2) (d : BitVec 5) (w : BitVec 3) (a : BitVec 5) : State → State :=
  atomicOp .acas tg w a d
/-- ACAS (R173), issued alone. -/
def execAcas (tg : Tag2) (d : BitVec 5) (w : BitVec 3) (a : BitVec 5) (s : State) : Out :=
  .next (s.issueSyl (.acas tg d w a) (slotOf tg 4) (fieldsOnly (.acas tg d w a)) (lmFault .acas tg w a) (actAcas tg d w a))

/-- Snapshot a digit-plane tile's prefix value and counter word. -/
def actPfxld (tg : Tag2) (d : BitVec 5) (w : BitVec 3) (a : BitVec 5) : State → State :=
  fun s =>
    (s.enter (s.localClass .pfxld w)).gate (s.condL tg) fun t =>
      t.access .pfxld (slotOf tg 4) (s.opWin w) (s.elemBase a) 0 [] [] 0 0 0 (s.destV d) (s.destV (d + 1))
/-- PFXLD (R174), issued alone. -/
def execPfxld (tg : Tag2) (d : BitVec 5) (w : BitVec 3) (a : BitVec 5) (s : State) : Out :=
  .next (s.issueSyl (.pfxld tg d w a) (slotOf tg 4) (fieldsOnly (.pfxld tg d w a)) (lmFault .pfxld tg w a) (actPfxld tg d w a))

end Sys2Proof.Machine
end

