-- ==== Sys2Proof/Machine/Translate.lean ====
section
/-! DEFINITION. Physical places (R337, R338), the memory ports' write queues (R352 to R354) and translation (R340
to R346). -/

namespace Sys2Proof.Machine

/-! ### Fields of words -/

/-- Bits [lo + n − 1 : lo] of a word. -/
def fld (w : Word) (lo n : Nat) : Nat := (w.toNat >>> lo) % 2 ^ n
/-- A two's-complement field. -/
def fldS (w : Word) (lo n : Nat) : Int := signExt (fld w lo n) n
/-- Word i of a record. -/
def wordAt (l : List Word) (i : Nat) : Word := l.getD i 0
/-- The little-endian 64-bit words of bytes. -/
def wordsOf (n : Nat) (bs : List Byte) : List Word :=
  (List.range n).map fun i => BitVec.ofNat 64 (leNat ((bs.drop (8 * i)).take 8))
/-- The bytes of 64-bit words. -/
def bytesOf (ws : List Word) : List Byte := ws.flatMap fun w => leBytes 8 w.toNat
/-- `n` 64-bit words at an address. -/
def Memory.words (m : Memory) (a n : Nat) : List Word := (List.range n).map fun i => m.word (a + 8 * i)

/-! ### Places -/

/-- What a physical address names (R337). -/
inductive Place where
  | hbm (die : Nat)
  | scm
  | vault (die cluster : Nat)
  | pad (core : Nat)
  | host
  | peer (n off : Nat)
  | nowhere
deriving DecidableEq, Repr

/-- The place of a physical address (R337). -/
def placeOf (pa : Nat) : Place :=
  if pa < 8 * hbmSize then .hbm (pa / hbmSize)
  else if scmAddr ≤ pa ∧ pa < scmAddr + scmSize then .scm
  else if 0x40000000000 ≤ pa ∧ pa < 0x40000000000 + 8 * 0x20000000 then
    let d := (pa - 0x40000000000) / 0x20000000
    let o := (pa - 0x40000000000) % 0x20000000
    if o < 0x18000000 then .vault d (o / 0x1000000)
    else if o < 0x18000000 + 384 * padSize then .pad (384 * d + (o - 0x18000000) / padSize)
    else .nowhere
  else if hostAddr ≤ pa ∧ pa < peerAddr then .host
  else if peerAddr ≤ pa ∧ pa < peerAddr + 192 * peerSize then .peer ((pa - peerAddr) / peerSize) ((pa - peerAddr) % peerSize)
  else .nowhere

/-- The module's own peer range reaches the module itself (R337). -/
def State.ownAddr (s : State) (pa : Nat) : Nat :=
  match placeOf pa with
  | .peer n off => if n = s.modnum then off else pa
  | _ => pa

def State.place (s : State) (pa : Nat) : Place := placeOf (s.ownAddr pa)

/-- The die whose SRAM or stack a place lies in. -/
def Place.die : Place → Option Nat
  | .hbm d => some d
  | .vault d _ => some d
  | .pad c => some (dieOf c)
  | _ => none

def Place.onDie : Place → Bool
  | .vault _ _ => true
  | .pad _ => true
  | _ => false

/-- The byte offset in its SRAM of a physical address (R211). -/
def sramOffset (pa : Nat) : Nat :=
  match placeOf pa with
  | .pad c => pa - padAddr c
  | _ => (pa - 0x40000000000) % vaultSize

/-- The code of an uncorrectable error in a place (R363); a host line that comes poisoned is undelivered (R404). -/
def Place.flawCode : Place → Nat
  | .hbm _ => 0x307
  | .scm => 0x308
  | .host => 0x187
  | _ => 0x306

/-- The port of the transfer units that serve an on-die SRAM (R244). -/
def Place.unitPort : Place → Nat
  | .vault _ c => 3072 + 2 * c
  | .pad c => 3072 + 2 * clusterOf c
  | _ => 0

/-- The port under which a core's token-domain delivery writes an on-die SRAM: that of its own cluster's transfer units, and on
another die that of the destination cluster's (R244, R339). -/
def unitPortOf (core : Nat) (p : Place) : Nat :=
  if core < moduleCores ∧ p.die = some (dieOf core) then 3072 + 2 * clusterOf core else p.unitPort

/-- Requests into the place are answered retained-wait (R374): its die is at retention, or an S3 sequence runs;
transfers of the module's own cores still complete in the quiesce (R375). -/
def State.retained (s : State) (p : Place) (own : Bool) : Bool :=
  (match p.die with
   | some d => (s.die d).park == .retained
   | none => false)
  || (s.power.s3 == .drain || (!own && s.power.s3 == .quiesce)) && (match p with
     | .peer _ _ => false
     | .host => false
     | _ => true)

/-! ### Reductions at memory (R354) -/

/-- Bytes of an operation's element: OP of R354. -/
def redBytes (op : Nat) : Nat := if op = 1 ∨ op = 7 ∨ op = 8 ∨ op = 9 ∨ op = 11 ∨ op = 13 then 8 else 4

/-- ADD.F32 of R354 over the old word and the merged operands. -/
def redAddF32 (old : Nat) (vs : List Nat) : Nat :=
  let xs := (old :: vs).map (fpDecode fmtF32)
  if xs.any Fp.isNaN then fpNaN fmtF32
  else
    let infs := xs.filter Fp.isInf
    if infs.any Fp.sign ∧ infs.any (fun x => !x.sign) then fpNaN fmtF32
    else if infs ≠ [] then fpInf fmtF32 (infs.any Fp.sign)
    else
      let v := xs.foldl (fun a x => a.add x.dy) Dy.zero
      let neg := if v.isZero then xs.all fun x => x.isZero && x.sign else v.isNeg
      (roundToFormat fmtF32 neg v.m.natAbs v.e 0 0).1

/-- The new word of an operation (R354): its merged operands applied to the old word. The OR.32 of XREDV (R357) is numbered 14
here. -/
def redNew (op old : Nat) (vs : List Nat) : Nat :=
  let w := 8 * redBytes op
  let sgn (x : Nat) : Int := signExt x w
  match op with
  | 0 | 1 => vs.foldl (fun a v => (a + v) % 2 ^ w) old
  | 2 => redAddF32 old vs
  | 3 => vs.foldl (fun a v => if sgn v < sgn a then v else a) old
  | 4 => vs.foldl (fun a v => if sgn a < sgn v then v else a) old
  | 5 => vs.foldl (fun a v => (fpMinMax fmtF32 false 0 a v).1) old
  | 6 => vs.foldl (fun a v => (fpMinMax fmtF32 true 0 a v).1) old
  | 7 => vs.foldl (fun a v => a &&& v) old
  | 8 | 14 => vs.foldl (fun a v => a ||| v) old
  | 9 => vs.foldl (fun a v => a ^^^ v) old
  | _ => vs.getLastD old

/-- One entry of a line drains: each word is rounded once (R353). -/
def drainEntry (m : Memory) (q : QueueLine) : Memory :=
  let words := q.ops.foldr (fun p acc => if acc.contains p.1 then acc else p.1 :: acc) []
  words.foldl (fun m a =>
    m.write a (leBytes (redBytes q.op)
      (redNew q.op (m.nat a (redBytes q.op)) (q.ops.filterMap fun p => if p.1 = a then some p.2 else none)))) m

/-- The entries of one line drain in the order they were opened (R353). -/
def State.drainLine (s : State) (line : Nat) : State :=
  let d := line * 64 / hbmSize
  let x := s.die d
  { s.setDie d { x with queue := x.queue.filter fun q => q.line != line } with
    mem := (x.queue.filter fun q => q.line == line).foldl drainEntry s.mem }

/-- Every queue drains: what a read or write by the ports is served after (R352). -/
def State.settle (s : State) : State :=
  (List.range numDies).foldl (fun s d =>
    let x := s.die d
    if x.queue = [] then s else { s.setDie d { x with queue := [] } with mem := x.queue.foldl drainEntry s.mem }) s

/-- The port that serves a line: bits [11:8] of its address (R338). -/
def linePort (line : Nat) : Nat := line / 4 % 16

/-- The queue of a line's port has no room (R338). -/
def Die.portFull (x : Die) (line : Nat) : Bool :=
  decide ((x.queue.filter fun q => linePort q.line == linePort line).length ≥ 64)

/-- A reduction is accepted: it merges into the line's open entry, the last of the line, when that has the same OP, or opens one
behind it (R353). -/
def mergeEntry (line op a v : Nat) : List QueueLine → List QueueLine
  | [] => [⟨line, op, [(a, v)]⟩]
  | e :: l =>
    if e.line = line ∧ ¬ l.any (fun f => f.line == line) then
      (if e.op = op then { e with ops := e.ops ++ [(a, v)] } :: l else e :: l ++ [⟨line, op, [(a, v)]⟩])
    else e :: mergeEntry line op a v l

/-- The home port accepts a reduction (R352); a full port first drains its oldest line. -/
def State.accept (s : State) (op a v : Nat) : State :=
  let line := a / 64
  let d := a / hbmSize
  let x := s.die d
  let s := if x.portFull line then
      match x.queue.find? fun q => linePort q.line == linePort line with
      | some q => s.drainLine q.line
      | none => s
    else s
  let x := s.die d
  s.setDie d { x with queue := mergeEntry line op a v x.queue }

/-! ### The host's copies (R405) -/

/-- The host's copy of a line is back-invalidated. -/
def State.backInvalidate (s : State) (line : Nat) : State :=
  { s with directory := s.directory.filter fun l => l != line }

/-! ### Walks (R340 to R344) -/

/-- What an access needs of a page (R342). -/
inductive Right where
  | read | write | both | code
deriving DecidableEq, Repr

def Mapping.grants (m : Mapping) (r : Right) : Bool :=
  match r with
  | .read => m.rd
  | .write => m.wr
  | .both => m.rd && m.wr
  | .code => m.rd && m.cd

/-- FMT and GEO of a leaf obey R28 and R341. -/
def leafFmtOk (e : Word) : Bool :=
  decide (fld e 41 4 < 14) && (if blockFmt (fld e 41 4) then decide (fld e 39 2 ≤ 2) else fld e 39 2 == 3)

/-- An entry of level `lvl` (1 to 3) is one R341 allows. -/
def entryOk (lvl : Nat) (e : Word) : Bool :=
  e.getLsbD 63 &&
    (match fld e 61 2 with
     | 0 => lvl != 3 && fld e 36 9 == 0
     | 1 => lvl == 3 && leafFmtOk e
     | 2 => lvl != 3 && leafFmtOk e && fld e 0 (if lvl = 1 then 26 else 13) == 0
     | _ => false)

/-- The walk from level `lvl` on, the shifts still to come (R340 to R342). -/
def walkFrom (m : Memory) (flaws : List Nat) (asid va : Nat) (r : Right) : Nat → List Nat → Nat → Except Nat Mapping
  | _, [], _ => .error 0x087
  | lvl, sh :: rest, t =>
    let at_ := t + 8 * (va / 2 ^ sh % 8192)
    let e := m.word at_
    if flaws.contains (at_ / 64) then .error 0x307
    else if ¬ entryOk lvl e then .error 0x087
    else if fld e 45 16 ≠ asid then .error 0x089
    else if fld e 61 2 = 0 then walkFrom m flaws asid va r (lvl + 1) rest (fld e 0 36 * 2 ^ 16)
    else
      let p : Mapping :=
        { va := va / 2 ^ sh * 2 ^ sh, size := 2 ^ sh, pa := fld e 0 36 * 2 ^ 16, fmt := fld e 41 4, geo := fld e 39 2
          rd := e.getLsbD 38, wr := e.getLsbD 37, cd := e.getLsbD 36 }
      if p.grants r then .ok p else .error 0x088

/-- Memory as its ports give it to a read: the queued updates have applied (R352). -/
def State.portMem (s : State) : Memory := s.settle.mem

/-- The lines that a walk from level `lvl` on reads. -/
def walkLines (m : Memory) (va : Nat) : Nat → List Nat → Nat → List Nat
  | _, [], _ => []
  | lvl, sh :: rest, t =>
    let at_ := t + 8 * (va / 2 ^ sh % 8192)
    let e := m.word at_
    at_ / 64 :: (if entryOk lvl e ∧ fld e 61 2 = 0 then walkLines m va (lvl + 1) rest (fld e 0 36 * 2 ^ 16) else [])

/-- The address-space descriptor of an ASID (R343). -/
def State.space (s : State) (asid : Nat) : List Word := s.portMem.words (s.astab + 32 * asid) 4
/-- SHADOWBASE and the row pitch of an address space (R343, R344). -/
def State.shadowBase (s : State) (asid : Nat) : Nat := fld (wordAt (s.space asid) 1) 0 55
def State.pagePitch (s : State) (asid : Nat) : Nat := 2 ^ (fld (wordAt (s.space asid) 2) 0 4 + 2)

/-- The park area of a vault starts at this byte (R372). -/
def parkBase : Nat := 0xDE0000

/-- A physical address in the park area of a vault. -/
def overPark (pa : Nat) : Bool :=
  match placeOf pa with
  | .vault _ _ => decide (parkBase ≤ (pa - 0x40000000000) % vaultSize)
  | _ => false

/-- Vizin maps no page onto a park area: an address that leads there has no translation (R372, log 58). -/
def State.unparked (s : State) (va : Nat) (p : Mapping) : Except Nat Mapping :=
  if overPark (s.ownAddr (p.pa + (va - p.va))) then .error 0x087 else .ok p

/-- A walk (R342, R343). -/
def State.walk (s : State) (asid va : Nat) (r : Right) : Except Nat Mapping :=
  let w := wordAt (s.space asid) 0
  if s.flaws.contains ((s.astab + 32 * asid) / 64) then .error 0x307
  else if ¬ w.getLsbD 63 then .error 0x089
  else
    match walkFrom s.portMem s.flaws asid va r 1 [42, 29, 16] (fld w 0 36 * 2 ^ 16) with
    | .error c => .error c
    | .ok p => s.unparked va p

/-- The lines that a walk of an address reads, the space's descriptor first. -/
def State.allWalkLines (s : State) (asid va : Nat) : List Nat :=
  (s.astab + 32 * asid) / 64 :: walkLines s.portMem va 1 [42, 29, 16] (fld (wordAt (s.space asid) 0) 0 36 * 2 ^ 16)

/-- A walk reads a line of a die that does not answer now (R374). -/
def State.walkRetained (s : State) (asid va : Nat) : Bool :=
  (s.allWalkLines asid va).any fun l => s.retained (placeOf (64 * l)) true

/-- A cached translation of the cluster, else of its die's store (R345). -/
def Die.lookup (x : Die) (cluster asid va : Nat) : Option Mapping :=
  let hit (c : Nat) (e : TlbEntry) : Bool :=
    e.cluster == c && e.asid == asid && decide (e.map.va ≤ va ∧ va < e.map.va + e.map.size)
  match x.tlb.find? (hit cluster) with
  | some e => some e.map
  | none => (x.tlb.find? (hit numClusters)).map TlbEntry.map

/-- The mapping of a virtual address as a cluster sees it: cached, or walked (R342, R345), in a space that exists (R343). The code
0x282 stands for a walk that a retained die turns away (R374). -/
def State.mapping (s : State) (cluster asid va : Nat) (r : Right) : Except Nat Mapping :=
  if ¬ (wordAt (s.space asid) 0).getLsbD 63 then .error 0x089
  else
    match (s.die (cluster / numClusters)).lookup (cluster % numClusters) asid va with
    | some p => if p.grants r then s.unparked va p else .error 0x088
    | none => if s.walkRetained asid va then .error 0x282 else s.walk asid va r

/-- Only the youngest `n` entries of a cache stand. -/
def evict (cluster n : Nat) (l : List TlbEntry) : List TlbEntry :=
  let mine := (l.filter fun e => e.cluster == cluster).length
  if mine ≤ n then l
  else (l.foldl (fun (a : Nat × List TlbEntry) e =>
    if e.cluster == cluster && decide (0 < a.1) then (a.1 - 1, a.2) else (a.1, a.2 ++ [e])) (mine - n, [])).2

/-- A walk's result enters the cluster's cache and the die's store (R345). -/
def Die.cache (x : Die) (cluster asid : Nat) (p : Mapping) : Die :=
  { x with tlb := evict numClusters 65536 (evict cluster 4096
      (x.tlb ++ [⟨cluster, asid, p⟩, ⟨numClusters, asid, p⟩])) }

/-- A cluster walks a virtual address unless it is cached. The rights are not part of what is cached. -/
def State.fill (s : State) (cluster asid va : Nat) : State :=
  let d := cluster / numClusters
  match (s.die d).lookup (cluster % numClusters) asid va with
  | some _ => s
  | none =>
    match if s.walkRetained asid va then none else ([Right.read, .write].findSome? fun r => match s.walk asid va r with
        | .ok p => some p
        | .error _ => none) with
    | some p => s.setDie d ((s.die d).cache (cluster % numClusters) asid p)
    | none => s

/-- The pages of a TINV value (R346) overlap a mapping. -/
def tinvHits (w : Word) (e : TlbEntry) : Bool :=
  e.asid == fld w 46 16 &&
    (w.getLsbD 62 ||
      (let lo := fld w 0 39 * 2 ^ 16
       decide (e.map.va < lo + (fld w 39 7 + 1) * 2 ^ 16 ∧ lo < e.map.va + e.map.size)))

/-! ### Meanings -/

/-- TRANSLATION_WALK (R342): a walk of the subject's address enters the caches; one that fails leaves nothing. -/
def execTranslationWalk (s : State) : Out :=
  .next (s.settle.fill s.ev.cluster s.ev.asid s.ev.addr)

/-- TINV (R346): a write with GO starts an invalidation; a write while GO reads 1 is ignored. -/
def execTinv (s : State) : Out :=
  let x := s.die s.ev.die
  .next (if x.tinv.getLsbD 63 then s else s.setDie s.ev.die { x with tinv := s.ev.value })

/-- A virtual address lies in the pages of a TINV value (R346). -/
def tinvCovers (w : Word) (va : Nat) : Bool :=
  w.getLsbD 62 || decide (fld w 0 39 * 2 ^ 16 ≤ va ∧ va < (fld w 0 39 + fld w 39 7 + 1) * 2 ^ 16)

/-- A piece that the die's units translated in the address space of a TINV value has still to perform (R346): a delivery into on-die
SRAM, or a request to a peer, with the barrier that a reduction names (R356). -/
def State.tinvWaits (s : State) (d : Nat) (w : Word) : Bool :=
  let of_ (core : Nat) (x : Xid) : Bool := dieOf core == d && decide (core < moduleCores)
    && ((s.core core).xfers.any fun (t : Xfer) => decide (t.x = x) && t.asid == fld w 46 16)
  (s.dies.any fun e => e.2.deliv.any fun (y : Delivery) => match y with
    | .bytes x p => of_ p.core x
    | .arrive x _ core _ _ _ => of_ core x)
  || s.sents.any fun (e : Sent) => of_ e.pkt.core e.pkt.x && (tinvCovers w e.va
    || (e.pkt.type == 3 && (wordAt e.pkt.ops 1).getLsbD 4 && (s.core e.pkt.core).xfers.any fun (t : Xfer) =>
      decide (t.x = e.pkt.x) && tinvCovers w (addrVirt (wordAt t.args 2))))

/-- TINV_COMPLETE (R346): the overlapping entries are dropped and, once the pieces translated through them have performed, GO reads
0. -/
def execTinvComplete (s : State) : Out :=
  let x := s.die s.ev.die
  .next (if x.tinv.getLsbD 63 ∧ ¬ s.tinvWaits s.ev.die x.tinv then
      s.setDie s.ev.die { x with tlb := x.tlb.filter fun e => !tinvHits x.tinv e, tinv := x.tinv &&& 0x7FFFFFFFFFFFFFFF#64 }
    else s)

/-- WRITE_QUEUE_DRAIN (R353). Subject: the line. -/
def execWriteQueueDrain (s : State) : Out := .next (s.drainLine s.ev.index)

/-- The patrol period in hand: 24 hours (R364). -/
def State.patrolPeriod (s : State) : Nat := s.wcc.toNat / (86400 * 600000000)

/-- Rows of a die have given an uncorrectable error: one with two of them in the patrol period is retired and its pages are remapped, so
that it holds an error no longer (R364). -/
def State.rowErrors (s : State) (die : Nat) (rows : List Nat) : State :=
  let y := s.die die
  let x := if y.patrol = s.patrolPeriod then y else { y with badRows := [], patrol := s.patrolPeriod }
  let twice := rows.filter fun r => x.badRows.contains r
  { s with flaws := s.flaws.filter fun r => !twice.contains r }.setDie die
    { x with retired := x.retired ++ twice
             badRows := x.badRows.filter (fun r => !twice.contains r) ++ rows.filter fun r => !x.badRows.contains r }

/-- An access of an address space that ended with 0x307 counts against the row it met: one of its walk's, else its own (R364). -/
def State.rowMet (s : State) (cluster asid va : Nat) : State :=
  let line := ((s.allWalkLines asid va).find? fun l => s.flaws.contains l).or
    (match s.mapping cluster asid va .read with
     | .ok p => some ((p.pa + (va - p.va)) / 64)
     | .error _ => none)
  match line.filter fun l => s.flaws.contains l with
  | some l => s.rowErrors (l * 64 / hbmSize) [l]
  | none => s

/-- PATROL_READ (R364): corrected errors are counted, uncorrectable ones by row. Subject: the rows that gave one, by line. -/
def execPatrolRead (s : State) : Out :=
  let s := { s with flaws := s.flaws ++ s.ev.nats.filter fun r => !s.flaws.contains r }.rowErrors s.ev.die s.ev.nats
  let x := s.die s.ev.die
  .next (s.setDie s.ev.die { x with errs := if s.ev.count = 0 then x.errs else x.errs ++ [(s.wcc.toNat, s.ev.count)] })

end Sys2Proof.Machine
end

