-- ==== Sys2Proof/Machine/Link.lean ====
section
/-! DEFINITION. Chozo links: packets (R399), routing (R400), link units, flow control and replay (R397, R398),
link-state updates (R402) and the drain of a lost port (R403). -/

namespace Sys2Proof.Machine

def State.port (s : State) (p : Nat) : Port := Table.get {} s.ports p
def State.setPort (s : State) (p : Nat) (x : Port) : State := { s with ports := Table.put s.ports p x }

/-! ### Packets -/

/-- The class of a packet type (R399): 0 request, 1 reply, 2 control. -/
def classOf (t : Nat) : Nat := if t < 16 then 0 else if t < 32 then 1 else 2

/-- The event a received packet is (R399). -/
def packetEvent (p : Packet) : Option Instr :=
  match p.type with
  | 1 => some .readRequest
  | 2 => some .writeRequest
  | 3 => some .reductionRequest
  | 4 => some .planeData
  | 5 => some .messageData
  | 16 => some .readData
  | 17 => some .done
  | 18 => some .planeAcknowledgement
  | 19 => some .retainedWait
  | 20 => some .oldValue
  | 32 => some .linkStateUpdate
  | 33 => some .exponent
  | 34 => some .cutRequest
  | 35 => some .errorNotice
  | 36 => some (if wordAt p.ops 3 = 0 then .rejoin else .rejack)
  | 37 => some (if wordAt p.ops 3 = 0 then .readyToSend else .clearToSend)
  | 38 => some .restoreDigest
  | _ => none

/-- A packet joins the events still to come, on the port it arrived on. -/
def State.deliver (s : State) (p : Packet) (port : Nat) : State :=
  match packetEvent p with
  | some i => { s with agenda := s.agenda ++ [some (i, { packet := p, port := port })] }
  | none => s.setPort port { s.port port with errs := (s.port port).errs + 1 }

/-- The header flit (R399). -/
def headerOf (p : Packet) : List Byte :=
  bytesOf ([BitVec.ofNat 64 (p.dmod * 2 ^ 56 + p.smod * 2 ^ 48 + p.type * 2 ^ 42 + (p.data.length + 63) / 64 * 2 ^ 38
        + p.asid * 2 ^ 22),
      BitVec.ofNat 64 (p.pseq * 2 ^ 32),
      BitVec.ofNat 64 (p.core * 2 ^ 52 + p.x.ch * 2 ^ 48 + p.x.id.toNat)]
    ++ (List.range 5).map (wordAt p.ops))

/-- A byte list padded with zeros to whole flits. -/
def padFlits (bs : List Byte) : List (List Byte) :=
  (List.range ((bs.length + 63) / 64)).map fun i =>
    let f := (bs.drop (64 * i)).take 64
    f ++ List.replicate (64 - f.length) 0

/-- The flits of a packet: header, then data (R399). -/
def flitsOf (p : Packet) : List (List Byte) := headerOf p :: padFlits p.data

/-- Bytes of data that a packet's operands count (R399): the flits carry them padded with zeros. Those of read data are counted by its
request. -/
def dataLen (type : Nat) (ops : List Word) (n : Nat) : Nat :=
  match type with
  | 2 => fld (wordAt ops 1) 0 32
  | 4 => fld (wordAt ops 2) 8 8 * (if fld (wordAt ops 4) 38 2 = 0 then 16 else 256)
  | 5 => fld (wordAt ops 1) 0 32
  | 33 => 2 * fld (wordAt ops 1) 32 32
  | _ => n

/-- The packet of a header flit and its data flits. -/
def packetOf (fs : List (List Byte)) : Packet :=
  let w := wordsOf 8 (fs.headD [])
  let h := wordAt w
  let ty := fld (h 0) 42 6
  let bs := (fs.drop 1).flatten
  { dmod := fld (h 0) 56 8, smod := fld (h 0) 48 8, type := ty, asid := fld (h 0) 22 16
    pseq := fld (h 1) 32 32, core := fld (h 2) 52 12, x := ⟨fld (h 2) 48 3, BitVec.ofNat 32 (fld (h 2) 0 32)⟩
    ops := w.drop 3, data := bs.take (dataLen ty (w.drop 3) bs.length) }

/-- Flits of a packet. -/
def packetFlits (p : Packet) : Nat := 1 + (p.data.length + 63) / 64

/-- The offset of a memory request. -/
def packetOffset (p : Packet) : Nat := fld (wordAt p.ops 0) 0 44

/-- What picks a packet's port among those that are common and live (R400): ID + offset[21:6] for memory and message data, tile + step for
planes. DESIGN CHOICE (log 67): the tag for ready-to-send and clear-to-send, whose order so holds, and ID for all others. -/
def portIndex (p : Packet) : Nat :=
  match p.type with
  | 1 | 2 | 3 => p.x.id.toNat + packetOffset p / 64 % 65536
  | 4 => fld (wordAt p.ops 1) 32 32 + fld (wordAt p.ops 1) 0 32
  | 5 => p.x.id.toNat + fld (wordAt p.ops 2) 0 32 / 64 % 65536
  | 37 => fld (wordAt p.ops 0) 0 32
  | _ => p.x.id.toNat

/-! ### Ports -/

/-- The own mask of live ports (R402). -/
def State.liveMask (s : State) : Nat :=
  ((List.range 18).map fun p => if (s.port p).st = 2 then 2 ^ p else 0).sum

/-- The common live ports to a module, ascending (R400). -/
def State.commonPorts (s : State) (n : Nat) : List Nat :=
  (List.range 18).filter fun p => s.liveMask.testBit p && (Table.get (0, 0) s.links n).1.testBit p

/-- The trailer of a unit, its CRC over the flit and bits [31:0] (R397). -/
def unitOf (flit : List Byte) (lseq lack : BitVec 12) (nak : Bool) (pause : BitVec 3) (cls : Nat) (hdr : Bool) : LinkUnit :=
  let lo := lseq.toNat * 2 ^ 20 + lack.toNat * 2 ^ 8 + (if nak then 2 ^ 7 else 0) + pause.toNat * 2 ^ 4 + cls * 4 + (if hdr then 2 else 0)
  ⟨flit, BitVec.ofNat 64 ((crc32c (flit ++ leBytes 4 lo)).toNat * 2 ^ 32 + lo)⟩

/-- An idle unit of a port, which carries LACK, NAK and PAUSE. -/
def Port.idleUnit (x : Port) (nak : Bool) : LinkUnit := unitOf (List.replicate 64 0) x.lseq x.lack nak x.pausing 3 false

/-- Flits that the queue of a class holds (R398). -/
def classRoom (cls : Nat) : Nat := if cls = 2 then 64 else 256

/-- One flit goes on the wire and into the retry buffer. -/
def Port.sendFlit (x : Port) (f : QueuedFlit) : Port :=
  let u := unitOf f.flit x.lseq x.lack false x.pausing f.cls f.hdr
  { x with lseq := x.lseq + 1, buf := x.buf ++ [u], tx := x.tx ++ [u] }

/-- The queued flits go out in order, but for those of a paused class, while the retry buffer of 512 units has room (R397, R398). -/
def Port.drive (x : Port) : Port :=
  x.outq.foldl (fun x f => if x.pause.getLsbD f.cls ∨ 512 ≤ x.buf.length then { x with outq := x.outq ++ [f] } else x.sendFlit f)
    { x with outq := [] }

/-- The queue of a packet's class has room for it, and no packet of the class waits before it. -/
def Port.fits (x : Port) (p : Packet) : Bool :=
  let cls := classOf p.type
  !(x.wait.any fun q => classOf q.type == cls)
    && decide ((x.outq.filter fun f => f.cls == cls).length + packetFlits p ≤ classRoom cls)

/-- Waiting packets enter the queues of their classes, and these send what they can. -/
def Port.flow (x : Port) : Port :=
  x.wait.foldl (fun x p =>
    if x.fits p then
      ({ x with outq := x.outq ++ (flitsOf p).zipIdx.map fun f => ⟨classOf p.type, f.2 == 0, f.1⟩ } : Port).drive
    else { x with wait := x.wait ++ [p] }) { x with wait := [] }.drive

/-- Flits of a class that a port has received and that have still to be handled. -/
def State.heldFlits (s : State) (port cls : Nat) : Nat :=
  ((s.port port).rx.filter fun f => f.cls == cls).length
    + (s.agenda.map fun a => match a with
      | some (_, y) => if y.port = port ∧ y.packet.type ≠ 0 ∧ classOf y.packet.type = cls then packetFlits y.packet else 0
      | none => 0).sum

/-- The classes that a port pauses (R398): a request or control queue with too few free flits, until enough are free. A module never
pauses the reply class. -/
def State.gauge (s : State) (port : Nat) : State :=
  let x := s.port port
  let free (cls : Nat) : Nat := classRoom cls - s.heldFlits port cls
  let req := decide (free 0 < if x.pausing.getLsbD 0 then 160 else 96)
  let ctl := decide (free 2 < if x.pausing.getLsbD 2 then 40 else 24)
  s.setPort port { x with pausing := BitVec.ofNat 3 ((if req then 1 else 0) + (if ctl then 4 else 0)) }

/-- A packet goes out over a port. A module whose MODNUM is above 191 sends nothing (R400). A control packet that no request table holds is
kept until the other end has acknowledged it (R403). -/
def State.pushAt (s : State) (port : Nat) (p : Packet) : State :=
  if 191 < s.modnum then s
  else
    let s := s.gauge port
    let x := s.port port
    let kept := classOf p.type = 2 ∧ p.type ≠ 32 ∧ p.type ≠ 37
    s.setPort port ({ x with wait := x.wait ++ [p], ctl := if kept then x.ctl ++ [p] else x.ctl } : Port).flow

/-! ### Sending -/

/-- The next PSEQ for a destination and class (R399). -/
def State.pseqNext (s : State) (n cls : Nat) : W32 := Table.get 0 s.pseqs (4 * n + cls)

/-- A packet is numbered for its destination and class. -/
def State.number (s : State) (p : Packet) : State × Packet :=
  let cls := classOf p.type
  ({ s with pseqs := Table.put s.pseqs (4 * p.dmod + cls) (s.pseqNext p.dmod cls + 1) },
   { p with smod := s.modnum, pseq := (s.pseqNext p.dmod cls).toNat })

/-- A packet leaves (R400): numbered, on a common live port, or within the module. None when MODNUM is
above 191 or no port is common and live; the port it took is 18 for the own module. -/
def State.send (s : State) (p : Packet) : Option (State × Packet × Nat) :=
  let r := s.number p
  let ps := s.commonPorts p.dmod
  if p.dmod = s.modnum then some (r.1.deliver r.2 18, r.2, 18)
  else if s.modnum > 191 ∨ ps = [] then none
  else
    let q := ps.getD (portIndex p % ps.length) 0
    some (r.1.pushAt q r.2, r.2, q)

/-- The place of a packet that has still to be sent, in its sender's engine. -/
def unsentPort : Nat := 19

/-- A control packet leaves where it can; with no port it waits for the next common live port (R403). -/
def State.sendOr (s : State) (p : Packet) : State :=
  match s.send p with
  | some r => r.1
  | none => { s with sents := s.sents ++ [⟨{ p with smod := s.modnum }, unsentPort, 0, 0, 0⟩] }

/-- Flits of the reply to a request. -/
def replyFlits (p : Packet) : Nat := if p.type = 1 then 1 + (fld (wordAt p.ops 1) 0 32 + 63) / 64 else 1

/-- A request may go out: fewer than 4,096 of its class are outstanding at its destination (R401), and its reply has room in the
reply queue of its port beside those awaited there (R398; log 67). -/
def State.room (s : State) (p : Packet) : Bool :=
  let ps := s.commonPorts p.dmod
  let q := ps.getD (portIndex p % ps.length) 0
  let out := s.sents.filter fun (e : Sent) => e.pkt.dmod == p.dmod && classOf e.pkt.type == classOf p.type && e.port != unsentPort
  let due := s.sents.filter fun (e : Sent) => e.port == q
  decide (out.length < 4096 ∧ (due.map fun e => replyFlits e.pkt).sum + replyFlits p ≤ classRoom 1)

/-- A request leaves and stands unanswered (R401, R403); without room for it it waits in its engine. -/
def State.request (s : State) (p : Packet) (piece va : Nat) : Option State :=
  if p.dmod ≠ s.modnum ∧ ¬ s.room p ∧ s.modnum ≤ 191 ∧ s.commonPorts p.dmod ≠ [] then
    some { s with sents := s.sents ++ [⟨{ p with smod := s.modnum }, unsentPort, 0, piece, va⟩] }
  else (s.send p).map fun r => { r.1 with sents := r.1.sents ++ [⟨r.2.1, r.2.2, 0, piece, va⟩] }

/-- A packet that only leaves: no answer is awaited. -/
def oneWay (p : Packet) : Bool := classOf p.type == 2 && p.type != 37

/-- A packet that waits to be sent leaves when it can. -/
def State.sendLate (s : State) (e : Sent) : State :=
  if s.commonPorts e.pkt.dmod = [] ∨ (¬ oneWay e.pkt ∧ ¬ s.room e.pkt) then s
  else
    match s.send e.pkt with
    | none => s
    | some r =>
      { r.1 with sents :=
          if oneWay e.pkt then r.1.sents.filter fun (f : Sent) => !decide (f = e)
          else r.1.sents.map fun (f : Sent) => if f = e then { e with pkt := r.2.1, port := r.2.2 } else f }

/-- The packets that wait in their engines leave, as far as they can. -/
def State.sendWaiting (s : State) : State :=
  (s.sents.filter fun (e : Sent) => e.port == unsentPort).foldl State.sendLate s

/-- The request that a reply answers: a reply carries the PSEQ of its request in its last operand word (log 67). -/
def State.sentFor (s : State) (p : Packet) (t : Nat → Bool) : Option Sent :=
  s.sents.find? fun (e : Sent) => e.pkt.dmod == p.smod && e.pkt.pseq == (wordAt p.ops 4).toNat && t e.pkt.type && decide (e.pkt.x = p.x)
    && e.pkt.core == p.core && e.port != unsentPort

/-- A request has been answered; what waited for its room leaves. -/
def State.answered (s : State) (e : Sent) : State :=
  { s with sents := s.sents.filter fun (f : Sent) => !decide (f = e) }.sendWaiting

/-- The reply of a type to a request: it carries the request's core and transfer (R399), and its PSEQ (log 67). -/
def replyTo (q : Packet) (t : Nat) (ops : List Word) (data : List Byte) : Packet :=
  { dmod := q.smod, smod := q.dmod, type := t, asid := q.asid, pseq := 0, core := q.core, x := q.x
    ops := (ops ++ List.replicate 4 0).take 4 ++ [BitVec.ofNat 64 q.pseq], data := data }

/-- A reply leaves, under a PSEQ of its own class; one that no port takes is lost, and its request comes again (R401, R403). -/
def State.reply (s : State) (p : Packet) : State :=
  match s.send p with
  | some r => r.1
  | none => s

/-! ### Link-state updates -/

/-- The link-state update of a module (R402). -/
def lsuPacket (m mask : Nat) (seq : W32) : Packet :=
  { dmod := 0, smod := m, type := 32, asid := 0, pseq := 0, core := 0, x := ⟨0, 0⟩
    ops := [BitVec.ofNat 64 m, BitVec.ofNat 64 mask, BitVec.ofNat 64 seq.toNat], data := [] }

/-- A packet goes out on every live port but one (R402). -/
def State.flood (s : State) (p : Packet) (but : Nat) : State :=
  (List.range 18).foldl (fun s q => if (s.port q).st = 2 ∧ q ≠ but then s.pushAt q p else s) s

/-- The module floods its own live ports under the next sequence, and records the sequence in every PORTST (R402). -/
def State.floodOwn (s : State) : State :=
  let seq := (s.port 0).lsuseq + 1
  let s := (List.range 18).foldl (fun s q => s.setPort q { s.port q with lsuseq := seq }) s
  let s := { s with links := Table.put s.links s.modnum (s.liveMask, seq) }
  s.flood (lsuPacket s.modnum s.liveMask seq) 18

/-! ### Meanings of the link's events -/

/-- The units that stand unacknowledged after LACK (R397). -/
def unacked (lack : BitVec 12) (buf : List LinkUnit) : List LinkUnit :=
  match buf.zipIdx.find? fun u => BitVec.ofNat 12 (fld u.1.trailer 20 12) == lack with
  | some u => buf.drop (u.2 + 1)
  | none => buf

/-- Complete packets among the flits received: each header names its data flits. -/
def takePackets : Nat → List (List Byte) → List Packet × List (List Byte)
  | 0, fs => ([], fs)
  | n + 1, fs =>
    match fs with
    | [] => ([], [])
    | h :: _ =>
      let k := fld (wordAt (wordsOf 1 h) 0) 38 4 + 1
      if fs.length < k then ([], fs)
      else let r := takePackets n (fs.drop k); (packetOf (fs.take k) :: r.1, r.2)

/-- The unit's CRC is good (R397). -/
def goodUnit (u : LinkUnit) : Bool :=
  u.flit.length == 64 && fld u.trailer 32 32 == (crc32c (u.flit ++ leBytes 4 (fld u.trailer 0 32))).toNat

/-- What a good unit's trailer says of the other direction: the units up to LACK have arrived, a NAK asks for a replay, and PAUSE holds
classes back (R397, R398). -/
def Port.heed (x : Port) (w : Word) (wcc : Nat) : Port :=
  let buf := unacked (BitVec.ofNat 12 (fld w 8 12)) x.buf
  let x := ({ x with buf := buf, naked := x.naked || w.getLsbD 7, pause := BitVec.ofNat 3 (fld w 4 3), heard := wcc
                     fails := if buf.length < x.buf.length then 0 else x.fails } : Port).flow
  { x with ctl := x.ctl.filter fun p => x.wait.contains p
      || (flitsOf p).any fun f => (x.outq.any fun q => q.flit == f) || x.buf.any fun u => u.flit == f }

/-- LINK_UNIT_RECEIVE (R397, R398): a bad unit and those after it are dropped and a NAK goes out; a good unit in sequence
is delivered once, and an idle unit answers it (log 67). -/
def State.receiveUnit (s : State) (port : Nat) (u : LinkUnit) : State :=
  let s := s.gauge port
  let x := s.port port
  let nak (x : Port) : Port := if x.dropping then x else { x with dropping := true, tx := x.tx ++ [x.idleUnit true] }
  if x.st = 3 then s
  else if ¬ goodUnit u then s.setPort port (nak x)
  else
    let seq : BitVec 12 := BitVec.ofNat 12 (fld u.trailer 20 12)
    let cls := fld u.trailer 2 2
    let x := x.heed u.trailer s.wcc.toNat
    let ahead := (seq - x.lack - 1).toNat
    if cls = 3 then s.setPort port x
    else if 2048 ≤ ahead then s.setPort port { x with tx := x.tx ++ [x.idleUnit false] }
    else if ahead ≠ 0 then s.setPort port (nak x)
    else
      let r := takePackets (x.rx.length + 1) ((x.rx.filter fun f => f.cls == cls).map QueuedFlit.flit ++ [u.flit])
      let x := { x with lack := seq, dropping := false
                        rx := (x.rx.filter fun f => f.cls != cls) ++ r.2.zipIdx.map fun f => ⟨cls, f.2 == 0, f.1⟩ }
      let s := (r.1.foldl (fun s p => s.deliver p port) (s.setPort port x)).gauge port
      s.setPort port { s.port port with tx := (s.port port).tx ++ [(s.port port).idleUnit false] }

def execLinkUnitReceive (s : State) : Out := .next (s.receiveUnit s.ev.port s.ev.link)

/-- LINK_REPLAY (R397): on a NAK the units from LACK + 1 go out again. -/
def execLinkReplay (s : State) : Out :=
  let x := s.port s.ev.port
  .next (if ¬ x.naked then s
    else if x.buf = [] then s.setPort s.ev.port { x with naked := false }
    else
      s.setPort s.ev.port { x with naked := false, tx := x.tx ++ x.buf, fails := x.fails + 1
                                   retry := if x.retry = BitVec.allOnes 24 then x.retry else x.retry + 1 })

/-- The packets sent to some modules over a port that has gone enter drain round 1 (R403), the control packets that are not acknowledged
with them. -/
def State.drainPort (s : State) (port : Nat) (p : Nat → Bool) : State :=
  let x := s.port port
  let lost := x.ctl.filter fun q => p q.dmod
  { s.setPort port { x with ctl := x.ctl.filter fun q => !p q.dmod } with
    sents := (s.sents.map fun (e : Sent) => if e.port = port ∧ p e.pkt.dmod ∧ e.round = 0 then { e with round := 1 } else e)
      ++ lost.map fun q => ⟨q, port, 1, 0, 0⟩ }

/-- A port that is up is dead: eight replays of one unit in a row have failed, or no good unit has come for 10 µs (R397). -/
def Port.dying (x : Port) (wcc : Nat) : Bool := x.st == 2 && ((x.naked && decide (8 ≤ x.fails)) || decide (x.heard + 6000 < wcc))

/-- A port is dead: what was sent over it begins its drain, and the new mask is flooded (R402, R403). -/
def State.killPort (s : State) (port : Nat) : State :=
  ((s.setPort port { s.port port with st := 3, wait := [], outq := [], rx := [] }).drainPort port fun _ => true).floodOwn

/-- PORT_DEAD (R397, R402, R403). -/
def execPortDead (s : State) : Out :=
  .next (if (s.port s.ev.port).dying s.wcc.toNat then s.killPort s.ev.port else s)

/-- LINK_STATE_UPDATE (R402): a newer update replaces the module's entry and is flooded on; ports the module lost begin
its drain (R403), and what waited for a port leaves. -/
def State.linkUpdate (s : State) (p : Packet) (port : Nat) : State :=
  let m := fld (wordAt p.ops 0) 0 32
  let mask := fld (wordAt p.ops 1) 0 18
  let seq : W32 := BitVec.ofNat 32 (fld (wordAt p.ops 2) 0 32)
  let old := Table.get (0, 0) s.links m
  let d := (seq - old.2).toNat
  if 1 ≤ d ∧ d ≤ 2 ^ 31 - 1 then
    let s := { s with links := Table.put s.links m (mask, seq) }
    let lost := (List.range 18).filter fun q => old.1.testBit q && !mask.testBit q
    ((lost.foldl (fun s q => s.drainPort q fun n => n == m) s).flood p port).sendWaiting
  else s

def execLinkStateUpdate (s : State) : Out := .next (s.linkUpdate s.ev.packet s.ev.port)

/-- A bench test has marked every one of a port's eight lanes down (R392); lane 8p + i is lane i of port p. -/
def State.laneless (s : State) (port : Nat) : Bool := (List.range 8).all fun i => s.ten.lanes.contains (8 * port + i)

/-- PORT_UP (R402): the port is up, with a fresh endpoint, and the new mask is flooded; what waited for a port leaves. A port with no lane
that may be used stays as it is (R392). -/
def execPortUp (s : State) : Out :=
  let x := s.port s.ev.port
  .next (if x.st = 2 ∨ s.laneless s.ev.port then s
    else ((s.setPort s.ev.port { st := 2, lsuseq := x.lsuseq, retry := x.retry, errs := x.errs, heard := s.wcc.toNat }).floodOwn).sendWaiting)

end Sys2Proof.Machine
end

