-- ==== Sys2Proof/Machine/Copy.lean ====
section
/-! DEFINITION. Copies (R293 to R300): the ends of a transfer as areas of elements, records and their checks, the
elements a copy moves, and the issue of XCOPY, XLIN, XGATH, XSCAT, XIDX, XSTAT and XFENCE. -/

namespace Sys2Proof.Machine

/-! ### Elements of an end (R297, R344) -/

/-- Why an engine's access does not go through: a fault and its FADDR, a retained-wait answer, or a line of a peer still to
be read, at its virtual address. -/
inductive Stop where
  | fault (code faddr : Nat)
  | wait
  | fetch (pa va : Nat)
deriving DecidableEq, Repr

/-- The width of a raw ELEM code (R294). -/
def rawBits (elem : Nat) : Nat := 2 ^ elem

/-- A window of the issuing context. -/
def winOf (wins : Vector Win 8) (n : BitVec 3) : Win := wins[(⟨n.toNat, n.isLt⟩ : Fin 8)]

/-- A window end (R293). -/
def windowArea (wins : Vector Win 8) (core : Nat) (a : Word) (elem : Nat) : Area :=
  let w := winOf wins (addrWin a)
  { virt := false, base := w.addr core, off := addrElem a, bits := if elem = 0 then elemBits w.fmt else rawBits elem
    fmt := if elem = 0 then w.fmt else 16, geo := w.geo, pitch := w.pitch, shadow := w.scaleAddr core, len := w.len }

/-- A mapping that fails stops the access with its fault; one that a retained die turns away makes it wait (R374). -/
def mapStop (code va : Nat) : Stop := if code = 0x282 then .wait else .fault code va

/-- A page end as a core sees it in an address space, formatted by the page of its first byte, or raw (R293, R344). -/
def State.pageArea (s : State) (core asid va elem : Nat) (r : Right) : Except Stop Area :=
  if elem ≠ 0 then
    .ok { virt := true, base := va, off := 0, bits := rawBits elem, fmt := 16, geo := 3, pitch := 0, shadow := 0, len := 2 ^ 55 }
  else
    match s.mapping (clusterIndex core) asid va r with
    | .error c => .error (mapStop c va)
    | .ok p =>
      if p.fmt > 12 ∨ va * 8 % elemBits p.fmt ≠ 0 then .error (.fault 0x08A va)
      else
        .ok { virt := true, base := 0, off := (va * 8 / elemBits p.fmt : Nat), bits := elemBits p.fmt, fmt := p.fmt
              geo := p.geo, pitch := s.pagePitch asid, shadow := s.shadowBase asid, len := 2 ^ 55 }

/-- The end a copy address names. -/
def State.area (s : State) (t : Xfer) (a : Word) (elem : Nat) (r : Right) : Except Stop Area :=
  if addrWindow a then .ok (windowArea t.wins t.core a elem) else s.pageArea t.core t.asid (addrVirt a) elem r

/-- The physical address of byte `a` of an end's own space; the page must have the format asked for, if any (R342, R344,
R337, R363, R374). -/
def State.phys (s : State) (t : Xfer) (virt : Bool) (r : Right) (need : Option (Nat × Nat)) (a : Nat) : Except Stop Nat :=
  let at_ (pa : Nat) : Except Stop Nat :=
    let pl := s.place pa
    if pl = .nowhere then .error (.fault 0x08A a)
    else if s.retained pl true then .error .wait
    else if r ≠ .write ∧ s.flaws.contains (s.ownAddr pa / 64) then .error (.fault pl.flawCode a)
    else .ok (s.ownAddr pa)
  if ¬ virt then at_ a
  else
    match s.mapping (clusterIndex t.core) t.asid (a % 2 ^ 55) r with
    | .error c => .error (mapStop c (a % 2 ^ 55))
    | .ok p =>
      if (match need with
          | some f => p.fmt != f.1 || p.geo != f.2
          | none => false) then .error (.fault 0x08A (a % 2 ^ 55))
      else at_ (p.pa + (a % 2 ^ 55 - p.va))

/-- The byte of virtual address `va` where it lies: a line of a peer that has been read, the host-line buffer, or memory. -/
def State.byteAt (s : State) (t : Xfer) (va pa : Nat) : Except Stop Byte :=
  match placeOf pa with
  | .peer _ _ =>
    match t.got.find? fun g => g.1 == pa / 64 with
    | some g => .ok (g.2.getD (pa % 64) 0)
    | none => .error (.fetch (pa / 64 * 64) (va - pa % 64))
  | .host =>
    match s.hostLines.find? fun g => g.1 == pa / 64 with
    | some g => .ok (g.2.getD (pa % 64) 0)
    | none => .ok (s.mem.read pa)
  | _ => .ok (s.mem.read pa)

/-- The format a page of the end must have: none for a raw end. -/
def Area.need (d : Area) : Option (Nat × Nat) := if d.fmt = 16 then none else some (d.fmt, d.geo)

/-- `n` bytes of an end's own space from `a` on, reached under a right; none may hold an uncorrectable error (R363). -/
def State.readBytes (s : State) (t : Xfer) (virt : Bool) (need : Option (Nat × Nat)) (r : Right) (a n : Nat) :
    Except Stop (List Byte) :=
  (List.range n).mapM fun i => do
    let pa ← s.phys t virt r need (a + i)
    if s.flaws.contains (pa / 64) then throw (.fault (placeOf pa).flawCode (a + i))
    s.byteAt t (a + i) pa

/-- Bits of element i of an end. -/
def State.readElem (s : State) (t : Xfer) (d : Area) (r : Right) (i : Int) : Except Stop Nat := do
  let lo := ((d.off + i) * d.bits).toNat
  let bs ← s.readBytes t d.virt d.need r (d.base + lo / 8) ((lo % 8 + d.bits + 7) / 8)
  return (leNat bs >>> (lo % 8)) % 2 ^ d.bits

/-- The scale-byte number of storage offset e. -/
def Area.scaleIndex (d : Area) (e : Nat) : Nat := elemNumber d.geo d.pitch e / 4
/-- The end's own address of a scale byte. -/
def Area.scaleAt (d : Area) (n : Nat) : Nat := if d.virt then (d.shadow + n) % 2 ^ 55 else d.shadow + n
/-- The page format of a scale byte: FMT 0 (R344). -/
def Area.scaleNeed (d : Area) : Option (Nat × Nat) := if d.virt then some (0, 3) else none

/-- An integer as a value. -/
def fpOfInt (v : Int) : Fp := .fin (decide (v < 0)) v.natAbs 0

/-- The value of a block element as an operand: under FM = 2 one whose scaled value lies below the normal FP32 range reads as zero of
its sign (R50). -/
def flushScaled (fm : Nat) (x : Fp) : Fp :=
  match x with
  | .fin n m e => if fm = 2 ∧ m ≠ 0 ∧ (m.log2 : Int) + e < -126 then .fin n 0 0 else x
  | x => x

/-- The exact value of an element of a format (R35, R53, R297); under FM = 2 a subnormal reads as zero (R50). -/
def fmtValue (fm f b scale : Nat) : Fp :=
  match f with
  | 0 => fpDecode fmtF32 (freeRawConvert 0 b 1).toNat
  | 1 => fpDecode fmtF32 (flushIn fmtF32 fm b)
  | 2 => fpDecode fmtF16 (flushIn fmtF16 fm b)
  | 3 => fpDecode fmtBF16 (flushIn fmtBF16 fm b)
  | 4 => fpDecode fmtE4M3 b
  | 5 => fpDecode fmtE5M2 b
  | 6 => flushScaled fm (elemValue 4 b scale false)
  | 7 => flushScaled fm (elemValue 6 b scale false)
  | 8 => flushScaled fm (elemValue 8 b scale false)
  | 9 => flushScaled fm (elemValue 8 b scale true)
  | _ => fpOfInt (signExt b (elemBits f))

/-- A value on its way through a copy: bits as they stand, the fill value, or a decoded element with its format and
bits. -/
inductive Val where
  | bits (b : Nat)
  | fill (w : W32)
  | real (f b : Nat) (x : Fp)
deriving DecidableEq, Repr

/-- ReadElem of R297: bits at a raw end and between equal plain formats, else the decoded element. -/
def State.readVal (s : State) (t : Xfer) (src : Area) (fm dfmt : Nat) (i : Int) : Except Stop Val := do
  let b ← s.readElem t src .read i
  if src.fmt = 16 ∨ (src.fmt = dfmt ∧ ¬ blockFmt dfmt) then return .bits b
  else if blockFmt src.fmt then
    let at_ := src.scaleAt (src.scaleIndex (src.off + i).toNat)
    return .real src.fmt b (fmtValue fm src.fmt b (← s.byteAt t at_ (← s.phys t src.virt .read src.scaleNeed at_)).toNat)
  else return .real src.fmt b (fmtValue fm src.fmt b 0)

/-- The exact value of a fill or element, for a destination of format f (R294). -/
def Val.value (v : Val) (fm f : Nat) : Fp :=
  match v with
  | .bits b => fmtValue fm f b 0
  | .fill w => if f = 10 ∨ f = 11 ∨ f = 12 then fpOfInt w.toInt else fpDecode fmtF32 (flushIn fmtF32 fm w.toNat)
  | .real _ _ x => x

/-- A value encoded in a floating-point format (R48, R50, R51, R297). -/
def encodeFp (F : Fmt) (rm fm : Nat) (x : Fp) : Nat :=
  match x with
  | .nan => fpNaN F
  | .inf n => if F.inf then fpInf F n else fpMax F n
  | .fin n m e => (roundFlush F n m e rm fm 0).1

/-- A value encoded in an integer format: 0 for a NaN (R52, R297). -/
def encodeInt (w rm : Nat) (x : Fp) : Nat := if x.isNaN then 0 else encInt (fpToInt x w rm 0).1 w

/-- WriteElem of R297 into a plain format. -/
def encodeVal (f rm fm : Nat) (v : Val) : Nat :=
  match f, v with
  | _, .bits b => b
  | 16, v => match v with
    | .fill w => w.toNat
    | _ => 0
  | 0, .fill w => w.toNat
  | 0, .real g b _ => (freeRawConvert g b 0).toNat
  | 1, v => encodeFp fmtF32 rm fm (v.value fm 1)
  | 2, v => encodeFp fmtF16 rm fm (v.value fm 2)
  | 3, v => encodeFp fmtBF16 rm fm (v.value fm 3)
  | 4, v => encodeFp fmtE4M3 rm fm (v.value fm 4)
  | 5, v => encodeFp fmtE5M2 rm fm (v.value fm 5)
  | f, v => encodeInt (elemBits f) rm (v.value fm f)

/-- Bits of element i written. -/
def Area.cells (d : Area) (blk : Option Nat) (i : Int) (n v : Nat) : List Cell :=
  (bitCells d.base ((d.off + i) * d.bits).toNat n v).map fun c => ⟨blk, false, c.1, c.2.1, c.2.2⟩

/-- The present members of a block, by element of the end (R43, R44). -/
def Area.members (d : Area) (blk : Nat) : List (Option Int) :=
  (List.range 4).map fun j =>
    let e := elemAt d.geo d.pitch (4 * blk + j)
    if (e + 1) * d.bits ≤ d.len * 8 then some ((e : Int) - d.off) else none

/-- The block of element i. -/
def Area.blockOf (d : Area) (i : Int) : Nat := d.scaleIndex (d.off + i).toNat

/-- A block written from the values a transfer gives; a member it does not give stands as stored, and only for such a one are the old
scale and elements read (R158, R297, R344). -/
def State.blockVals (s : State) (t : Xfer) (d : Area) (rm fm blk : Nat) (items : List (Int × Val)) : Except Stop (List Cell) := do
  let stands := (d.members blk).any fun o => match o with
    | some i => !(items.any fun p => p.1 == i)
    | none => false
  let old ← (if stands then (do s.byteAt t (d.scaleAt blk) (← s.phys t d.virt .read d.scaleNeed (d.scaleAt blk))) else .ok 0 : Except Stop Byte)
  let xs ← (d.members blk).mapM fun o =>
    match o with
    | none => Except.ok (Fp.fin false 0 0)
    | some i =>
      match (items.filter fun p => p.1 == i).getLast? with
      | some p => Except.ok (p.2.value fm d.fmt)
      | none => do return fmtValue 0 d.fmt (← s.readElem t d .read i) old.toNat
  let r := encodeBlk d.fmt rm fm xs
  return ((d.members blk).zip r.2.1).flatMap (fun p =>
      match p.1 with
      | some i => d.cells (some blk) i (blockBits d.fmt) (encInt p.2 (blockBits d.fmt))
      | none => [])
    ++ [⟨some blk, true, d.scaleAt blk, 255, r.1⟩]

/-! ### Records (R294 to R296, R300) -/

def recFill (r : List Word) : W32 := (wordAt r 0).extractLsb' 32 32
def recNdim (r : List Word) : Nat := fld (wordAt r 0) 12 4
def recFm (r : List Word) : Nat := fld (wordAt r 0) 10 2
def recRm (r : List Word) : Nat := fld (wordAt r 0) 7 3
def recCmp (r : List Word) : Bool := (wordAt r 0).getLsbD 6
def recElem (r : List Word) : Nat := fld (wordAt r 0) 0 4
def recSrc (r : List Word) : Word := wordAt r 1
def recDst (r : List Word) : Word := wordAt r 2
/-- N of an XLIN record. -/
def recN (r : List Word) : Nat := fld (wordAt r 3) 0 32
/-- PERM of dimension j. -/
def recPerm (r : List Word) (j : Nat) : Nat := fld (wordAt r 3) (3 * j) 3
def recB (r : List Word) (d : Nat) : Nat := fld (wordAt r (8 + 6 * d)) 0 32
def recSC (r : List Word) (d : Nat) : Int := fldS (wordAt r (9 + 6 * d)) 0 32
def recSE (r : List Word) (d : Nat) : Int := fldS (wordAt r (9 + 6 * d)) 32 32
def recDC (r : List Word) (d : Nat) : Int := fldS (wordAt r (10 + 6 * d)) 0 32
def recDE (r : List Word) (d : Nat) : Int := fldS (wordAt r (10 + 6 * d)) 32 32
def recSS (r : List Word) (d : Nat) : Int := (wordAt r (11 + 6 * d)).toInt
def recDS (r : List Word) (d : Nat) : Int := (wordAt r (12 + 6 * d)).toInt
/-- n, SP, DP and RL of a gather or scatter record. -/
def recRows (r : List Word) : Nat := fld (wordAt r 3) 0 7
def recSP (r : List Word) : Int := (wordAt r 4).toInt
def recDP (r : List Word) : Int := (wordAt r 5).toInt
def recRL (r : List Word) : Nat := fld (wordAt r 6) 0 32

/-- The record's instruction. -/
inductive CopyKind where
  | box | lin | gather | scatter
deriving DecidableEq, Repr

def copyKind (i : Instr) : CopyKind :=
  match i with
  | .xcopy _ _ _ _ => .box
  | .xlin _ _ _ _ => .lin
  | .xgath _ _ _ _ => .gather
  | _ => .scatter

/-- Words of the record: its alignment and its size (R295, R296, R300). -/
def CopyKind.words (k : CopyKind) : Nat := if k = .box then 64 else 8

/-- No reserved value and no non-zero rsv bit (R294 to R296, R300). -/
def recordOk (k : CopyKind) (r : List Word) : Bool :=
  let w0 := wordAt r 0
  fld w0 16 16 == 0 && decide (recFm r ≤ 2 ∧ recRm r ≤ 3 ∧ recElem r ≤ 6) && fld w0 4 2 == 0
    && (k == .lin || !recCmp r)
    && (match k with
      | .lin => recNdim r == 0 && fld (wordAt r 3) 32 32 == 0 && [4, 5, 6, 7].all fun i => wordAt r i == 0
      | .box =>
        decide (1 ≤ recNdim r ∧ recNdim r ≤ 7) && fld (wordAt r 3) 21 43 == 0
          && ((List.range (recNdim r)).all fun d => ((List.range (recNdim r)).map (recPerm r)).contains d)
          && ([4, 5, 6, 7].all fun i => wordAt r i == 0)
          && (List.range (recNdim r)).all fun d => fld (wordAt r (8 + 6 * d)) 32 32 == 0 && wordAt r (13 + 6 * d) == 0
      | _ =>
        recNdim r == 0 && decide (1 ≤ recRows r ∧ recRows r ≤ 64) && fld (wordAt r 3) 7 57 == 0
          && fld (wordAt r 6) 32 32 == 0 && wordAt r 7 == 0)

/-- An element a transfer moves: its place in the order of RP (R348), the source element, or none for FILL, and the
destination element. -/
structure Move where
  at_ : Nat
  src : Option Int
  dst : Int
deriving DecidableEq, Repr

/-- Index d of the index vector numbered n, i_0 counting fastest (R296). -/
def boxIndex (r : List Word) (n d : Nat) : Nat :=
  n / ((List.range d).map (recB r)).foldl (· * ·) 1 % recB r d

/-- The index vectors of a box (R296): each one's place, its source element, none for FILL, and its destination element, none when a
coordinate out of bounds drops the element. -/
def boxVectors (r : List Word) : List (Nat × Option Int × Option Int) :=
  let dims := List.range (recNdim r)
  (List.range ((dims.map (recB r)).foldl (· * ·) 1)).map fun n =>
    let sc (d : Nat) : Int := recSC r d + boxIndex r n d
    let dc (j : Nat) : Int := recDC r j + boxIndex r n (recPerm r j)
    let inb := dims.all fun d => decide (0 ≤ sc d ∧ sc d < recSE r d)
    let keep := dims.all fun j => decide (0 ≤ dc j ∧ dc j < recDE r j)
    (n, if inb then some ((dims.map fun d => sc d * recSS r d).sum) else none,
      if keep then some ((dims.map fun j => dc j * recDS r j).sum) else none)

/-- The moves of a box. -/
def boxMoves (r : List Word) : List Move :=
  (boxVectors r).filterMap fun v => v.2.2.map fun d => ⟨v.1, v.2.1, d⟩

/-- The source elements, by place, that a copy reads from element `rp` on and drops on store (R296). -/
def copyDrops (k : CopyKind) (r : List Word) (rp : Nat) : List (Nat × Int) :=
  if k = .box then (boxVectors r).filterMap fun v => if v.2.2.isNone ∧ rp ≤ v.1 then v.2.1.map fun i => (v.1, i) else none else []

/-- The moves of row k of a gather or scatter whose index is x (R300). -/
def rowMoves (k : CopyKind) (r : List Word) (row : Nat) (x : Int) : List Move :=
  let p : Int := (row : Int)
  let so := if k = .gather then x * recSP r else p * recSP r
  let do_ := if k = .gather then p * recDP r else x * recDP r
  (List.range (recRL r)).map fun (c : Nat) => ⟨row, some (so + (c : Int)), do_ + (c : Int)⟩

/-- The moves of a copy from element `rp` on; a gather's or scatter's rows move one by one. -/
def copyMoves (k : CopyKind) (r : List Word) (rp : Nat) : List Move :=
  match k with
  | .box => (boxMoves r).filter fun m => decide (rp ≤ m.at_)
  | .lin => (List.range (recN r - rp)).map fun (i : Nat) => ⟨rp + i, some ((rp + i : Nat) : Int), ((rp + i : Nat) : Int)⟩
  | _ => []

/-! ### The checks of R298 -/

/-- A trap of the X slot. -/
def xTrap (code faddr : Nat) : Option Trap := some ⟨code, faddr, none, none⟩

/-- Check 1 for a record of `n` words of 8 bytes at word offset `off`, aligned to `align` words of 4 bytes. -/
def recordFault (w : Win) (align n off : Nat) : Option Trap :=
  let lo : Int := 4 * off
  if w.kind ≠ 1 ∨ ¬ w.rd then xTrap 0x081 (faddrOf lo)
  else if w.fmt ≠ 0 then xTrap 0x082 (faddrOf lo)
  else if off % align ≠ 0 then xTrap 0x083 (faddrOf lo)
  else if lo + 8 * n > w.len then xTrap 0x084 (faddrOf (max lo w.len))
  else none

/-- Check 4 for one end. -/
def endFault (wins : Vector Win 8) (a : Word) (wr : Bool) (elem : Nat) (cmp : Bool) : Option Trap :=
  if ¬ addrWindow a then none
  else
    let w := winOf wins (addrWin a)
    if w.kind = 0 ∨ (if wr then ¬ w.wr else ¬ w.rd) then xTrap 0x081 0
    else if (elem = 0 ∧ w.fmt > 12) ∨ (cmp ∧ ¬ wr ∧ w.fmt ≠ 0) then xTrap 0x082 0
    else none

/-- An exact value fits 64 bits signed. -/
def fits64 (x : Int) : Bool := decide (-(2 ^ 63) ≤ x ∧ x < 2 ^ 63)

/-- The least and greatest of the coordinates of a dimension that lie in [0, extent). -/
def coordSpan (start : Int) (box : Nat) (ext : Int) : Option (Int × Int) :=
  let lo := max start 0
  let hi := min (start + box - 1) (ext - 1)
  if lo ≤ hi then some (lo, hi) else none

/-- Products and running sums at the corners overflow (check 5). -/
def cornersOver (base : Int) (dims : List (Option (Int × Int) × Int)) : Bool :=
  if dims.any fun d => d.1.isNone then false
  else
    let ps := dims.map fun d =>
      match d.1 with
      | some c => (min (c.1 * d.2) (c.2 * d.2), max (c.1 * d.2) (c.2 * d.2))
      | none => (0, 0)
    let sums := ps.foldl (fun (a : Int × Int × Bool) p =>
        let lo := a.1 + p.1
        let hi := a.2.1 + p.2
        (lo, hi, a.2.2 || !fits64 p.1 || !fits64 p.2 || !fits64 lo || !fits64 hi)) (base, base, false)
    sums.2.2

/-- The element a copy address starts at, for check 5: a virtual end is counted in elements of its raw width, or of 32
bits. -/
def baseElem (a : Word) (elem : Nat) : Int :=
  if addrWindow a then addrElem a else (addrVirt a * 8 / (if elem = 0 then 32 else rawBits elem) : Nat)

/-- Check 5 for a box. -/
def boxOver (r : List Word) : Bool :=
  let dims := List.range (recNdim r)
  cornersOver (baseElem (recSrc r) (recElem r)) (dims.map fun d => (coordSpan (recSC r d) (recB r d) (recSE r d), recSS r d))
    || cornersOver (baseElem (recDst r) (recElem r))
      (dims.map fun j => (coordSpan (recDC r j) (recB r (recPerm r j)) (recDE r j), recDS r j))

/-- Check 6 for the elements `es` of one end: the lowest offending byte of a window, any of a virtual end. -/
def reachFault (wins : Vector Win 8) (core : Nat) (a : Word) (elem : Nat) (es : List Int) : Option Trap :=
  if addrWindow a then
    let d := windowArea wins core a elem
    (rangeFault d.bits d.len (es.map fun i => d.off + i)).bind fun b => xTrap 0x084 (faddrOf b)
  else
    let bits := if elem = 0 then 32 else rawBits elem
    let A : Int := addrVirt a
    if es.any fun i => decide (A + byteLo bits i < 0 ∨ A + byteHi bits i > 2 ^ 55) then xTrap 0x08B 0 else none

/-- Check 6 for `n` consecutive elements from the end's base on. -/
def runFault (wins : Vector Win 8) (core : Nat) (a : Word) (elem n : Nat) : Option Trap :=
  if n = 0 then none
  else if addrWindow a then
    let d := windowArea wins core a elem
    if byteHi d.bits (d.off + n - 1) > d.len then xTrap 0x084 (faddrOf (max (byteLo d.bits d.off) d.len)) else none
  else
    let bits := if elem = 0 then 32 else rawBits elem
    if (addrVirt a : Int) + byteHi bits (n - 1) > 2 ^ 55 then xTrap 0x08B 0 else none

/-- Check 6 for the 64-byte header at the source of a compressed copy. -/
def headerFault (wins : Vector Win 8) (core : Nat) (a : Word) : Option Trap :=
  if addrWindow a then
    let d := windowArea wins core a 5
    let lo := 4 * d.off
    if lo + 64 > d.len then xTrap 0x084 (faddrOf (max lo d.len)) else none
  else if addrVirt a + 64 > 2 ^ 55 then xTrap 0x08B 0 else none

/-- Every block that holds a touched element is wholly touched (check 7). -/
def wholeBlocks (d : Area) (es : List Int) : Bool :=
  es.all fun i => (d.members (d.blockOf i)).all fun o =>
    match o with
    | some j => es.contains j
    | none => true

/-- Check 7 at a formatted window end. -/
def blockFault (wins : Vector Win 8) (core : Nat) (a : Word) (elem : Nat) (es : List Int) : Option Trap :=
  if addrWindow a ∧ elem = 0 ∧ blockFmt (winOf wins (addrWin a)).fmt ∧ ¬ wholeBlocks (windowArea wins core a 0) es then
    xTrap 0x182 (a.toNat % 2 ^ 55)
  else none

/-- Check 8 for one end: box sizes and strides by dimension. -/
def pitchOdd (bits : Nat) (dims : List (Nat × Int)) : Bool :=
  let ds := dims.filter fun d => decide (d.1 > 1)
  decide ((ds.filter fun d => d.2 == 1 || d.2 == -1).length > 1)
    || ds.any fun d => !(d.2 == 1 || d.2 == -1) && d.2 * bits % 8 != 0

/-- The elements a copy touches at its source and at its destination, by element of the end. -/
def touchedSrc (k : CopyKind) (r : List Word) : List Int := (copyMoves k r 0).filterMap Move.src ++ (copyDrops k r 0).map Prod.snd
def touchedDst (k : CopyKind) (r : List Word) : List Int := (copyMoves k r 0).map Move.dst
/-- The row starts of the end a gather or scatter does not index. -/
def rowSpan (p : Int) (r : List Word) : List Int :=
  (List.range (recRows r)).flatMap fun (k : Nat) => (List.range (recRL r)).map fun (c : Nat) => (k : Int) * p + (c : Int)

/-- The static-domain copies of R299. -/
def isStatic (r : List Word) (lit : W32) : Bool :=
  addrWindow (recSrc r) && addrWindow (recDst r) && decide (3 ≤ recElem r ∧ recElem r ≤ 6) && !recCmp r
    && decide (recN r * rawBits (recElem r) ≤ 512) && lit.extractLsb' 0 18 == 0

/-- The physical bytes of one end of a static-domain copy. -/
def runSpan (wins : Vector Win 8) (core : Nat) (a : Word) (elem n : Nat) : Nat × Nat :=
  let d := windowArea wins core a elem
  (d.base + (byteLo d.bits d.off).toNat, d.base + (byteHi d.bits (d.off + n - 1)).toNat)

/-- Check 9, for the issue in `r` clk. -/
def State.staticFault (s : State) (recd : List Word) (lit : W32) (r : Nat) : Option Trap :=
  if ¬ isStatic recd lit ∨ recN recd = 0 then none
  else
    let core := s.fr.core
    let one (a : Word) (late : Nat) : Option Trap :=
      let w := winOf s.me.sys.wins (addrWin a)
      if w.lateral core ∧ ¬ s.me.bind.lateralOk w.vcl (s.myDie.scc.toNat + r + late) then
        xTrap 0x104 (faddrOf (byteLo (rawBits (recElem recd)) (addrElem a)))
      else none
    let hit (a : Word) : Option Trap :=
      let w := winOf s.me.sys.wins (addrWin a)
      (spanOverlap [runSpan s.me.sys.wins core a (recElem recd) (recN recd)] (s.myCore.pend.map fun p => (p.lo, p.hi))).bind
        fun b => xTrap 0x105 (faddrOf ((b : Int) - w.addr core))
    (one (recSrc recd) 31).or ((one (recDst recd) 32).or ((hit (recSrc recd)).or (hit (recDst recd))))

/-- The bounding boxes, in the end's own space, of the data bytes that a copy writes at its destination and of their scale bytes
(R292). -/
def Area.boxes (d : Area) (k : CopyKind) (r : List Word) : List (Nat × Nat) :=
  let byte (x : Int) : Nat := d.base + x.toNat
  let es : List Int :=
    match k with
    | .lin => if recN r = 0 then [] else [0, (recN r : Int) - 1]
    | .gather => rowSpan (recDP r) r
    | _ => touchedDst k r
  let los := es.map fun i => d.off + i
  let lo := los.foldl min (los.headD d.off)
  let hi := los.foldl max (los.headD (d.off - 1))
  let data := (byte (byteLo d.bits lo), byte (byteHi d.bits hi))
  if blockFmt d.fmt then
    let all := if k = .lin then (List.range (recN r)).map fun (i : Nat) => d.off + (i : Int) else los
    let ns := all.map fun e => d.scaleAt (d.scaleIndex e.toNat)
    [data, (ns.foldl Nat.min (ns.headD d.shadow), ns.foldl (fun x y => Nat.max x (y + 1)) (ns.headD d.shadow))]
  else [data]

/-- A place is an SRAM that a core's pending-range table covers: its scratchpad, or a vault of its die (R292). -/
def Place.pends (core : Nat) (p : Place) : Bool :=
  match p with
  | .pad c => c == core
  | .vault d _ => d == dieOf core
  | _ => false

/-- The bytes [lo, hi) of an address space as an entry of a core's pending-range table: the bounding box of those that lie in the SRAM
that holds the first of them, when it is one the table covers (log 60); an empty range makes an empty entry (R312). -/
def State.pendVirt (s : State) (core asid : Nat) (b : Nat × Nat) : List (Nat × Nat) :=
  let at_ (a : Nat) : Option Nat := match s.mapping (clusterIndex core) asid (a % 2 ^ 55) .write with
    | .ok p => some (s.ownAddr (p.pa + (a % 2 ^ 55 - p.va)))
    | .error _ => none
  match at_ b.1 with
  | none => []
  | some p0 =>
    if ¬ (placeOf p0).pends core then []
    else if b.2 ≤ b.1 then [(p0, p0)]
    else
      let ps := (List.range ((b.2 - 1) / 65536 + 1 - b.1 / 65536)).filterMap fun i =>
        let lo := max b.1 (65536 * (b.1 / 65536 + i))
        let hi := min b.2 (65536 * (b.1 / 65536 + i + 1))
        (at_ lo).bind fun p => if placeOf p = placeOf p0 then some (p, p + (hi - lo)) else none
      [(ps.foldl (fun m p => Nat.min m p.1) p0, ps.foldl (fun m p => Nat.max m p.2) p0)]

/-- The pending ranges of an issue (R292). -/
def State.pendRanges (s : State) (wins : Vector Win 8) (core asid : Nat) (k : CopyKind) (r : List Word) : List (Nat × Nat) :=
  let a := recDst r
  if addrWindow a then
    if (winOf wins (addrWin a)).kind = 0 then []
    else
      let d := windowArea wins core a (recElem r)
      if k = .scatter then [(d.base, d.base + d.len)] else d.boxes k r
  else if k = .scatter then []
  else
    match s.pageArea core asid (addrVirt a) (recElem r) .write with
    | .ok d => (d.boxes k r).flatMap (s.pendVirt core asid)
    | .error _ => []

/-- The pending ranges of a copy of the issuing context. -/
def State.myPend (s : State) (k : CopyKind) (r : List Word) : List (Nat × Nat) :=
  s.pendRanges s.me.sys.wins s.fr.core s.me.bind.asid.toNat k r

/-- An X-slot issue's operands as its checks see them: the offset of its record and the record's words. -/
def State.recordWin (s : State) (lit : W32) : Win := winOf s.me.sys.wins (BitVec.ofNat 3 (litOpt lit))
def State.readRecord (s : State) (w : Win) (off n : Nat) : List Word := s.mem.words (w.addr s.fr.core + 4 * off) n

/-- The address bases of an X syllable's issues (R80, R308). -/
def State.basesX (s : State) (a : BitVec 5) : List Nat := (s.issueBases s.me.sys.strx a).map BitVec.toNat

/-- The checks of R298, in their order, each over every issue of the bundle. -/
def copyFault (k : CopyKind) (a : BitVec 5) (l : BitVec 4) (s : State) : Option Trap :=
  let lit := s.tokenLit l
  let w := s.recordWin lit
  let core := s.fr.core
  let wins := s.me.sys.wins
  let offs := s.basesX a
  match offs.findSome? (recordFault w (if k = .box then 128 else 16) k.words) with
  | some t => some t
  | none =>
    let rs := offs.map fun o => s.readRecord w o k.words
    let overs (f : List Word → Option Trap) : Option Trap := rs.findSome? f
    (overs fun r => if recordOk k r then none else xTrap 0x004 0).or
    ((overs fun r => if addrOk (recSrc r) false && addrOk (recDst r) false then none else xTrap 0x08B 0).or
    ((overs fun r => (endFault wins (recSrc r) false (recElem r) (recCmp r)).or
        (endFault wins (recDst r) true (recElem r) false)).or
    ((overs fun r => if k = .box ∧ boxOver r then xTrap 0x181 0 else none).or
    ((overs fun r =>
        match k with
        | .lin => (if recCmp r then headerFault wins core (recSrc r) else runFault wins core (recSrc r) (recElem r) (recN r)).or
            (runFault wins core (recDst r) (recElem r) (recN r))
        | .box => (reachFault wins core (recSrc r) (recElem r) (touchedSrc k r)).or
            (reachFault wins core (recDst r) (recElem r) (touchedDst k r))
        | .gather => (reachFault wins core (recSrc r) (recElem r) [0]).or
            (reachFault wins core (recDst r) (recElem r) (rowSpan (recDP r) r))
        | .scatter => (reachFault wins core (recSrc r) (recElem r) (rowSpan (recSP r) r)).or
            (reachFault wins core (recDst r) (recElem r) [0])).or
    ((overs fun r => if k = .lin ∨ k = .box then
          (if recCmp r then none else blockFault wins core (recSrc r) (recElem r) (touchedSrc k r)).or
            (blockFault wins core (recDst r) (recElem r) (touchedDst k r))
        else none).or
    ((overs fun r =>
        let dims := List.range (recNdim r)
        if k = .box ∧ (recElem r = 1 ∨ recElem r = 2) ∧
            (pitchOdd (rawBits (recElem r)) (dims.map fun d => (recB r d, recSS r d))
              ∨ pitchOdd (rawBits (recElem r)) (dims.map fun j => (recB r (recPerm r j), recDS r j))) then xTrap 0x183 0
        else none).or
    ((rs.zipIdx.findSome? fun p => if k = .lin then s.staticFault p.1 lit p.2 else none).or
    ((if (k = .gather ∨ k = .scatter) ∧ (s.me.seq.isSome ∨ 1 < s.fr.reps) then xTrap 0x18B 0 else none).or
    ((if s.inFlightOver then xTrap 0x185 0 else none).or
     (if s.myCore.pend.length + (rs.map fun r => (s.myPend k r).length).sum > 32 then xTrap 0x186 0
      else none))))))))))

/-! ### Issue -/

/-- The literal of a copy is legal (R95, R309): SCOPE is not 7 and no undefined OPT bit is set. -/
def litOk (i : Instr) (l : BitVec 4) (optBits : Nat) (s : State) : Bool := fieldsOnly i s && tokenLitOk (s.tokenLit l) optBits

/-- The accesses of a static-domain copy (R299): the read performs at issue + 31 and the write at issue + 32. -/
def State.staticCopy (s : State) (x : Xid) (r : List Word) : State :=
  let mk (k : AccKind) (a : Word) (left : Nat) : Access :=
    { kind := k, core := s.fr.core, ctx := s.fr.ctx.val, slot := 7, ord := s.me.ord, left := left, land := left, keep := .live
      port := 8 * (s.fr.core % 384) + 3, win := winOf s.me.sys.wins (addrWin a)
      elem := (addrElem a * rawBits (recElem r) / 8 : Nat), step := 0, index := [], data := []
      arg := BitVec.ofNat 64 (recN r * rawBits (recElem r) / 8), arg2 := 0, mask := 0, rm := 0, fm := 0, dest := noDest
      dest2 := noDest, x := x, msmx := [] }
  let die := s.myDie
  s.setMyDie { die with acc := die.acc ++ [mk .copyRead (recSrc r) 32, mk .copyWrite (recDst r) 33] }

/-- The issue of XCOPY, XLIN, XGATH or XSCAT (R308): the record is read, the identifier allocated, the token written and
the pending entries made. -/
def copyOp (i : Instr) (tg : Tag) (kd : BitVec 6) (a : BitVec 5) (l : BitVec 4) (s : State) : State :=
  (s.enter 14).gate (s.cond tg) fun s =>
    let k := copyKind i
    let lit := s.tokenLit l
    let r := s.readRecord (s.recordWin lit) (s.baseS a).toNat k.words
    let fixed := k == .lin && isStatic r lit
    let t := { s.mkXfer i (litCh lit) lit [s.baseS a, s.nowS (a + 1), s.nowS (a + 2)] r with
      fixed := fixed, phase := if fixed then .started else .held }
    let s := (s.addXfer t (litCh lit)).putK 7 1 kd (tokenOf t.x)
    let s := s.setMyCore { s.myCore with
      pend := s.myCore.pend ++ (s.myPend k r).map fun p => ⟨p.1, p.2, t.x⟩ }
    let s := if fixed then s.staticCopy t.x r else s
    if k = .gather ∨ k = .scatter then s.setMe { s.me with seq := some ⟨t.x, recRows r, 0⟩ } else s

/-- The checks of XIDX (R300): an open sequence that still takes an index, and the row's address. -/
def xidxFault (a : BitVec 5) (s : State) : Option Trap :=
  match s.me.seq with
  | none => xTrap 0x18B 0
  | some q =>
    if q.pushed + s.fr.reps > q.n then xTrap 0x18B 0
    else
      match s.myCore.xfer? q.x with
      | none => none
      | some t =>
        let r := t.recd
        let k := copyKind t.op
        let ix : Int := (s.nowS a).toInt
        let e := if k = .gather then recSrc r else recDst r
        let p := if k = .gather then recSP r else recDP r
        if ¬ fits64 (ix * p) ∨ ¬ fits64 (baseElem e (recElem r) + ix * p) then xTrap 0x181 0
        else reachFault t.wins t.core e (recElem r) ((List.range (recRL r)).map fun (c : Nat) => ix * p + (c : Int))

/-- XIDX pushes s(a) and the sequence closes with its last index (R300, R309). -/
def actXidx (tg : Tag) (a : BitVec 5) (s : State) : State :=
  (s.enter 14).gate (s.cond tg) fun s =>
    match s.me.seq with
    | none => s
    | some q =>
      let s := match s.myCore.xfer? q.x with
        | some t => s.setMyCore (s.myCore.setXfer { t with index := t.index ++ [s.nowS a] })
        | none => s
      s.setMe { s.me with seq := if q.pushed + 1 ≥ q.n then none else some { q with pushed := q.pushed + 1 } }

/-- XSTAT reads its channel at the end of the issue clk (R310). -/
def actXstat (tg : Tag) (d : BitVec 5) (ch : BitVec 3) (s : State) : State :=
  (s.enter 14).gate (s.cond tg) fun s =>
    let die := s.myDie
    s.setMyDie { die with acc := die.acc ++
      [{ kind := .xstat, core := s.fr.core, ctx := s.fr.ctx.val, slot := 7, ord := s.me.ord, left := 1, land := 2, keep := .live
         port := 8 * (s.fr.core % 384) + 3, win := {}, elem := (ch.toNat : Int), step := 0, index := [], data := [], arg := 0
         arg2 := 0, mask := 0, rm := 0, fm := 0, dest := s.destS d, dest2 := noDest, x := ⟨0, 0⟩, msmx := [] }] }

/-- XFENCE (R311): it waits for the transfers the context issued in earlier clk and the accesses it has in flight; its SCOPE is
sc. -/
def actXfence (tg : Tag) (kd : BitVec 6) (sc : BitVec 3) (s : State) : State :=
  (s.enter 14).gate (s.cond tg) fun s =>
    let now := s.myDie.scc.toNat
    let t := { s.mkXfer (.xfence tg kd sc) 0 (BitVec.ofNat 32 (sc.toNat * 2 ^ 18)) [] [] with
      after := (s.myCore.xfers.filter fun (u : Xfer) => u.ctx == s.fr.ctx.val && decide (u.since < now)).map Xfer.x }
    (s.addXfer t 0).putK 7 1 kd (tokenOf t.x)

/-- The limits of R285 alone. -/
def limitFault (s : State) : Option Trap := if s.inFlightOver then xTrap 0x185 0 else none

/-- XCOPY captures its record. -/
def actXcopy (tg : Tag) (kd : BitVec 6) (a : BitVec 5) (l : BitVec 4) : State → State := copyOp (.xcopy tg kd a l) tg kd a l
/-- XCOPY (R296), issued alone. -/
def execXcopy (tg : Tag) (kd : BitVec 6) (a : BitVec 5) (l : BitVec 4) (s : State) : Out :=
  .next (s.issueSyl (.xcopy tg kd a l) 7 (litOk (.xcopy tg kd a l) l 3) (copyFault .box a l) (actXcopy tg kd a l))

/-- XLIN captures its record. -/
def actXlin (tg : Tag) (kd : BitVec 6) (a : BitVec 5) (l : BitVec 4) : State → State := copyOp (.xlin tg kd a l) tg kd a l
/-- XLIN (R295), issued alone. -/
def execXlin (tg : Tag) (kd : BitVec 6) (a : BitVec 5) (l : BitVec 4) (s : State) : Out :=
  .next (s.issueSyl (.xlin tg kd a l) 7 (litOk (.xlin tg kd a l) l 3) (copyFault .lin a l) (actXlin tg kd a l))

/-- XGATH captures its record. -/
def actXgath (tg : Tag) (kd : BitVec 6) (a : BitVec 5) (l : BitVec 4) : State → State := copyOp (.xgath tg kd a l) tg kd a l
/-- XGATH (R300), issued alone. -/
def execXgath (tg : Tag) (kd : BitVec 6) (a : BitVec 5) (l : BitVec 4) (s : State) : Out :=
  .next (s.issueSyl (.xgath tg kd a l) 7 (litOk (.xgath tg kd a l) l 3) (copyFault .gather a l) (actXgath tg kd a l))

/-- XSCAT captures its record. -/
def actXscat (tg : Tag) (kd : BitVec 6) (a : BitVec 5) (l : BitVec 4) : State → State := copyOp (.xscat tg kd a l) tg kd a l
/-- XSCAT (R300), issued alone. -/
def execXscat (tg : Tag) (kd : BitVec 6) (a : BitVec 5) (l : BitVec 4) (s : State) : Out :=
  .next (s.issueSyl (.xscat tg kd a l) 7 (litOk (.xscat tg kd a l) l 3) (copyFault .scatter a l) (actXscat tg kd a l))

/-- XIDX (R300), issued alone. -/
def execXidx (tg : Tag) (a : BitVec 5) (s : State) : Out :=
  .next (s.issueSyl (.xidx tg a) 7 (fieldsOnly (.xidx tg a)) (xidxFault a) (actXidx tg a))

/-- XSTAT (R310), issued alone. -/
def execXstat (tg : Tag) (d : BitVec 5) (ch : BitVec 3) (s : State) : Out :=
  .next (s.issueSyl (.xstat tg d ch) 7 (fieldsOnly (.xstat tg d ch)) noFault (actXstat tg d ch))

/-- XFENCE (R311), issued alone. -/
def execXfence (tg : Tag) (kd : BitVec 6) (sc : BitVec 3) (s : State) : Out :=
  .next (s.issueSyl (.xfence tg kd sc) 7 (fieldsOnly (.xfence tg kd sc)) limitFault (actXfence tg kd sc))

end Sys2Proof.Machine
end

