-- ==== Sys2Proof/Machine/SysRegs.lean ====
section
/-! DEFINITION. System registers, energy reads and random draws (R15, R16, R63 to R68, R122 to R127): slots S0
and S1. -/

namespace Sys2Proof.Machine

/-- A number R15 assigns. -/
def srAssigned (n : Nat) : Bool :=
  decide (n ≤ 0x0E) || decide (0x10 ≤ n ∧ n ≤ 0x12) || decide (0x18 ≤ n ∧ n ≤ 0x1C) || n == 0x20 || n == 0x21 ||
    decide (0x40 ≤ n ∧ n ≤ 0x4F)
/-- A register that is read-only at every privilege (R15). -/
def srReadOnly (n : Nat) : Bool := n == 0x04 || n == 0x05 || n == 0x0E || n == 0x20 || n == 0x21
/-- A register writable only in privileged mode (R15). -/
def srPrivileged (n : Nat) : Bool :=
  n == 0x01 || n == 0x02 || n == 0x03 || n == 0x09 || n == 0x0A || n == 0x0B || decide (0x40 ≤ n ∧ n ≤ 0x4F)

/-- A seed-log entry as its 32 bytes read, one integer (R65). -/
def SeedEntry.bits (e : SeedEntry) : Nat :=
  e.key.toNat + e.issue.toNat * 2 ^ 128 + (e.core.toNat + e.ctxn.toNat * 2 ^ 14) * 2 ^ 192 + e.asid.toNat * 2 ^ 208 +
    ((if e.valid then 1 else 0) + e.origin.toNat * 4) * 2 ^ 224

def State.seedEntry (s : State) (i : Nat) : SeedEntry := Table.get {} s.seedlog i

/-- SEEDRD (R68): a word of the selected entry, 0 unless it is valid and of the reader's tenant. -/
def State.seedRd (s : State) : Word :=
  let sel := s.me.sys.seedsel
  let e := s.seedEntry (sel.extractLsb' 0 8).toNat
  if e.valid && e.asid == s.me.bind.asid then BitVec.ofNat 64 (e.bits >>> (64 * (sel.extractLsb' 8 2).toNat)) else 0

/-- The value MFSR reads (R15, R122). -/
def State.readSr (s : State) (n : Nat) : Word :=
  let y := s.me.sys
  if 0x40 ≤ n ∧ n < 0x50 then
    let w := y.wins[(⟨(n - 0x40) / 2 % 8, Nat.mod_lt _ (by omega)⟩ : Fin 8)]
    if n % 2 = 0 then w.w0 else w.w1
  else
    match n with
    | 0x00 => ctxstatWord s.fr.ctx y
    | 0x01 => y.epc.zeroExtend 64
    | 0x02 => y.cause.zeroExtend 64
    | 0x03 => y.faddr.zeroExtend 64
    | 0x04 => y.wid
    | 0x05 => y.taskid
    | 0x06 => y.flags.zeroExtend 64
    | 0x07 => y.rmode.zeroExtend 64
    | 0x08 => y.fmode.zeroExtend 64
    | 0x09 => y.ecnt.zeroExtend 64
    | 0x0A => y.eres.zeroExtend 64
    | 0x0B => y.stream ++ 0#24 ++ y.seed
    | 0x0C => y.rcnt
    | 0x0D => y.seedsel.zeroExtend 64
    | 0x0E => s.seedRd
    | 0x10 => y.lc.zeroExtend 64
    | 0x11 => y.nstg.zeroExtend 64
    | 0x12 => y.rot.zeroExtend 64
    | 0x18 => y.strv0
    | 0x19 => y.strv1
    | 0x1A => y.strl0
    | 0x1B => y.strl1
    | 0x1C => y.strx
    | 0x20 => s.myDie.scc
    | 0x21 => s.wcc
    | _ => 0

/-- The fault of a read or write of an unassigned number (R16). -/
def srFault (sr : BitVec 8) (_ : State) : Option Trap :=
  if srAssigned sr.toNat then none else some ⟨0x005, sr.toNat, none, none⟩

/-- A write to CTXSTAT that would change a field it may not (R123): CTX, STATE, INTRAP, PROT and GANG at any
privilege, PRIV outside privileged mode. -/
def ctxstatDenied (x : Fin 4) (y : Sys) (w : Word) : Bool :=
  let r := ctxstatWord x y
  (w ^^^ r) &&& 0xF700#64 != 0 || (!y.priv && w.getLsbD 11)

/-- A write of a reserved encoding into a defined field (R13, R16, R22, R28). DESIGN CHOICE (notes/assumptions/50.md): of two
writes of one bundle to the words of one window, each is checked against the other word as it stands before the bundle. -/
def srReserved (y : Sys) (n : Nat) (w : Word) : Bool :=
  if 0x40 ≤ n ∧ n < 0x50 then
    let o := y.wins[(⟨(n - 0x40) / 2 % 8, Nat.mod_lt _ (by omega)⟩ : Fin 8)]
    if n % 2 = 0 then !(Win.mk (winWord0 w) o.w1).ok else !(Win.mk o.w0 (winWord1 w)).word1Ok
  else
    match n with
    | 0x07 => decide ((w.extractLsb' 0 3).toNat ≥ 5)
    | 0x08 => w.extractLsb' 0 2 == 3#2
    | 0x11 => decide ((w.extractLsb' 0 3).toNat ≥ 5)
    | _ => false

/-- The faults of MTSR, by the table of R16. -/
def mtsrFault (d : BitVec 5) (sr : BitVec 8) (s : State) : Option Trap :=
  let n := sr.toNat
  let y := s.me.sys
  let w := s.rdS d
  if ¬ srAssigned n then some ⟨0x005, n, none, none⟩
  else if srReadOnly n ∨ (srPrivileged n ∧ ¬ y.priv) ∨ (n = 0 ∧ ctxstatDenied s.fr.ctx y w) then
    some ⟨0x381, 0, none, none⟩
  else if srReserved y n w then some ⟨0x004, n, none, none⟩
  else none

/-- The layout of RDEN (R125). -/
def rdenWord (y : Sys) : Word := BitVec.ofBool y.esat ++ 0#11 ++ y.ecnt ++ y.eres

/-- The invalid-seed fault of a drawing operation (R67). -/
def State.seedFault (s : State) : Option Trap :=
  let e := s.seedEntry s.me.sys.seed.toNat
  if e.valid && e.asid == s.me.bind.asid then none else some ⟨0x201, s.me.sys.seed.toNat, none, none⟩

/-- A draw of n words (R63, R126): it goes on from the counter the last draw of the clk left, and the one write of
RCNT takes the rank of the highest slot that drew. -/
def State.draw (s : State) (slot n : Nat) : List W32 × State :=
  let c0 := match s.fr.draw with
    | some (c, _, _) => c
    | none => s.me.sys.rcnt
  let ws := drawWords (s.seedEntry s.me.sys.seed.toNat).key s.me.sys.stream c0 n
  let c1 := c0 + BitVec.ofNat 64 ((n + 3) / 4)
  let old := match s.fr.draw with
    | some (_, sl, o) => s.me.land.filter fun l => !decide (l.slot = sl ∧ l.ord = o ∧ l.left = 1 ∧ l.dest = .sr 0x0C)
    | none => s.me.land
  let s := s.setMe { s.me with land := old }
  (ws, (s.putSr slot 1 0x0C c1).setFr { s.fr with draw := some (c1, slot, s.me.ord) })

/-- The lowest-numbered entry with VALID = 0 (R66). -/
def State.freeSeed (s : State) : Option Nat := (List.range 256).find? fun i => !(s.seedEntry i).valid

/-- One seed request of a core's context (R66): the entry filled and its index, or the code of the failure. -/
def State.seedRequest (s : State) (core ctx asid : Nat) : (Nat ⊕ Nat) × State :=
  if s.entropyBad then (.inr 0x301, s)
  else
    match s.freeSeed with
    | none => (.inr 0x382, s)
    | some i =>
      let key := leNat (shake256 (leBytes 32 (freeEntropy s.free).toNat) 16)
      let e : SeedEntry :=
        { key := BitVec.ofNat 128 key, issue := s.wcc, core := BitVec.ofNat 12 core
          ctxn := BitVec.ofNat 2 ctx, asid := BitVec.ofNat 16 asid, valid := true, origin := 0 }
      (.inl i, { s with seedlog := Table.put s.seedlog i e, free := s.free + 1 })

/-- The in-flight limit on an S-slot request (R285). -/
def flightFault (s : State) : Option Trap := if s.inFlightOver then some ⟨0x185, 0, none, none⟩ else none

/-- A seed request that waits is served, or fails (R66): piece 0 of it has performed. -/
def State.serveSeed (s : State) (t : Xfer) : State :=
  let r := s.seedRequest t.core t.ctx t.asid
  let u := match r.1 with
    | .inl n => { t with pieces := [0], found := BitVec.ofNat 64 n }
    | .inr code => { t with pieces := [0], err := some (code, 0) }
  r.2.setCore t.core ((r.2.core t.core).setXfer u)

/-- A seed request that has not been served. -/
def Xfer.wantsSeed (t : Xfer) : Bool := (t.op matches .seedreq _ _ _) && t.pieces == []

/-- The requests of a clk are served at its end, in ascending order of the cores (R66): every read and draw of the clk has met the
log as it stood before (R68, R122). One context of a core issues in a clk, its slots in order. -/
def State.serveSeeds (s : State) (cores : List Nat) : State :=
  cores.foldl (fun s c => ((s.core c).xfers.filter Xfer.wantsSeed).foldl State.serveSeed s) s

/-- A seed request (R127): it takes an identifier of channel 7 (R283), its token lands at latency 1, and its result
waits for the token. -/
def seedreqOp (i : Instr) (slot : Nat) (d : BitVec 5) (kd : BitVec 6) (s : State) : State :=
  let t := s.mkXfer i 7 0 [BitVec.ofNat 64 (physReg s.me.sys.rot d).val] []
  (s.addXfer t 7).putK slot 1 kd (tokenOf t.x)

/-- Read a system register into s(d). -/
def actMfsr (tg : Tag2) (d : BitVec 5) (sr : BitVec 8) : State → State :=
  fun s => (s.enter 0).gate (s.condS tg) fun t => t.putS (slotOf tg 0) 1 d (s.readSr sr.toNat)
/-- MFSR (R122), issued alone. -/
def execMfsr (tg : Tag2) (d : BitVec 5) (sr : BitVec 8) (s : State) : Out :=
  .next (s.issueSyl (.mfsr tg d sr) (slotOf tg 0) (fieldsOnly (.mfsr tg d sr)) (srFault sr) (actMfsr tg d sr))

/-- Write a system register from s(d), with field-specific checks. -/
def actMtsr (tg : Tag2) (d : BitVec 5) (sr : BitVec 8) : State → State :=
  fun s => (s.enter 0).gate (s.condS tg) fun t => t.putSr (slotOf tg 0) 1 sr.toNat (s.rdS d)
/-- MTSR (R122), issued alone. -/
def execMtsr (tg : Tag2) (d : BitVec 5) (sr : BitVec 8) (s : State) : Out :=
  .next (s.issueSyl (.mtsr tg d sr) (slotOf tg 0) (fieldsOnly (.mtsr tg d sr)) (mtsrFault d sr) (actMtsr tg d sr))

/-- Read the context's energy count into s(d). -/
def actRden (tg : Tag2) (d : BitVec 5) : State → State :=
  fun s => (s.enter 0).gate (s.condS tg) fun t => t.putS (slotOf tg 0) 1 d (rdenWord s.me.sys)
/-- RDEN (R125), issued alone. -/
def execRden (tg : Tag2) (d : BitVec 5) (s : State) : Out :=
  .next (s.issueSyl (.rden tg d) (slotOf tg 0) (fieldsOnly (.rden tg d)) noFault (actRden tg d))

/-- Draw one 64-bit random word into s(d) at latency 6. -/
def actRand (tg : Tag2) (d : BitVec 5) : State → State :=
  fun s =>
    (s.enter 1).gate (s.condS tg) fun t =>
      let r := t.draw (slotOf tg 0) 2
      r.2.putS (slotOf tg 0) 6 d (r.1.getD 1 0 ++ r.1.getD 0 0)
/-- RAND (R126), issued alone. -/
def execRand (tg : Tag2) (d : BitVec 5) (s : State) : Out :=
  .next (s.issueSyl (.rand tg d) (slotOf tg 0) (fieldsOnly (.rand tg d)) State.seedFault (actRand tg d))

/-- Request a new seed-log key, producing a token. -/
def actSeedreq (tg : Tag2) (d : BitVec 5) (kd : BitVec 6) : State → State :=
  fun s => (s.enter 1).gate (s.condS tg) (seedreqOp (.seedreq tg d kd) (slotOf tg 0) d kd)
/-- SEEDREQ (R127), issued alone. -/
def execSeedreq (tg : Tag2) (d : BitVec 5) (kd : BitVec 6) (s : State) : Out :=
  .next (s.issueSyl (.seedreq tg d kd) (slotOf tg 0) (fieldsOnly (.seedreq tg d kd)) flightFault (actSeedreq tg d kd))

end Sys2Proof.Machine
end

