-- ==== Sys2Proof/Machine/Vector.lean ====
section
/-! DEFINITION. Vector instructions (R129 to R153): slots V0 and V1. A vector operation is never gated; its lane
mask acts as its kind says (R130). -/

namespace Sys2Proof.Machine

/-- A lane mask from its bits. -/
def maskOf (f : Nat → Bool) : Word :=
  BitVec.ofNat 64 ((List.range 64).foldl (fun a k => if f k then a + 2 ^ k else a) 0)

/-- A merge-kind operation: the lanes `f` on the active lanes (R130, R131). -/
def mergeOp (tg : Tag2) (cls : Fin 16) (lat : Nat) (d : BitVec 5) (f : State → Nat → W32 × Fl) (s : State) : State :=
  let sel := s.sel tg
  let r := laneMap sel (f s)
  (s.enter cls).putV (slotOf tg 2) lat d r.1 sel r.2

/-- A mask-result operation (R130): bit k is `f k` on the active lanes, 0 elsewhere. -/
def maskOp (tg : Tag2) (lat : Nat) (md : BitVec 3) (f : State → Nat → Bool × Fl) (s : State) : State :=
  let sel := s.sel tg
  let rs := (List.range 64).map (f s)
  let fl := rs.zipIdx.foldl (fun a r => if sel.getLsbD r.2 then a ||| r.1.2 else a) 0
  (s.enter 3).putM (slotOf tg 2) lat md (sel &&& maskOf fun k => ((rs.map Prod.fst).getD k false)) fl

/-- An operation that writes every lane (select and identity kinds, R130). -/
def wholeOp (tg : Tag2) (cls : Fin 16) (lat : Nat) (d : BitVec 5) (f : State → Word → Lanes × Fl) (s : State) : State :=
  let r := f s (s.sel tg)
  (s.enter cls).putV (slotOf tg 2) lat d r.1 (BitVec.allOnes 64) r.2

/-- The words a drawing operation draws at an issue: `n` when the mode is stochastic, none otherwise (R132). -/
def State.drawWhen (s : State) (b : Bool) (slot n : Nat) : List W32 × State := if b then s.draw slot n else ([], s)

/-- An arithmetic operation of R135 on the elements of a format: operands a, b and the addend vd, one draw word
each in the stochastic mode (R64). -/
def fpOp (F : Fmt) (tg : Tag2) (cls : Fin 16) (lat : Nat) (d a b : BitVec 5)
    (op : Nat → Nat → Nat → Nat → Nat → Nat → Nat × Fl) (s : State) : State :=
  let va := s.nowV a; let vb := s.nowV b; let vd := s.nowV d
  let r := (s.enter cls).drawWhen (s.rm == 4) (slotOf tg 2) (64 * (32 / F.width))
  let sel := s.sel tg
  let v := laneMap sel fun k => elemMap F.width fun e =>
    op s.rm s.fm (r.1.getD (k + 64 * e) 0).toNat
      (elemOf (lane va k) F.width e) (elemOf (lane vb k) F.width e) (elemOf (lane vd k) F.width e)
  r.2.putV (slotOf tg 2) lat d v.1 sel v.2

/-- The invalid-seed fault of an operation that draws in the stochastic mode (R132). -/
def State.roundFault (s : State) : Option Trap := if s.rm = 4 then s.seedFault else none

/-- An integer operation of R137 on every element of `n` bits. -/
def intOp (n : Nat) (tg : Tag2) (lat : Nat) (d a b : BitVec 5) (op : Int → Int → Nat × Fl) : State → State :=
  mergeOp tg 3 lat d fun s k => elemMap n fun e =>
    op (signExt (elemOf (lane (s.nowV a) k) n e) n) (signExt (elemOf (lane (s.nowV b) k) n e) n)

/-- A lane operation of R141, which sets no flag. -/
def laneOp (tg : Tag2) (cls : Fin 16) (lat : Nat) (d a b : BitVec 5) (op : W32 → W32 → W32) : State → State :=
  mergeOp tg cls lat d fun s k => (op (lane (s.nowV a) k) (lane (s.nowV b) k), 0)

/-- A floating-point compare of R138. -/
def fpCmpOp (c : Cmp) (tg : Tag2) (md : BitVec 3) (a b : BitVec 5) : State → State :=
  maskOp tg 2 md fun s k => fpCompare fmtF32 c s.fm (lane (s.nowV a) k).toNat (lane (s.nowV b) k).toNat

/-- An integer compare of R138. -/
def intCmpOp (op : W32 → W32 → Bool) (tg : Tag2) (md : BitVec 3) (a b : BitVec 5) : State → State :=
  maskOp tg 2 md fun s k => (op (lane (s.nowV a) k) (lane (s.nowV b) k), 0)

/-- A mask operation of R139. -/
def maskLogic (op : Bool → Bool → Bool) (tg : Tag2) (md ma mb : BitVec 3) : State → State :=
  maskOp tg 1 md fun s k => (op ((s.nowM ma).getLsbD k) ((s.nowM mb).getLsbD k), 0)

/-- The conversion format codes of R76. -/
inductive CvtFmt where
  | fp (F : Fmt)
  | int (n : Nat)
deriving DecidableEq, Repr

def cvtFmt (c : BitVec 3) : CvtFmt :=
  match c.toNat with
  | 0 => .fp fmtF32
  | 1 => .fp fmtBF16
  | 2 => .fp fmtF16
  | 3 => .fp fmtE4M3
  | 4 => .fp fmtE5M2
  | 5 => .int 32
  | 6 => .int 16
  | _ => .int 8

/-- One conversion of R142, on element 0 of a lane. -/
def convert (src dst : CvtFmt) (rm fm dw : Nat) (x : W32) : Nat × Fl :=
  match src, dst with
  | .fp S, .fp D => fpConvert S D rm fm dw (x.toNat % 2 ^ S.width)
  | .fp S, .int n =>
    let b := x.toNat % 2 ^ S.width
    let b := if S.width > 8 then flushIn S fm b else b
    let r := fpToInt (fpDecode S b) n rm dw
    (encInt r.1 n, r.2)
  | .int m, .fp D => intToFp D (signExt x.toNat m) rm fm dw
  | .int m, .int n => if n < m then satInt n (signExt x.toNat m) else wrapInt n (signExt x.toNat m)

/-- VCVT and VCVT.SR (R142). -/
def cvtOp (sr : Bool) (lat : Nat) (tg : Tag2) (d a : BitVec 5) (sf df : BitVec 3) (s : State) : State :=
  let rm := if sr then 4 else s.rm
  let va := s.nowV a
  let r := (s.enter 6).drawWhen (rm == 4) (slotOf tg 2) 64
  let sel := s.sel tg
  let v := laneMap sel fun k =>
    let y := convert (cvtFmt sf) (cvtFmt df) rm s.fm (r.1.getD k 0).toNat (lane va k)
    (BitVec.ofNat 32 y.1, y.2)
  r.2.putV (slotOf tg 2) lat d v.1 sel v.2

/-- The element width of a packed image's format (R143). -/
def packBits (f : BitVec 2) : Nat :=
  match f.toNat with
  | 0 => 4
  | 1 => 6
  | _ => 8

/-- The register image of R143 from its 16 blocks, as lanes. -/
def packImage (n : Nat) (blocks : List (Nat × List Int)) : Lanes :=
  let img := (blocks.zipIdx.map fun b =>
    ((b.1.2.zipIdx.map fun m => encInt m.1 n <<< (n * (4 * b.2 + m.2))).sum + b.1.1 <<< (8 * (64 + b.2)))).sum
  mkLanes fun k => BitVec.ofNat 32 (img >>> (32 * k))

/-- The image of a packed register as one integer (R143). -/
def imageNat (v : Lanes) : Nat := (v.zipIdx.map fun p => p.1.toNat <<< (32 * p.2)).sum

/-- A block encoded as BSI of n bits, or BSF8 (R54, R55). -/
def encodeBlocks (isF : Bool) (n rm fm : Nat) (ds : List Nat) (xs : List Fp) : Nat × List Int × Fl :=
  if isF then encodeBlockF xs rm fm ds else encodeBlock xs n rm fm ds

/-- The 16 blocks of 64 values and their flags. -/
def packBlocks (isF : Bool) (n rm fm : Nat) (x : Nat → Fp) (d : Nat → Nat) : List (Nat × List Int) × Fl :=
  let bs := (List.range 16).map fun b =>
    encodeBlocks isF n rm fm ((List.range 4).map fun j => d (4 * b + j)) ((List.range 4).map fun j => x (4 * b + j))
  (bs.map fun b => (b.1, b.2.1), bs.foldl (fun f b => f ||| b.2.2) 0)

/-- VPACK (R144): an inactive lane is read as +0. -/
def packOp (tg : Tag2) (d a : BitVec 5) (f : BitVec 2) (s : State) : State :=
  let va := s.nowV a; let sel := s.sel tg
  let r := (s.enter 6).drawWhen (s.rm == 4) (slotOf tg 2) 64
  let b := packBlocks (f == 3) (packBits f) s.rm s.fm
    (fun k => if sel.getLsbD k then fpDecode fmtF32 (flushIn fmtF32 s.fm (lane va k).toNat) else .fin false 0 0)
    (fun k => (r.1.getD k 0).toNat)
  r.2.putV (slotOf tg 2) 5 d (packImage (packBits f) b.1) (BitVec.allOnes 64) b.2

/-- VUNPK (R145). -/
def unpackOp (tg : Tag2) (d a : BitVec 5) (f : BitVec 2) : State → State :=
  mergeOp tg 6 4 d fun s k =>
    let img := imageNat (s.nowV a)
    let n := packBits f
    let r := decodeElem n ((img >>> (n * k)) % 2 ^ n) ((img >>> (8 * (64 + k / 4))) % 256) (f == 3) s.rm s.fm
    (BitVec.ofNat 32 r.1, r.2)

/-- The inputs of a reduction or scan: an excluded lane gives the identity (R59, R60). -/
def treeInputs (v : Lanes) (sel : Word) (idn : W32) : List W32 :=
  (List.range 64).map fun k => if sel.getLsbD k then lane v k else idn

/-- An FP32 addition step of R148. -/
def stepAddF (s : State) (a b : W32) : W32 × Fl :=
  let r := fpAdd fmtF32 s.rmPlain s.fm 0 a.toNat b.toNat
  (BitVec.ofNat 32 r.1, r.2)
/-- A Min or Max step of R146. -/
def stepMinMax (max : Bool) (s : State) (a b : W32) : W32 × Fl :=
  let r := fpMinMax fmtF32 max s.fm a.toNat b.toNat
  (BitVec.ofNat 32 r.1, r.2)
/-- A wrapped I32 addition step. -/
def stepAddI (_ : State) (a b : W32) : W32 × Fl := (a + b, 0)

/-- A reduction of R146: t[0] to all 64 lanes. -/
def redOp (tg : Tag2) (d a : BitVec 5) (idn : W32) (op : State → W32 → W32 → W32 × Fl) : State → State :=
  wholeOp tg 7 8 d fun s sel =>
    let r := treeReduce (op s) (treeInputs (s.nowV a) sel idn)
    (splat (r.1.headD 0), r.2)

/-- An FP32 operand as FM = 2 reads it (R50, R132). -/
def readF32 (s : State) (w : W32) : W32 := BitVec.ofNat 32 (flushIn fmtF32 s.fm w.toNat)

/-- A scan of R147 over operands as `rd` reads them. DESIGN CHOICE (log 63): lane 0 passes through no step, and is written as read. -/
def scanOp (tg : Tag2) (d a : BitVec 5) (rd : State → W32 → W32) (op : State → W32 → W32 → W32 × Fl) : State → State :=
  wholeOp tg 7 8 d fun s sel =>
    let r := treeScan (op s) ((treeInputs (s.nowV a) sel 0).map (rd s))
    (mkLanes fun k => r.1.getD k 0, r.2)

/-- The three lists of R150, joined, and the counts nt and nf. -/
def partition (sel mask : Word) : List Nat × Nat × Nat :=
  let l := List.range 64
  let t := l.filter fun k => sel.getLsbD k && mask.getLsbD k
  let f := l.filter fun k => sel.getLsbD k && !mask.getLsbD k
  (t ++ f ++ l.filter (fun k => !sel.getLsbD k), t.length, f.length)

/-- VPART (R150): both results have the rank of the V slot. -/
def partOp (tg : Tag2) (d : BitVec 5) (ma : BitVec 3) (sd : BitVec 5) (s : State) : State :=
  let p := partition (s.sel tg) (s.nowM ma)
  ((s.enter 7).putV (slotOf tg 2) 4 d (mkLanes fun k => BitVec.ofNat 32 (p.1.getD k 0)) (BitVec.allOnes 64) 0).putS
    (slotOf tg 2) 4 sd (BitVec.ofNat 64 (p.2.2 * 2 ^ 32 + p.2.1))

/-- An approximation of R151. -/
def approxOp (k : Approx) (tg : Tag2) (d a : BitVec 5) : State → State :=
  mergeOp tg 6 6 d fun s i => let r := fpApprox k s.fm (lane (s.nowV a) i).toNat; (BitVec.ofNat 32 r.1, r.2)

/-- VRAND (R152): every word is drawn, an active lane takes its own. -/
def randOp (tg : Tag2) (d : BitVec 5) (s : State) : State :=
  let r := (s.enter 6).draw (slotOf tg 2) 64
  r.2.putV (slotOf tg 2) 6 d (mkLanes fun k => r.1.getD k 0) (s.sel tg) 0

/-- Lane-wise FP32 add. -/
def actVaddF32 (tg : Tag2) (d a b : BitVec 5) : State → State :=
  fpOp fmtF32 tg 4 4 d a b fun rm fm w a b _ => fpAdd fmtF32 rm fm w a b
/-- VADD.F32 (R135), issued alone. -/
def execVaddF32 (tg : Tag2) (d a b : BitVec 5) (s : State) : Out :=
  .next (s.issueSyl (.vaddF32 tg d a b) (slotOf tg 2) (fieldsOnly (.vaddF32 tg d a b)) State.roundFault (actVaddF32 tg d a b))

/-- Lane-wise FP32 subtract. -/
def actVsubF32 (tg : Tag2) (d a b : BitVec 5) : State → State :=
  fpOp fmtF32 tg 4 4 d a b fun rm fm w a b _ => fpSub fmtF32 rm fm w a b
/-- VSUB.F32 (R135), issued alone. -/
def execVsubF32 (tg : Tag2) (d a b : BitVec 5) (s : State) : Out :=
  .next (s.issueSyl (.vsubF32 tg d a b) (slotOf tg 2) (fieldsOnly (.vsubF32 tg d a b)) State.roundFault (actVsubF32 tg d a b))

/-- Lane-wise FP32 multiply. -/
def actVmulF32 (tg : Tag2) (d a b : BitVec 5) : State → State :=
  fpOp fmtF32 tg 4 4 d a b fun rm fm w a b _ => fpMul fmtF32 rm fm w a b
/-- VMUL.F32 (R135), issued alone. -/
def execVmulF32 (tg : Tag2) (d a b : BitVec 5) (s : State) : Out :=
  .next (s.issueSyl (.vmulF32 tg d a b) (slotOf tg 2) (fieldsOnly (.vmulF32 tg d a b)) State.roundFault (actVmulF32 tg d a b))

/-- Lane-wise FP32 fused multiply-add into vd. -/
def actVfmaF32 (tg : Tag2) (d a b : BitVec 5) : State → State :=
  fpOp fmtF32 tg 4 4 d a b fun rm fm w a b c => fpFma fmtF32 rm fm w a b c
/-- VFMA.F32 (R135), issued alone. -/
def execVfmaF32 (tg : Tag2) (d a b : BitVec 5) (s : State) : Out :=
  .next (s.issueSyl (.vfmaF32 tg d a b) (slotOf tg 2) (fieldsOnly (.vfmaF32 tg d a b)) State.roundFault (actVfmaF32 tg d a b))

/-- Lane-wise FP32 minimum. -/
def actVminF32 (tg : Tag2) (d a b : BitVec 5) : State → State :=
  mergeOp tg 4 2 d fun s k => elemMap 32 fun e =>
    fpMinMax fmtF32 false s.fm (elemOf (lane (s.nowV a) k) 32 e) (elemOf (lane (s.nowV b) k) 32 e)
/-- VMIN.F32 (R135), issued alone. -/
def execVminF32 (tg : Tag2) (d a b : BitVec 5) (s : State) : Out :=
  .next (s.issueSyl (.vminF32 tg d a b) (slotOf tg 2) (fieldsOnly (.vminF32 tg d a b)) noFault (actVminF32 tg d a b))

/-- Lane-wise FP32 maximum. -/
def actVmaxF32 (tg : Tag2) (d a b : BitVec 5) : State → State :=
  mergeOp tg 4 2 d fun s k => elemMap 32 fun e =>
    fpMinMax fmtF32 true s.fm (elemOf (lane (s.nowV a) k) 32 e) (elemOf (lane (s.nowV b) k) 32 e)
/-- VMAX.F32 (R135), issued alone. -/
def execVmaxF32 (tg : Tag2) (d a b : BitVec 5) (s : State) : Out :=
  .next (s.issueSyl (.vmaxF32 tg d a b) (slotOf tg 2) (fieldsOnly (.vmaxF32 tg d a b)) noFault (actVmaxF32 tg d a b))

/-- Element-wise BF16 add. -/
def actVaddBf16 (tg : Tag2) (d a b : BitVec 5) : State → State :=
  fpOp fmtBF16 tg 5 4 d a b fun rm fm w a b _ => fpAdd fmtBF16 rm fm w a b
/-- VADD.BF16 (R135), issued alone. -/
def execVaddBf16 (tg : Tag2) (d a b : BitVec 5) (s : State) : Out :=
  .next (s.issueSyl (.vaddBf16 tg d a b) (slotOf tg 2) (fieldsOnly (.vaddBf16 tg d a b)) State.roundFault (actVaddBf16 tg d a b))

/-- Element-wise BF16 subtract. -/
def actVsubBf16 (tg : Tag2) (d a b : BitVec 5) : State → State :=
  fpOp fmtBF16 tg 5 4 d a b fun rm fm w a b _ => fpSub fmtBF16 rm fm w a b
/-- VSUB.BF16 (R135), issued alone. -/
def execVsubBf16 (tg : Tag2) (d a b : BitVec 5) (s : State) : Out :=
  .next (s.issueSyl (.vsubBf16 tg d a b) (slotOf tg 2) (fieldsOnly (.vsubBf16 tg d a b)) State.roundFault (actVsubBf16 tg d a b))

/-- Element-wise BF16 multiply. -/
def actVmulBf16 (tg : Tag2) (d a b : BitVec 5) : State → State :=
  fpOp fmtBF16 tg 5 4 d a b fun rm fm w a b _ => fpMul fmtBF16 rm fm w a b
/-- VMUL.BF16 (R135), issued alone. -/
def execVmulBf16 (tg : Tag2) (d a b : BitVec 5) (s : State) : Out :=
  .next (s.issueSyl (.vmulBf16 tg d a b) (slotOf tg 2) (fieldsOnly (.vmulBf16 tg d a b)) State.roundFault (actVmulBf16 tg d a b))

/-- Element-wise BF16 fused multiply-add. -/
def actVfmaBf16 (tg : Tag2) (d a b : BitVec 5) : State → State :=
  fpOp fmtBF16 tg 5 4 d a b fun rm fm w a b c => fpFma fmtBF16 rm fm w a b c
/-- VFMA.BF16 (R135), issued alone. -/
def execVfmaBf16 (tg : Tag2) (d a b : BitVec 5) (s : State) : Out :=
  .next (s.issueSyl (.vfmaBf16 tg d a b) (slotOf tg 2) (fieldsOnly (.vfmaBf16 tg d a b)) State.roundFault (actVfmaBf16 tg d a b))

/-- Element-wise BF16 minimum. -/
def actVminBf16 (tg : Tag2) (d a b : BitVec 5) : State → State :=
  mergeOp tg 5 2 d fun s k => elemMap 16 fun e =>
    fpMinMax fmtBF16 false s.fm (elemOf (lane (s.nowV a) k) 16 e) (elemOf (lane (s.nowV b) k) 16 e)
/-- VMIN.BF16 (R135), issued alone. -/
def execVminBf16 (tg : Tag2) (d a b : BitVec 5) (s : State) : Out :=
  .next (s.issueSyl (.vminBf16 tg d a b) (slotOf tg 2) (fieldsOnly (.vminBf16 tg d a b)) noFault (actVminBf16 tg d a b))

/-- Element-wise BF16 maximum. -/
def actVmaxBf16 (tg : Tag2) (d a b : BitVec 5) : State → State :=
  mergeOp tg 5 2 d fun s k => elemMap 16 fun e =>
    fpMinMax fmtBF16 true s.fm (elemOf (lane (s.nowV a) k) 16 e) (elemOf (lane (s.nowV b) k) 16 e)
/-- VMAX.BF16 (R135), issued alone. -/
def execVmaxBf16 (tg : Tag2) (d a b : BitVec 5) (s : State) : Out :=
  .next (s.issueSyl (.vmaxBf16 tg d a b) (slotOf tg 2) (fieldsOnly (.vmaxBf16 tg d a b)) noFault (actVmaxBf16 tg d a b))

/-- Element-wise FP16 add. -/
def actVaddF16 (tg : Tag2) (d a b : BitVec 5) : State → State :=
  fpOp fmtF16 tg 5 4 d a b fun rm fm w a b _ => fpAdd fmtF16 rm fm w a b
/-- VADD.F16 (R135), issued alone. -/
def execVaddF16 (tg : Tag2) (d a b : BitVec 5) (s : State) : Out :=
  .next (s.issueSyl (.vaddF16 tg d a b) (slotOf tg 2) (fieldsOnly (.vaddF16 tg d a b)) State.roundFault (actVaddF16 tg d a b))

/-- Element-wise FP16 multiply. -/
def actVmulF16 (tg : Tag2) (d a b : BitVec 5) : State → State :=
  fpOp fmtF16 tg 5 4 d a b fun rm fm w a b _ => fpMul fmtF16 rm fm w a b
/-- VMUL.F16 (R135), issued alone. -/
def execVmulF16 (tg : Tag2) (d a b : BitVec 5) (s : State) : Out :=
  .next (s.issueSyl (.vmulF16 tg d a b) (slotOf tg 2) (fieldsOnly (.vmulF16 tg d a b)) State.roundFault (actVmulF16 tg d a b))

/-- Element-wise FP16 fused multiply-add. -/
def actVfmaF16 (tg : Tag2) (d a b : BitVec 5) : State → State :=
  fpOp fmtF16 tg 5 4 d a b fun rm fm w a b c => fpFma fmtF16 rm fm w a b c
/-- VFMA.F16 (R135), issued alone. -/
def execVfmaF16 (tg : Tag2) (d a b : BitVec 5) (s : State) : Out :=
  .next (s.issueSyl (.vfmaF16 tg d a b) (slotOf tg 2) (fieldsOnly (.vfmaF16 tg d a b)) State.roundFault (actVfmaF16 tg d a b))

/-- Lane-wise wrapped I32 add. -/
def actVaddI32 (tg : Tag2) (d a b : BitVec 5) : State → State :=
  intOp 32 tg 2 d a b fun x y => wrapInt 32 (x + y)
/-- VADD.I32 (R137), issued alone. -/
def execVaddI32 (tg : Tag2) (d a b : BitVec 5) (s : State) : Out :=
  .next (s.issueSyl (.vaddI32 tg d a b) (slotOf tg 2) (fieldsOnly (.vaddI32 tg d a b)) noFault (actVaddI32 tg d a b))

/-- Lane-wise wrapped I32 subtract. -/
def actVsubI32 (tg : Tag2) (d a b : BitVec 5) : State → State :=
  intOp 32 tg 2 d a b fun x y => wrapInt 32 (x - y)
/-- VSUB.I32 (R137), issued alone. -/
def execVsubI32 (tg : Tag2) (d a b : BitVec 5) (s : State) : Out :=
  .next (s.issueSyl (.vsubI32 tg d a b) (slotOf tg 2) (fieldsOnly (.vsubI32 tg d a b)) noFault (actVsubI32 tg d a b))

/-- Low 32 bits of lane-wise product. -/
def actVmulI32 (tg : Tag2) (d a b : BitVec 5) : State → State :=
  intOp 32 tg 3 d a b fun x y => wrapInt 32 (x * y)
/-- VMUL.I32 (R137), issued alone. -/
def execVmulI32 (tg : Tag2) (d a b : BitVec 5) (s : State) : Out :=
  .next (s.issueSyl (.vmulI32 tg d a b) (slotOf tg 2) (fieldsOnly (.vmulI32 tg d a b)) noFault (actVmulI32 tg d a b))

/-- Saturating I32 add. -/
def actVaddsI32 (tg : Tag2) (d a b : BitVec 5) : State → State :=
  intOp 32 tg 2 d a b fun x y => satInt 32 (x + y)
/-- VADDS.I32 (R137), issued alone. -/
def execVaddsI32 (tg : Tag2) (d a b : BitVec 5) (s : State) : Out :=
  .next (s.issueSyl (.vaddsI32 tg d a b) (slotOf tg 2) (fieldsOnly (.vaddsI32 tg d a b)) noFault (actVaddsI32 tg d a b))

/-- Signed I32 minimum. -/
def actVminI32 (tg : Tag2) (d a b : BitVec 5) : State → State :=
  intOp 32 tg 2 d a b fun x y => wrapInt 32 (min x y)
/-- VMIN.I32 (R137), issued alone. -/
def execVminI32 (tg : Tag2) (d a b : BitVec 5) (s : State) : Out :=
  .next (s.issueSyl (.vminI32 tg d a b) (slotOf tg 2) (fieldsOnly (.vminI32 tg d a b)) noFault (actVminI32 tg d a b))

/-- Signed I32 maximum. -/
def actVmaxI32 (tg : Tag2) (d a b : BitVec 5) : State → State :=
  intOp 32 tg 2 d a b fun x y => wrapInt 32 (max x y)
/-- VMAX.I32 (R137), issued alone. -/
def execVmaxI32 (tg : Tag2) (d a b : BitVec 5) (s : State) : Out :=
  .next (s.issueSyl (.vmaxI32 tg d a b) (slotOf tg 2) (fieldsOnly (.vmaxI32 tg d a b)) noFault (actVmaxI32 tg d a b))

/-- Wrapped I16 element add. -/
def actVaddI16 (tg : Tag2) (d a b : BitVec 5) : State → State :=
  intOp 16 tg 2 d a b fun x y => wrapInt 16 (x + y)
/-- VADD.I16 (R137), issued alone. -/
def execVaddI16 (tg : Tag2) (d a b : BitVec 5) (s : State) : Out :=
  .next (s.issueSyl (.vaddI16 tg d a b) (slotOf tg 2) (fieldsOnly (.vaddI16 tg d a b)) noFault (actVaddI16 tg d a b))

/-- Wrapped I16 element subtract. -/
def actVsubI16 (tg : Tag2) (d a b : BitVec 5) : State → State :=
  intOp 16 tg 2 d a b fun x y => wrapInt 16 (x - y)
/-- VSUB.I16 (R137), issued alone. -/
def execVsubI16 (tg : Tag2) (d a b : BitVec 5) (s : State) : Out :=
  .next (s.issueSyl (.vsubI16 tg d a b) (slotOf tg 2) (fieldsOnly (.vsubI16 tg d a b)) noFault (actVsubI16 tg d a b))

/-- Low 16 bits of element product. -/
def actVmulI16 (tg : Tag2) (d a b : BitVec 5) : State → State :=
  intOp 16 tg 3 d a b fun x y => wrapInt 16 (x * y)
/-- VMUL.I16 (R137), issued alone. -/
def execVmulI16 (tg : Tag2) (d a b : BitVec 5) (s : State) : Out :=
  .next (s.issueSyl (.vmulI16 tg d a b) (slotOf tg 2) (fieldsOnly (.vmulI16 tg d a b)) noFault (actVmulI16 tg d a b))

/-- Saturating I16 element add. -/
def actVaddsI16 (tg : Tag2) (d a b : BitVec 5) : State → State :=
  intOp 16 tg 2 d a b fun x y => satInt 16 (x + y)
/-- VADDS.I16 (R137), issued alone. -/
def execVaddsI16 (tg : Tag2) (d a b : BitVec 5) (s : State) : Out :=
  .next (s.issueSyl (.vaddsI16 tg d a b) (slotOf tg 2) (fieldsOnly (.vaddsI16 tg d a b)) noFault (actVaddsI16 tg d a b))

/-- Wrapped I8 element add. -/
def actVaddI8 (tg : Tag2) (d a b : BitVec 5) : State → State :=
  intOp 8 tg 2 d a b fun x y => wrapInt 8 (x + y)
/-- VADD.I8 (R137), issued alone. -/
def execVaddI8 (tg : Tag2) (d a b : BitVec 5) (s : State) : Out :=
  .next (s.issueSyl (.vaddI8 tg d a b) (slotOf tg 2) (fieldsOnly (.vaddI8 tg d a b)) noFault (actVaddI8 tg d a b))

/-- Wrapped I8 element subtract. -/
def actVsubI8 (tg : Tag2) (d a b : BitVec 5) : State → State :=
  intOp 8 tg 2 d a b fun x y => wrapInt 8 (x - y)
/-- VSUB.I8 (R137), issued alone. -/
def execVsubI8 (tg : Tag2) (d a b : BitVec 5) (s : State) : Out :=
  .next (s.issueSyl (.vsubI8 tg d a b) (slotOf tg 2) (fieldsOnly (.vsubI8 tg d a b)) noFault (actVsubI8 tg d a b))

/-- Saturating I8 element add. -/
def actVaddsI8 (tg : Tag2) (d a b : BitVec 5) : State → State :=
  intOp 8 tg 2 d a b fun x y => satInt 8 (x + y)
/-- VADDS.I8 (R137), issued alone. -/
def execVaddsI8 (tg : Tag2) (d a b : BitVec 5) (s : State) : Out :=
  .next (s.issueSyl (.vaddsI8 tg d a b) (slotOf tg 2) (fieldsOnly (.vaddsI8 tg d a b)) noFault (actVaddsI8 tg d a b))

/-- Mask of FP32 equality. -/
def actVcmpeqF32 (tg : Tag2) (md : BitVec 3) (a b : BitVec 5) : State → State :=
  fpCmpOp .eq tg md a b
/-- VCMPEQ.F32 (R138), issued alone. -/
def execVcmpeqF32 (tg : Tag2) (md : BitVec 3) (a b : BitVec 5) (s : State) : Out :=
  .next (s.issueSyl (.vcmpeqF32 tg md a b) (slotOf tg 2) (fieldsOnly (.vcmpeqF32 tg md a b)) noFault (actVcmpeqF32 tg md a b))

/-- Mask of FP32 less-than. -/
def actVcmpltF32 (tg : Tag2) (md : BitVec 3) (a b : BitVec 5) : State → State :=
  fpCmpOp .lt tg md a b
/-- VCMPLT.F32 (R138), issued alone. -/
def execVcmpltF32 (tg : Tag2) (md : BitVec 3) (a b : BitVec 5) (s : State) : Out :=
  .next (s.issueSyl (.vcmpltF32 tg md a b) (slotOf tg 2) (fieldsOnly (.vcmpltF32 tg md a b)) noFault (actVcmpltF32 tg md a b))

/-- Mask of FP32 less-or-equal. -/
def actVcmpleF32 (tg : Tag2) (md : BitVec 3) (a b : BitVec 5) : State → State :=
  fpCmpOp .le tg md a b
/-- VCMPLE.F32 (R138), issued alone. -/
def execVcmpleF32 (tg : Tag2) (md : BitVec 3) (a b : BitVec 5) (s : State) : Out :=
  .next (s.issueSyl (.vcmpleF32 tg md a b) (slotOf tg 2) (fieldsOnly (.vcmpleF32 tg md a b)) noFault (actVcmpleF32 tg md a b))

/-- Mask of bit equality. -/
def actVcmpeqI32 (tg : Tag2) (md : BitVec 3) (a b : BitVec 5) : State → State :=
  intCmpOp (fun x y => x == y) tg md a b
/-- VCMPEQ.I32 (R138), issued alone. -/
def execVcmpeqI32 (tg : Tag2) (md : BitVec 3) (a b : BitVec 5) (s : State) : Out :=
  .next (s.issueSyl (.vcmpeqI32 tg md a b) (slotOf tg 2) (fieldsOnly (.vcmpeqI32 tg md a b)) noFault (actVcmpeqI32 tg md a b))

/-- Mask of signed less-than. -/
def actVcmpltI32 (tg : Tag2) (md : BitVec 3) (a b : BitVec 5) : State → State :=
  intCmpOp (fun x y => BitVec.slt x y) tg md a b
/-- VCMPLT.I32 (R138), issued alone. -/
def execVcmpltI32 (tg : Tag2) (md : BitVec 3) (a b : BitVec 5) (s : State) : Out :=
  .next (s.issueSyl (.vcmpltI32 tg md a b) (slotOf tg 2) (fieldsOnly (.vcmpltI32 tg md a b)) noFault (actVcmpltI32 tg md a b))

/-- Mask of signed less-or-equal. -/
def actVcmpleI32 (tg : Tag2) (md : BitVec 3) (a b : BitVec 5) : State → State :=
  intCmpOp (fun x y => BitVec.sle x y) tg md a b
/-- VCMPLE.I32 (R138), issued alone. -/
def execVcmpleI32 (tg : Tag2) (md : BitVec 3) (a b : BitVec 5) (s : State) : Out :=
  .next (s.issueSyl (.vcmpleI32 tg md a b) (slotOf tg 2) (fieldsOnly (.vcmpleI32 tg md a b)) noFault (actVcmpleI32 tg md a b))

/-- Mask AND under sel. -/
def actVmand (tg : Tag2) (md ma mb : BitVec 3) : State → State :=
  maskLogic (fun x y => x && y) tg md ma mb
/-- VMAND (R139), issued alone. -/
def execVmand (tg : Tag2) (md ma mb : BitVec 3) (s : State) : Out :=
  .next (s.issueSyl (.vmand tg md ma mb) (slotOf tg 2) (fieldsOnly (.vmand tg md ma mb)) noFault (actVmand tg md ma mb))

/-- Mask OR under sel. -/
def actVmor (tg : Tag2) (md ma mb : BitVec 3) : State → State :=
  maskLogic (fun x y => x || y) tg md ma mb
/-- VMOR (R139), issued alone. -/
def execVmor (tg : Tag2) (md ma mb : BitVec 3) (s : State) : Out :=
  .next (s.issueSyl (.vmor tg md ma mb) (slotOf tg 2) (fieldsOnly (.vmor tg md ma mb)) noFault (actVmor tg md ma mb))

/-- Mask XOR under sel. -/
def actVmxor (tg : Tag2) (md ma mb : BitVec 3) : State → State :=
  maskLogic (fun x y => x != y) tg md ma mb
/-- VMXOR (R139), issued alone. -/
def execVmxor (tg : Tag2) (md ma mb : BitVec 3) (s : State) : Out :=
  .next (s.issueSyl (.vmxor tg md ma mb) (slotOf tg 2) (fieldsOnly (.vmxor tg md ma mb)) noFault (actVmxor tg md ma mb))

/-- Mask from a scalar register under sel. -/
def actVmovm (tg : Tag2) (md : BitVec 3) (a : BitVec 5) : State → State :=
  maskOp tg 1 md fun s k => ((s.nowS a).getLsbD k, 0)
/-- VMOVM (R139), issued alone. -/
def execVmovm (tg : Tag2) (md : BitVec 3) (a : BitVec 5) (s : State) : Out :=
  .next (s.issueSyl (.vmovm tg md a) (slotOf tg 2) (fieldsOnly (.vmovm tg md a)) noFault (actVmovm tg md a))

/-- Lane select between va and vb by the mask. -/
def actVsel (tg : Tag2) (d a b : BitVec 5) : State → State :=
  wholeOp tg 3 1 d fun s sel =>
    (mkLanes fun k => if sel.getLsbD k then lane (s.nowV a) k else lane (s.nowV b) k, 0)
/-- VSEL (R140), issued alone. -/
def execVsel (tg : Tag2) (d a b : BitVec 5) (s : State) : Out :=
  .next (s.issueSyl (.vsel tg d a b) (slotOf tg 2) (fieldsOnly (.vsel tg d a b)) noFault (actVsel tg d a b))

/-- Lane-wise AND. -/
def actVand (tg : Tag2) (d a b : BitVec 5) : State → State :=
  laneOp tg 3 1 d a b fun x y => x &&& y
/-- VAND (R141), issued alone. -/
def execVand (tg : Tag2) (d a b : BitVec 5) (s : State) : Out :=
  .next (s.issueSyl (.vand tg d a b) (slotOf tg 2) (fieldsOnly (.vand tg d a b)) noFault (actVand tg d a b))

/-- Lane-wise OR. -/
def actVor (tg : Tag2) (d a b : BitVec 5) : State → State :=
  laneOp tg 3 1 d a b fun x y => x ||| y
/-- VOR (R141), issued alone. -/
def execVor (tg : Tag2) (d a b : BitVec 5) (s : State) : Out :=
  .next (s.issueSyl (.vor tg d a b) (slotOf tg 2) (fieldsOnly (.vor tg d a b)) noFault (actVor tg d a b))

/-- Lane-wise XOR. -/
def actVxor (tg : Tag2) (d a b : BitVec 5) : State → State :=
  laneOp tg 3 1 d a b fun x y => x ^^^ y
/-- VXOR (R141), issued alone. -/
def execVxor (tg : Tag2) (d a b : BitVec 5) (s : State) : Out :=
  .next (s.issueSyl (.vxor tg d a b) (slotOf tg 2) (fieldsOnly (.vxor tg d a b)) noFault (actVxor tg d a b))

/-- Lane-wise shift left. -/
def actVshlI32 (tg : Tag2) (d a b : BitVec 5) : State → State :=
  laneOp tg 3 1 d a b fun x y => x <<< (y.toNat % 32)
/-- VSHL.I32 (R141), issued alone. -/
def execVshlI32 (tg : Tag2) (d a b : BitVec 5) (s : State) : Out :=
  .next (s.issueSyl (.vshlI32 tg d a b) (slotOf tg 2) (fieldsOnly (.vshlI32 tg d a b)) noFault (actVshlI32 tg d a b))

/-- Lane-wise logical shift right. -/
def actVshrI32 (tg : Tag2) (d a b : BitVec 5) : State → State :=
  laneOp tg 3 1 d a b fun x y => x >>> (y.toNat % 32)
/-- VSHR.I32 (R141), issued alone. -/
def execVshrI32 (tg : Tag2) (d a b : BitVec 5) (s : State) : Out :=
  .next (s.issueSyl (.vshrI32 tg d a b) (slotOf tg 2) (fieldsOnly (.vshrI32 tg d a b)) noFault (actVshrI32 tg d a b))

/-- Lane-wise arithmetic shift right. -/
def actVsraI32 (tg : Tag2) (d a b : BitVec 5) : State → State :=
  laneOp tg 3 1 d a b fun x y => x.sshiftRight (y.toNat % 32)
/-- VSRA.I32 (R141), issued alone. -/
def execVsraI32 (tg : Tag2) (d a b : BitVec 5) (s : State) : Out :=
  .next (s.issueSyl (.vsraI32 tg d a b) (slotOf tg 2) (fieldsOnly (.vsraI32 tg d a b)) noFault (actVsraI32 tg d a b))

/-- Convert element 0 of each lane between formats under RMODE. -/
def actVcvt (tg : Tag2) (d a : BitVec 5) (sf df : BitVec 3) : State → State :=
  cvtOp false 4 tg d a sf df
/-- VCVT (R142), issued alone. -/
def execVcvt (tg : Tag2) (d a : BitVec 5) (sf df : BitVec 3) (s : State) : Out :=
  .next (s.issueSyl (.vcvt tg d a sf df) (slotOf tg 2) (fieldsOnly (.vcvt tg d a sf df)) State.roundFault (actVcvt tg d a sf df))

/-- Convert with stochastic rounding, drawing 64 words. -/
def actVcvtSr (tg : Tag2) (d a : BitVec 5) (sf df : BitVec 3) : State → State :=
  cvtOp true 5 tg d a sf df
/-- VCVT.SR (R142), issued alone. -/
def execVcvtSr (tg : Tag2) (d a : BitVec 5) (sf df : BitVec 3) (s : State) : Out :=
  .next (s.issueSyl (.vcvtSr tg d a sf df) (slotOf tg 2) (fieldsOnly (.vcvtSr tg d a sf df)) State.seedFault (actVcvtSr tg d a sf df))

/-- Encode 64 FP32 lanes into a packed block-scaled image. -/
def actVpack (tg : Tag2) (d a : BitVec 5) (f : BitVec 2) : State → State :=
  packOp tg d a f
/-- VPACK (R144), issued alone. -/
def execVpack (tg : Tag2) (d a : BitVec 5) (f : BitVec 2) (s : State) : Out :=
  .next (s.issueSyl (.vpack tg d a f) (slotOf tg 2) (fieldsOnly (.vpack tg d a f)) State.roundFault (actVpack tg d a f))

/-- Decode a packed block-scaled image to FP32 lanes. -/
def actVunpk (tg : Tag2) (d a : BitVec 5) (f : BitVec 2) : State → State :=
  unpackOp tg d a f
/-- VUNPK (R145), issued alone. -/
def execVunpk (tg : Tag2) (d a : BitVec 5) (f : BitVec 2) (s : State) : Out :=
  .next (s.issueSyl (.vunpk tg d a f) (slotOf tg 2) (fieldsOnly (.vunpk tg d a f)) noFault (actVunpk tg d a f))

/-- FP32 sum of lanes by the fixed tree. -/
def actVredAddF32 (tg : Tag2) (d a : BitVec 5) : State → State :=
  redOp tg d a 0 stepAddF
/-- VRED.ADD.F32 (R146), issued alone. -/
def execVredAddF32 (tg : Tag2) (d a : BitVec 5) (s : State) : Out :=
  .next (s.issueSyl (.vredAddF32 tg d a) (slotOf tg 2) (fieldsOnly (.vredAddF32 tg d a)) noFault (actVredAddF32 tg d a))

/-- FP32 minimum over lanes. -/
def actVredMinF32 (tg : Tag2) (d a : BitVec 5) : State → State :=
  redOp tg d a 0x7F800000#32 (stepMinMax false)
/-- VRED.MIN.F32 (R146), issued alone. -/
def execVredMinF32 (tg : Tag2) (d a : BitVec 5) (s : State) : Out :=
  .next (s.issueSyl (.vredMinF32 tg d a) (slotOf tg 2) (fieldsOnly (.vredMinF32 tg d a)) noFault (actVredMinF32 tg d a))

/-- FP32 maximum over lanes. -/
def actVredMaxF32 (tg : Tag2) (d a : BitVec 5) : State → State :=
  redOp tg d a 0xFF800000#32 (stepMinMax true)
/-- VRED.MAX.F32 (R146), issued alone. -/
def execVredMaxF32 (tg : Tag2) (d a : BitVec 5) (s : State) : Out :=
  .next (s.issueSyl (.vredMaxF32 tg d a) (slotOf tg 2) (fieldsOnly (.vredMaxF32 tg d a)) noFault (actVredMaxF32 tg d a))

/-- Wrapped I32 sum over lanes. -/
def actVredAddI32 (tg : Tag2) (d a : BitVec 5) : State → State :=
  redOp tg d a 0 stepAddI
/-- VRED.ADD.I32 (R146), issued alone. -/
def execVredAddI32 (tg : Tag2) (d a : BitVec 5) (s : State) : Out :=
  .next (s.issueSyl (.vredAddI32 tg d a) (slotOf tg 2) (fieldsOnly (.vredAddI32 tg d a)) noFault (actVredAddI32 tg d a))

/-- Inclusive FP32 scan over lanes. -/
def actVscanAddF32 (tg : Tag2) (d a : BitVec 5) : State → State :=
  scanOp tg d a readF32 stepAddF
/-- VSCAN.ADD.F32 (R147), issued alone. -/
def execVscanAddF32 (tg : Tag2) (d a : BitVec 5) (s : State) : Out :=
  .next (s.issueSyl (.vscanAddF32 tg d a) (slotOf tg 2) (fieldsOnly (.vscanAddF32 tg d a)) noFault (actVscanAddF32 tg d a))

/-- Inclusive I32 scan over lanes. -/
def actVscanAddI32 (tg : Tag2) (d a : BitVec 5) : State → State :=
  scanOp tg d a (fun _ w => w) stepAddI
/-- VSCAN.ADD.I32 (R147), issued alone. -/
def execVscanAddI32 (tg : Tag2) (d a : BitVec 5) (s : State) : Out :=
  .next (s.issueSyl (.vscanAddI32 tg d a) (slotOf tg 2) (fieldsOnly (.vscanAddI32 tg d a)) noFault (actVscanAddI32 tg d a))

/-- Lane k takes v(va) at index v(vb)[k][5:0]. -/
def actVperm (tg : Tag2) (d a b : BitVec 5) : State → State :=
  mergeOp tg 7 3 d fun s k => (lane (s.nowV a) ((lane (s.nowV b) k).toNat % 64), 0)
/-- VPERM (R149), issued alone. -/
def execVperm (tg : Tag2) (d a b : BitVec 5) (s : State) : Out :=
  .next (s.issueSyl (.vperm tg d a b) (slotOf tg 2) (fieldsOnly (.vperm tg d a b)) noFault (actVperm tg d a b))

/-- Broadcast lane n of va. -/
def actVbcast (tg : Tag2) (d a : BitVec 5) (imm : BitVec 6) : State → State :=
  mergeOp tg 3 2 d fun s _ => (lane (s.nowV a) imm.toNat, 0)
/-- VBCAST (R149), issued alone. -/
def execVbcast (tg : Tag2) (d a : BitVec 5) (imm : BitVec 6) (s : State) : Out :=
  .next (s.issueSyl (.vbcast tg d a imm) (slotOf tg 2) (fieldsOnly (.vbcast tg d a imm)) noFault (actVbcast tg d a imm))

/-- Splat s(sa)[31:0] to lanes. -/
def actVsplat (tg : Tag2) (d a : BitVec 5) : State → State :=
  mergeOp tg 3 1 d fun s _ => ((s.nowS a).truncate 32, 0)
/-- VSPLAT (R149), issued alone. -/
def execVsplat (tg : Tag2) (d a : BitVec 5) (s : State) : Out :=
  .next (s.issueSyl (.vsplat tg d a) (slotOf tg 2) (fieldsOnly (.vsplat tg d a)) noFault (actVsplat tg d a))

/-- Partition lane indices into true, false and inactive lists with counts in s(sd). -/
def actVpart (tg : Tag2) (d : BitVec 5) (ma : BitVec 3) (sd : BitVec 5) : State → State :=
  partOp tg d ma sd
/-- VPART (R150), issued alone. -/
def execVpart (tg : Tag2) (d : BitVec 5) (ma : BitVec 3) (sd : BitVec 5) (s : State) : Out :=
  .next (s.issueSyl (.vpart tg d ma sd) (slotOf tg 2) (fieldsOnly (.vpart tg d ma sd)) noFault (actVpart tg d ma sd))

/-- Approximate 2^x at 16 fraction bits. -/
def actVexp2 (tg : Tag2) (d a : BitVec 5) : State → State :=
  approxOp .exp2 tg d a
/-- VEXP2 (R151), issued alone. -/
def execVexp2 (tg : Tag2) (d a : BitVec 5) (s : State) : Out :=
  .next (s.issueSyl (.vexp2 tg d a) (slotOf tg 2) (fieldsOnly (.vexp2 tg d a)) noFault (actVexp2 tg d a))

/-- Approximate log2 x. -/
def actVlog2 (tg : Tag2) (d a : BitVec 5) : State → State :=
  approxOp .log2 tg d a
/-- VLOG2 (R151), issued alone. -/
def execVlog2 (tg : Tag2) (d a : BitVec 5) (s : State) : Out :=
  .next (s.issueSyl (.vlog2 tg d a) (slotOf tg 2) (fieldsOnly (.vlog2 tg d a)) noFault (actVlog2 tg d a))

/-- Approximate reciprocal. -/
def actVrcp (tg : Tag2) (d a : BitVec 5) : State → State :=
  approxOp .rcp tg d a
/-- VRCP (R151), issued alone. -/
def execVrcp (tg : Tag2) (d a : BitVec 5) (s : State) : Out :=
  .next (s.issueSyl (.vrcp tg d a) (slotOf tg 2) (fieldsOnly (.vrcp tg d a)) noFault (actVrcp tg d a))

/-- Approximate reciprocal square root. -/
def actVrsq (tg : Tag2) (d a : BitVec 5) : State → State :=
  approxOp .rsq tg d a
/-- VRSQ (R151), issued alone. -/
def execVrsq (tg : Tag2) (d a : BitVec 5) (s : State) : Out :=
  .next (s.issueSyl (.vrsq tg d a) (slotOf tg 2) (fieldsOnly (.vrsq tg d a)) noFault (actVrsq tg d a))

/-- Draw 64 random words into active lanes. -/
def actVrand (tg : Tag2) (d : BitVec 5) : State → State :=
  randOp tg d
/-- VRAND (R152), issued alone. -/
def execVrand (tg : Tag2) (d : BitVec 5) (s : State) : Out :=
  .next (s.issueSyl (.vrand tg d) (slotOf tg 2) (fieldsOnly (.vrand tg d)) State.seedFault (actVrand tg d))

end Sys2Proof.Machine
end

