-- ==== Sys2Proof/Machine/Matrix.lean ====
section
/-! DEFINITION. The matrix unit and the accumulator tiles (R176 to R206): slot M, the steps of a nest, the row update,
arrival units, online softmax and the self-checks. -/

namespace Sys2Proof.Machine

/-! ### Tiles -/

/-- Headroom of R46. -/
def Row.headroom (r : Row) : Nat := 35 - (r.m.foldl (fun a x => Nat.max a (bitLen x)) 0)

/-- LOSS saturates at 2^32 − 1 (R188). -/
def Tile.addLoss (t : Tile) (n : Nat) : Tile := { t with loss := min (t.loss + n) (2 ^ 32 - 1) }

/-- LogEvent of R190. -/
def Tile.logEvent (t : Tile) (src row : Nat) (eold : Int) (k : Nat) (sat : Bool) (tag : Nat) : Tile :=
  let w := t.nseq.toNat * 2 ^ 48 + 2 ^ 47 + src % 4 * 2 ^ 45 + row % 64 * 2 ^ 39 + encInt eold 10 * 2 ^ 29 +
    k % 2 ^ 10 * 2 ^ 19 + (if sat then 2 ^ 18 else 0) + tag % 2 ^ 18
  { t with log := t.log.set (⟨t.nseq.toNat % 16, Nat.mod_lt _ (by omega)⟩ : Fin 16) (BitVec.ofNat 64 w)
           nseq := t.nseq + 1 }

/-- The greatest z with x ÷ 2^z integral, for a non-zero x (R189). -/
def Dy.lowBit (x : Dy) : Int := ((x.m.natAbs ^^^ (x.m.natAbs - 1)).log2 : Int) + x.e

/-- The 36-bit range of a mantissa (R46). -/
def fits36 (n : Int) : Bool := decide (-(2 ^ 35) ≤ n ∧ n ≤ 2 ^ 35 - 1)

/-- A row's new mantissas under shift k (R189). -/
def shiftedRow (m : List Int) (x : List Dy) (e : Int) (k : Nat) : List Int :=
  List.zipWith (fun a (y : Dy) => shiftRNE a k + y.at (e + k)) m x

/-- The shift search of R189: the least k at which every element fits, or the one that takes the exponent to 511. -/
def fitRow (m : List Int) (x : List Dy) (e : Int) : Nat → Nat → Nat
  | 0, k => k
  | n + 1, k =>
    if (shiftedRow m x e k).all fits36 ∨ e + k = 511 then k else fitRow m x e n (k + 1)

/-- Non-zero fractions that a row update discards (R189). -/
def rowLoss (m : List Int) (x : List Dy) (e : Int) (k : Nat) : Nat :=
  (x.filter fun y => !y.multipleOf (e + k)).length + (m.filter fun a => decide (0 < k ∧ a % 2 ^ k ≠ 0)).length

/-- ApplyRow of R189. -/
def Tile.applyRow (t : Tile) (i : Nat) (x : List Dy) (src tag : Nat) : Tile :=
  let r := t.row i
  if r.unset ∧ x.all Dy.isZero then t
  else
    let low := leastOf ((x.filter fun y => !y.isZero).map Dy.lowBit)
    let e : Int := if r.unset then max (-512) (min (low.getD 0) 511) else r.e
    let k := fitRow r.m x e 1100 0
    let n := shiftedRow r.m x e k
    let sat := !(n.all fits36)
    let t := t.addLoss (rowLoss r.m x e k)
    let t := t.setRow i { r with e := e + k, unset := false, m := if sat then n.map fun a => (saturate a 36).1 else n }
    let t := { t with ovf := t.ovf || sat }
    if 0 < k ∨ sat then t.logEvent src i e k sat tag else t

/-! ### The nest table -/

/-- Six levels by number. -/
def lv (l : Nat) : Fin 6 := ⟨l % 6, Nat.mod_lt _ (by omega)⟩

/-- Shadow register cr, rsv bits 0 (R180). -/
def NestTab.read (t : NestTab) (cr : Nat) : W32 :=
  if cr < 0x06 then t.cnt[lv cr].zeroExtend 32
  else if 0x08 ≤ cr ∧ cr < 0x0E then t.sta[lv (cr - 0x08)]
  else if 0x10 ≤ cr ∧ cr < 0x16 then t.stb[lv (cr - 0x10)]
  else if 0x18 ≤ cr ∧ cr < 0x1E then t.stc[lv (cr - 0x18)].zeroExtend 32
  else
    match cr with
    | 0x20 => t.abase
    | 0x21 => t.bbase
    | 0x22 => t.pitch
    | 0x23 => 0#27 ++ BitVec.ofBool t.bt ++ t.fa ++ t.fb
    | 0x24 => t.tgt.zeroExtend 32
    | 0x25 => 0#19 ++ t.psh ++ 0#7 ++ BitVec.ofBool t.half
    | _ => 0

/-- Shadow register cr written (R180): writes to rsv bits are ignored. -/
def NestTab.write (t : NestTab) (cr : Nat) (w : W32) : NestTab :=
  if cr < 0x06 then { t with cnt := t.cnt.set (lv cr) (w.truncate 16) }
  else if 0x08 ≤ cr ∧ cr < 0x0E then { t with sta := t.sta.set (lv (cr - 0x08)) w }
  else if 0x10 ≤ cr ∧ cr < 0x16 then { t with stb := t.stb.set (lv (cr - 0x10)) w }
  else if 0x18 ≤ cr ∧ cr < 0x1E then { t with stc := t.stc.set (lv (cr - 0x18)) (w.truncate 4) }
  else
    match cr with
    | 0x20 => { t with abase := w }
    | 0x21 => { t with bbase := w }
    | 0x22 => { t with pitch := w }
    | 0x23 => { t with bt := w.getLsbD 4, fa := w.extractLsb' 2 2, fb := w.extractLsb' 0 2 }
    | 0x24 => { t with tgt := w.truncate 3 }
    | 0x25 => { t with psh := w.extractLsb' 8 5, half := w.getLsbD 0 }
    | _ => t

def NestTab.winA (t : NestTab) : BitVec 3 := t.abase.extractLsb' 29 3
def NestTab.winB (t : NestTab) : BitVec 3 := t.bbase.extractLsb' 29 3
def NestTab.offA (t : NestTab) : Int := (t.abase.extractLsb' 0 29).toNat
def NestTab.offB (t : NestTab) : Int := (t.bbase.extractLsb' 0 29).toNat
def NestTab.pa (t : NestTab) : Nat := (t.pitch.extractLsb' 0 16).toNat
def NestTab.pb (t : NestTab) : Nat := (t.pitch.extractLsb' 16 16).toNat
def NestTab.nr (t : NestTab) : Nat := if t.half then 32 else 64
def NestTab.counts (t : NestTab) : List Nat := t.cnt.toList.map BitVec.toNat
def NestTab.stridesA (t : NestTab) : List Int := t.sta.toList.map BitVec.toInt
def NestTab.stridesB (t : NestTab) : List Int := t.stb.toList.map BitVec.toInt
def NestTab.stridesC (t : NestTab) : List Int := t.stc.toList.map BitVec.toInt

/-- P, the steps of a nest (R182). -/
def NestTab.steps (t : NestTab) : Nat := t.counts.foldl (fun a c => a * c) 1

/-- Bits of an operand format (R176, R183). -/
def opBits (f : BitVec 2) : Nat := match f with | 0 => 4 | 1 => 6 | _ => 8
/-- The window format of an operand format (R176). -/
def opFmt (f : BitVec 2) : Nat := match f with | 0 => 6 | 1 => 7 | _ => 8
/-- The clk per step of a pair of formats (R177). -/
def NestTab.stepClk (t : NestTab) : Nat :=
  if opBits t.fa = 4 ∧ opBits t.fb = 4 then 1 else if opBits t.fa = 4 ∨ opBits t.fb = 4 then 2 else 4

/-- The indices of step s, level 0 counting fastest (R182). -/
def stepIndices : List Nat → Nat → List Int
  | [], _ => []
  | c :: cs, s => (s % c : Nat) :: stepIndices cs (s / c)

/-- An offset of a step (R182): the base and the strides by their indices. -/
def atStep (base : Int) (st idx : List Int) : Int := base + (List.zipWith (fun a b => a * b) idx st).sum
/-- The least and greatest offset over all steps (R184). -/
def extent (base : Int) (cnt : List Nat) (st : List Int) : Int × Int :=
  (base + (List.zipWith (fun (c : Nat) d => min 0 (((c : Int) - 1) * d)) cnt st).sum,
   base + (List.zipWith (fun (c : Nat) d => max 0 (((c : Int) - 1) * d)) cnt st).sum)

/-- The least and greatest tile of a nest (R184). -/
def NestTab.tileExtent (t : NestTab) : Int × Int := extent t.tgt.toNat t.counts t.stridesC
/-- The tiles a nest names (R184, R187): none when it has no step. -/
def NestTab.tiles (t : NestTab) : List Int :=
  if t.steps = 0 then []
  else
    let x := t.tileExtent
    (List.range (x.2 - x.1 + 1).toNat).map fun (i : Nat) => x.1 + (i : Int)

/-- Some nest but those of `skip` owns the tile (R187). -/
def ownedBy (ns : List Nest) (t : Int) : Bool := ns.any fun n => n.tab.tiles.contains t
/-- The task of a registration is bound to its context: of a task that Vizin has switched off, the tile is not on the core (R194). -/
def Core.stands (k : Core) (r : Registration) : Bool :=
  match k.xfer? r.x with
  | none => true
  | some t =>
    let c := k.ctx ⟨r.ctx % 4, Nat.mod_lt _ (by omega)⟩
    c.bound && t.ofTask r.ctx c.sys.wid c.sys.taskid

/-- A transfer registered on the tile has units not yet applied (R191). -/
def Core.registered (k : Core) (t : Int) : Bool :=
  k.regn.any fun r => decide ((r.tile : Int) = t ∧ r.done < r.total) && k.stands r
/-- The tile is busy for an M-slot operation (R191). -/
def Core.tileBusy (k : Core) (t : Int) : Bool := ownedBy k.nests t || k.registered t
/-- The tile is busy for an MNEST, the previous nest apart (R187). -/
def Core.tileBusyNest (k : Core) (t : Int) : Bool := ownedBy k.nests.dropLast t || k.registered t

/-! ### Issue-time faults of slot M -/

/-- The tile of the bind record's TILES grant (R179). -/
def State.tileGranted (s : State) (t : Int) : Bool := decide (0 ≤ t ∧ t ≤ 7) && s.me.bind.tiles.getLsbD t.toNat

/-- The faults of an instruction that names tiles (R179, R191, R199). -/
def tileFault (ts : List (BitVec 3)) (s : State) : Option Trap :=
  match matrixFault s with
  | some t => some t
  | none =>
    match ts.find? fun t => !s.tileGranted t.toNat with
    | some t => some ⟨0x086, t.toNat, none, none⟩
    | none => (ts.find? fun t => s.myCore.tileBusy t.toNat).map fun t => ⟨0x107, t.toNat, none, none⟩

/-- The faults of ACCST, which is never tile-busy (R205). DEDUCED (log 55): they include the tile grant for the form that ignores the
tile. -/
def tileFaultNoBusy (t : BitVec 3) (s : State) : Option Trap :=
  match matrixFault s with
  | some f => some f
  | none => if s.tileGranted t.toNat then none else some ⟨0x086, t.toNat, none, none⟩

/-- The least block start that is no multiple of `m`, over the steps and rows that `gens` count (R184 check 7): when the
least start of all is a multiple, one stride alone breaks the rule first. -/
def leastBroken (base : Int) (cnt : List Nat) (st : List Int) (m : Int) : Option Int :=
  let lo := (extent base cnt st).1
  if lo % m ≠ 0 then some lo
  else (leastOf ((cnt.zip st).filterMap fun p => if 1 < p.1 ∧ p.2 % m ≠ 0 then some (p.2.natAbs : Int) else none)).map
    fun d => lo + d

/-- The first of `n` elements from `lo` on that has a property. -/
def firstElem (p : Int → Bool) (lo : Int) : Nat → Option Int
  | 0 => none
  | n + 1 => if p lo then some lo else firstElem p (lo + 1) n

/-- The least element of a box whose data byte or scale byte is pending (R184 check 9). -/
def boxPending (w : Win) (core : Nat) (lo hi : Int) (rs : List (Nat × Nat)) : Option Int :=
  let inR (a b : Nat) := rs.any fun r => decide (max a r.1 < min b r.2)
  let bits := elemBits w.fmt
  if rs.all fun r =>
      decide (r.2 ≤ w.addr core + (byteLo bits lo).toNat ∨ w.addr core + (byteHi bits hi).toNat ≤ r.1) &&
        decide (r.2 ≤ w.scaleAddr core ∨ w.scaleAddr core + lastScale w.geo w.pitch (regionElems w.fmt w.len) < r.1)
  then none
  else
    firstElem (fun x =>
      inR (w.addr core + (byteLo bits x).toNat) (w.addr core + (byteHi bits x).toNat) ||
        (let a := w.scaleAddr core + w.scaleIndex x.toNat; inR a (a + 1))) lo (hi - lo + 1).toNat

/-- Checks 5 to 9 of R184 over the windows and boxes of A and B. -/
def boxFault (t : NestTab) (s : State) : Option Trap :=
  let wa := s.opWin t.winA
  let wb := s.opWin t.winB
  let core := s.fr.core
  let ea := extent t.offA t.counts t.stridesA
  let eb := extent t.offB t.counts t.stridesB
  let hiA := ea.2 + ((t.nr - 1) * t.pa : Nat) + 3
  let hiB := if t.bt then eb.2 + (63 * t.pb : Nat) + 3 else eb.2 + (3 * t.pb : Nat) + 63
  let place (w : Win) := (w.kind == 1 || (w.kind == 2 && !w.lateral core)) && w.rd
  let mk (c : Nat) (x : Int) : Option Trap := some ⟨c, faddrOf x, none, none⟩
  let out (w : Win) (lo hi : Int) : Option Int :=
    let n : Int := regionElems w.fmt w.len
    if lo < 0 then some lo else if n ≤ hi then some (max lo n) else none
  if ¬ (place wa && place wb) then mk 0x081 0
  else if ¬ (wa.fmt = opFmt t.fa ∧ wa.geo = 0 ∧ wb.fmt = opFmt t.fb ∧
      (if t.bt then wb.geo = 0 else wb.geo = 1 ∧ wb.pitch = t.pb)) then mk 0x082 0
  else
    let badB := if t.bt then leastBroken t.offB (t.counts ++ [64]) (t.stridesB ++ [(t.pb : Int)]) 4
      else leastBroken t.offB t.counts t.stridesB (4 * t.pb)
    match leastBroken t.offA (t.counts ++ [t.nr]) (t.stridesA ++ [(t.pa : Int)]) 4 with
    | some x => mk 0x083 x
    | none =>
      match badB with
      | some x => mk 0x083 x
      | none =>
        match out wa ea.1 hiA with
        | some x => mk 0x084 x
        | none =>
          match out wb eb.1 hiB with
          | some x => mk 0x084 x
          | none =>
            match boxPending wa core ea.1 hiA s.pendingRanges with
            | some x => mk 0x105 x
            | none =>
              match boxPending wb core eb.1 hiB s.pendingRanges with
              | some x => mk 0x105 x
              | none => none

/-- The checks of R184, in their order. -/
def nestFault (s : State) : Option Trap :=
  let k := s.myCore
  let t := k.shadow
  match matrixFault s with
  | some f => some f
  | none =>
    if k.nests.any fun n => decide (0 < n.array) then some ⟨0x106, 0, none, none⟩
    else if s.me.chkn ≠ 0 ∧ ¬ s.me.armed ∧ s.me.chkcnt = s.me.chkn - 1 then some ⟨0x302, 0, none, none⟩
    else if t.steps = 0 then none
    else if ¬ t.tiles.all s.tileGranted then some ⟨0x086, 0, none, none⟩
    else if t.tiles.any k.tileBusyNest then some ⟨0x107, 0, none, none⟩
    else boxFault t s

/-! ### Nests -/

/-- An MNEST that acts (R182, R186, R196 to R198). -/
def State.startNest (s : State) : State :=
  let k := s.myCore
  let t := k.shadow
  let c := s.me
  let rot := c.armed
  let array := t.steps * t.stepClk * (if rot then 2 else 1)
  let win (w : BitVec 3) : Win := c.sys.wins[(⟨w.toNat, w.isLt⟩ : Fin 8)]
  let mir := c.mirror && t.half
  let zero (b : Bool) : List W32 := if b then List.replicate 4096 0 else []
  let n : Nest :=
    { ctx := s.fr.ctx.val, tab := t, winA := win t.winA, winB := win t.winB, next := 0, wait := 1, remain := array + 12
      array := array, rotate := rot, mirror := mir, frozen := false, stopping := false, vals := []
      sums1 := zero (rot || mir), sums2 := zero rot }
  let s := s.setMyCore { k with active := t, nests := k.nests ++ [n] }
  s.setMe { s.me with armed := false
                      chkcnt := if rot then 0 else if s.me.chkcnt = 0xFFFF#16 then s.me.chkcnt else s.me.chkcnt + 1 }

/-- An operand element as its integer (R176). -/
def operandInt (m : Memory) (w : Win) (core : Nat) (f : BitVec 2) (x : Int) : Int :=
  let raw := m.elem (w.addr core) (opBits f) x.toNat
  if f = 3 then raw else signExt raw (opBits f)

/-- The exponent that a block's scale byte gives an operand (R183). -/
def operandExp (m : Memory) (w : Win) (core : Nat) (f : BitVec 2) (x : Int) : Int :=
  ((m.read (w.scaleAddr core + w.scaleIndex x.toNat)).toNat : Int) - 127 - ((opBits f : Int) - 2)

/-- Element kk of operand row r of A, and of operand column j of B, from the step's first element (R180, R182). -/
def NestTab.elemA (t : NestTab) (a : Int) (r kk : Nat) : Int := a + (r * t.pa : Nat) + kk
def NestTab.elemB (t : NestTab) (b : Int) (j kk : Nat) : Int := if t.bt then b + (j * t.pb : Nat) + kk else b + (kk * t.pb : Nat) + j

/-- The sums q_rj and the values x_rj of a step (R182, R183, R61), as a whole array forms them. -/
def Nest.readStep (n : Nest) (m : Memory) (core step : Nat) : Int × List (List Int) × List (List Dy) :=
  let t := n.tab
  let idx := stepIndices t.counts step
  let a := atStep t.offA t.stridesA idx
  let b := atStep t.offB t.stridesB idx
  let cols := (List.range 64).map fun (j : Nat) =>
    ((List.range 4).map fun kk => operandInt m n.winB core t.fb (t.elemB b j kk), operandExp m n.winB core t.fb (t.elemB b j 0))
  let rows := (List.range t.nr).map fun (r : Nat) =>
    ((List.range 4).map fun kk => operandInt m n.winA core t.fa (t.elemA a r kk), operandExp m n.winA core t.fa (t.elemA a r 0))
  let q := rows.map fun r => cols.map fun c => (List.zipWith (fun x y => x * y) r.1 c.1).sum
  (atStep t.tgt.toNat t.stridesC idx, q,
   List.zipWith (fun (r : List Int × Int) qs =>
     List.zipWith (fun (c : List Int × Int) v => (⟨v, r.2 + c.2 - (t.psh.toNat : Int)⟩ : Dy)) cols qs) rows q)

/-- The check sums with a step's sums added, modulo 2^32 (R197). -/
def addSums (sums : List W32) (q : List (List Int)) : List W32 :=
  List.zipWith (fun a (v : Int) => a + BitVec.ofInt 32 v) sums (q.flatten ++ List.replicate 4096 0)

/-- The defective processing elements of a core (R197). -/
def Core.badPes (k : Core) : List Nat := k.upsets.filterMap fun u => match u with
  | .pe n => some n
  | _ => none

/-- Sums as the array forms them, output (r, j) on element ((r + rows + turn) mod 64, (j + turn) mod 64) (R197): a defective
element gives another value. -/
def formedOn (bad : List Nat) (core rows turn : Nat) (q : List (List Int)) : List (List Int) :=
  if bad = [] then q
  else q.zipIdx.map fun r => r.1.zipIdx.map fun v =>
    let pe := (r.2 + rows + turn) % 64 * 64 + (v.2 + turn) % 64
    if bad.contains pe then freePe core pe v.1 else v.1

/-- The values of a step with other sums. -/
def withSums (x : List (List Dy)) (q : List (List Int)) : List (List Dy) :=
  List.zipWith (fun xs vs => List.zipWith (fun (y : Dy) v => ⟨v, y.e⟩) xs vs) x q

/-- Reads of a nest that fall at the end of this clk (R185, R197): under mirror the array's rows 32 to 63 form the sums of rows 0 to
31 again, which the check sums keep in those rows. -/
def Nest.read (bad : List Nat) (m : Memory) (core : Nat) (n : Nest) : Nest :=
  let P := n.tab.steps
  let total := if n.rotate then 2 * P else P
  if n.frozen ∨ total ≤ n.next then n
  else if 1 < n.wait then { n with wait := n.wait - 1 }
  else
    let c := n.tab.stepClk
    let r := n.readStep m core (n.next % P)
    let first := decide (n.next < P)
    let sums (turn : Nat) : List (List Int) :=
      formedOn bad core 0 turn r.2.1 ++ (if n.mirror then formedOn bad core 32 turn r.2.1 else [])
    let x := if bad = [] then r.2.2 else withSums r.2.2 (formedOn bad core 0 0 r.2.1)
    { n with
      next := n.next + 1, wait := c
      vals := if first then n.vals ++ [⟨c + 12, n.next, r.1, x⟩] else n.vals
      sums1 := if (n.rotate ∨ n.mirror) ∧ first then addSums n.sums1 (sums 0) else n.sums1
      sums2 := if n.rotate ∧ ¬ first then addSums n.sums2 (sums 1) else n.sums2 }

/-- A nest reads a step at the end of this clk. -/
def Nest.reading (n : Nest) : Bool := !n.frozen && decide (n.next < (if n.rotate then 2 else 1) * n.tab.steps ∧ n.wait ≤ 1)

/-- The bytes that a nest's next step reads: its operand elements and their scale bytes. -/
def Nest.stepBytes (n : Nest) (core : Nat) : List Nat :=
  let t := n.tab
  let idx := stepIndices t.counts (n.next % t.steps)
  let of_ (w : Win) (f : BitVec 2) (x : Int) : List Nat := [w.addr core + x.toNat * opBits f / 8, w.scaleAddr core + w.scaleIndex x.toNat]
  ((List.range t.nr).flatMap fun r => (List.range 4).flatMap fun kk => of_ n.winA t.fa (t.elemA (atStep t.offA t.stridesA idx) r kk))
    ++ (List.range 64).flatMap fun j => (List.range 4).flatMap fun kk => of_ n.winB t.fb (t.elemB (atStep t.offB t.stridesB idx) j kk)

/-- The first byte that a nest's read of this clk takes from a line with an uncorrectable error (R363). -/
def Nest.badByte (flaws : List Nat) (core : Nat) (n : Nest) : Option Nat :=
  if flaws = [] ∨ ¬ n.reading then none
  else ((n.stepBytes core).filter fun a => flaws.contains (a / 64)).min?

/-- The reads of a core's nests at the end of this clk. -/
def Core.nestRead (k : Core) (m : Memory) (core : Nat) : Core := { k with nests := k.nests.map (Nest.read k.badPes m core) }

/-- The rows of a step applied in ascending order (R189). -/
def Core.applyStep (k : Core) (v : StepVals) : Core :=
  k.setTile v.tile.toNat
    ((v.rows.zipIdx.foldl (fun t p => t.applyRow p.2 p.1 0 v.step) (k.tile v.tile.toNat)))

/-- The updates of a core's nests at the end of this clk (R185). -/
def Core.nestUpdate (k : Core) : Core :=
  let due := k.nests.flatMap fun n => n.vals.filter fun v => decide (v.left ≤ 1)
  let k := due.foldl Core.applyStep k
  { k with nests := k.nests.map fun n =>
      { n with vals := (n.vals.filter fun v => decide (1 < v.left)).map fun v => { v with left := v.left - 1 } } }

/-- The first two places where two lists of check sums differ. -/
def firstTwo (a b : List W32) : List Nat :=
  (((List.zipWith (fun x y => x != y) a b).zipIdx.filter fun p => p.1).map fun p => p.2).take 2

/-- The outputs of a nest whose computations differ (R197), the first two: of the two passes, and of the mirrored halves. -/
def Nest.turnBad (n : Nest) : List Nat :=
  if n.rotate then firstTwo (n.sums1.take (64 * n.tab.nr)) (n.sums2.take (64 * n.tab.nr)) else []
def Nest.mirrorBad (n : Nest) : List Nat :=
  if n.mirror then
    (firstTwo (n.sums1.take 2048) (n.sums1.drop 2048) ++ firstTwo (n.sums2.take 2048) (n.sums2.drop 2048)).take 2
  else []

/-- The check record of R205. DESIGN CHOICE (log 65): with one mismatching output ROW2 and COL2 are 0. -/
def checkRecord (turn : Bool) (bad : List Nat) : Word :=
  BitVec.ofNat 64 (2 ^ 63 + (if turn then 2 ^ 62 else 0) + (bad.getD 1 0) * 2 ^ 12 + bad.getD 0 0)

/-- A tile of the core has a parity error (R197, R363). -/
def Core.badTile (k : Core) (t : Nat) : Bool := k.upsets.contains (.tile (t % 8))

/-- The end of a nest (R197): the passes and the mirrored halves are compared, and the report waits for the holder's next boundary; the
parity error of a tile that it updated is reported the same way, without a check record. A report that waits already stands. DESIGN
CHOICE (log 65): of a nest that fails both comparisons the record takes the rotation check's KIND and outputs. -/
def Core.nestEnd (k : Core) (n : Nest) : Core :=
  let turn := n.turnBad
  let bad := if turn ≠ [] then turn else n.mirrorBad
  let t0 := (n.tab.tiles.headD 0).toNat
  let found : Option Trap :=
    if bad ≠ [] then some ⟨0x303, t0, none, none⟩
    else (n.tab.tiles.find? fun t => k.badTile t.toNat).map fun t => ⟨0x304, t.toNat, none, none⟩
  match found with
  | none => k
  | some r =>
    let k := n.tab.tiles.foldl (fun k t => k.setTile t.toNat { k.tile t.toNat with chkerr := true }) k
    let t := k.tile t0
    let k := if r.code = 0x303 then k.setTile t0 { t with check := if t.check.getLsbD 63 then t.check else checkRecord (turn != []) bad } else k
    let x : Fin 4 := ⟨n.ctx % 4, Nat.mod_lt _ (by omega)⟩
    k.setCtx x { k.ctx x with report := (k.ctx x).report.or (some r) }

/-- A clk passes for the nests: those that end are compared and leave, those that stop stand from here on. -/
def Core.nestClk (k : Core) : Core :=
  let overs := k.nests.filter fun n => !n.frozen && decide (n.remain ≤ 1)
  let k := overs.foldl Core.nestEnd k
  { k with nests := (k.nests.filter fun n => n.frozen || decide (1 < n.remain)).map fun n =>
      if n.frozen then n
      else { n with remain := n.remain - 1, array := n.array - 1, frozen := n.stopping, stopping := false } }

/-- The nests of a context go on, with the windows now in force (R182, R194). -/
def Core.thawNests (k : Core) (x : Fin 4) : Core :=
  let win (w : BitVec 3) : Win := (k.ctx x).sys.wins[(⟨w.toNat, w.isLt⟩ : Fin 8)]
  { k with nests := k.nests.map fun n =>
      if n.ctx = x.val then { n with frozen := false, stopping := false, winA := win n.tab.winA, winB := win n.tab.winB }
      else n }

/-! ### Tile instructions -/

/-- A tile instruction enters flight (R199). -/
def State.tileWrite (s : State) (lat : Nat) (t : BitVec 3) (op : TileOp) : State :=
  let k := s.myCore
  s.setMyCore { k with twr := k.twr ++ [⟨lat, s.fr.ctx.val, t.toNat, op⟩] }

/-- A row as a tile instruction leaves it. -/
def Tile.putRow (t : Tile) (w : RowWrite) : Tile :=
  let r := t.row w.row
  let r := match w.val with
    | some p => { r with e := p.1, m := p.2 }
    | none => r
  t.setRow w.row (match w.side with
    | some p => { r with max := p.1, sum := p.2 }
    | none => r)

/-- A tile instruction lands (R199 to R205). -/
def Tile.land (t : Tile) (op : TileOp) : Tile :=
  match op with
  | .init e u => { t with rows := List.replicate 64 { e := e, unset := u }, ovf := false, chkerr := false }
  | .rows ws ovf loss _ => let t := (ws.foldl Tile.putRow t).addLoss loss; { t with ovf := t.ovf || ovf }
  | .apply row x => t.applyRow row x 3 0
  | .mlo row x =>
    let r := t.row row
    t.setRow row { r with unset := false, m := r.m.zipIdx.map (fun (p : Int × Nat) =>
      signExt (encInt p.1 36 / 2 ^ 32 * 2 ^ 32 + (lane x p.2).toNat) 36) }
  | .mhi row x =>
    let r := t.row row
    t.setRow row { r with unset := false, m := r.m.zipIdx.map (fun (p : Int × Nat) =>
      signExt ((lane x p.2).toNat % 16 * 2 ^ 32 + encInt p.1 36 % 2 ^ 32) 36) }
  | .clearLoss => { t with loss := 0 }

/-- Tile instructions that land at the end of this clk, in issue order, with their flags. -/
def Core.tileLand (k : Core) : Core :=
  let due := k.twr.filter fun w => decide (w.left ≤ 1)
  let k := { k with twr := (k.twr.filter fun w => decide (1 < w.left)).map fun w => { w with left := w.left - 1 } }
  due.foldl (fun k w =>
    let k := k.setTile w.tile ((k.tile w.tile).land w.op)
    match w.op with
    | .rows _ _ _ f =>
      let x : Fin 4 := ⟨w.ctx % 4, Nat.mod_lt _ (by omega)⟩
      k.setCtx x { k.ctx x with fsets := (k.ctx x).fsets ||| f }
    | _ => k) k

/-- A tile instruction of form MT or MTS (R199): the tile as it stands, and s(a). -/
def tileOp (tg : Tag) (f : State → State) (s : State) : State := (s.enter 12).gate (s.cond tg) f

/-- The tile that an instruction reads. -/
def State.tileOf (s : State) (t : BitVec 3) : Tile := s.myCore.tile t.toNat

/-- ACCNORM of one row (R201). -/
def normRow (g : Nat) (i : Nat) (r : Row) : Option RowWrite :=
  let h := r.headroom
  if r.unset ∨ r.m.all (fun m => m == 0) ∨ h ≤ g then none
  else
    let k := min (h - g) (r.e + 512).toNat
    some ⟨i, some (r.e - k, r.m.map fun m => m * 2 ^ k), none⟩

/-- ACCNORM on some rows. -/
def normOp (t : BitVec 3) (a : BitVec 5) (row : Bool) (s : State) : State :=
  let w := (s.nowS a).toNat
  let rows := if row then [w / 2 ^ 6 % 64] else List.range 64
  s.tileWrite 4 t (.rows (rows.filterMap fun i => normRow (min (w % 64) 35) i ((s.tileOf t).row i)) false 0 0)

/-- An exponent moved by δ within its range (R195, R202): the row, whether it overflowed, and inexact elements. -/
def moveExp (e : Int) (m : List Int) : (Int × List Int) × Bool × Nat :=
  if e > 511 then
    ((511, m.map fun a => if a = 0 then 0 else if 0 < a then 2 ^ 35 - 1 else -(2 ^ 35 - 1)), true, 0)
  else if e < -512 then
    let k := min (-512 - e).toNat 64
    ((-512, m.map fun a => shiftRNE a k), false, (m.filter fun a => decide (a % 2 ^ k ≠ 0)).length)
  else ((e, m), false, 0)

/-- ACCSCALE on some rows (R202). -/
def scaleOp (t : BitVec 3) (a : BitVec 5) (row : Bool) (s : State) : State :=
  let w := (s.nowS a).toNat
  let rows := if row then [w / 2 ^ 11 % 64] else List.range 64
  let rs := (rows.filter fun i => !((s.tileOf t).row i).unset).map fun i =>
    let r := (s.tileOf t).row i
    (i, moveExp (r.e + signExt (w % 2 ^ 11) 11) r.m)
  s.tileWrite 4 t (.rows (rs.map fun p => ⟨p.1, some p.2.1, none⟩) (rs.any fun p => p.2.2.1)
    (rs.foldl (fun n p => n + p.2.2.2) 0) 0)

/-- ACCRD of a row (R203). -/
def accRead (r : Row) (f : BitVec 3) (rm fm : Nat) : Lanes × Fl :=
  let vals := r.m.map fun a => (⟨a, r.e⟩ : Dy)
  let fp (F : Fmt) : Lanes × Fl :=
    let rs := vals.map fun v => roundFlush F v.isNeg v.m.natAbs v.e rm fm 0
    (rs.map fun x => BitVec.ofNat 32 x.1, rs.foldl (fun f x => f ||| x.2) 0)
  let pack (code : Nat) : Lanes × Fl :=
    let bs := (List.range 16).map fun b => encodeBlk code rm fm (((vals.drop (4 * b)).take 4).map fun v => Fp.ofDy v false)
    (packImage 8 (bs.map fun b => (b.1, b.2.1)), bs.foldl (fun f b => f ||| b.2.2) 0)
  match f with
  | 0 => fp fmtF32
  | 1 => fp fmtBF16
  | 2 => fp fmtF16
  | 3 =>
    let rs := vals.map fun v => fpToInt (Fp.ofDy v false) 32 rm 0
    (rs.map fun x => BitVec.ofInt 32 x.1, rs.foldl (fun f x => f ||| x.2) 0)
  | 4 => pack 8
  | 5 => pack 9
  | 6 => (r.m.map fun a => BitVec.ofInt 32 a, 0)
  | _ => (r.m.map fun a => (BitVec.ofNat 4 (encInt a 36 / 2 ^ 32)).signExtend 32, 0)

/-- ACCRD (R203). -/
def accrdOp (d : BitVec 5) (t : BitVec 3) (a : BitVec 5) (f : BitVec 3) (s : State) : State :=
  let r := accRead ((s.tileOf t).row ((s.nowS a).toNat % 64)) f s.rmPlain s.fm
  (s.setFlags r.2).putV 6 6 d r.1 (BitVec.allOnes 64) 0

/-- ACCWR (R204). -/
def accwrOp (d : BitVec 5) (t : BitVec 3) (a : BitVec 5) (f : BitVec 3) (s : State) : State :=
  let row := (s.nowS a).toNat % 64
  let v := s.nowV d
  match f with
  | 0 =>
    let fps := v.map fun x => fpDecode fmtF32 (flushIn fmtF32 s.fm x.toNat)
    (s.setFlags (flIf (fps.any fun x => !x.isFin) flNV)).tileWrite 6 t
      (.apply row (fps.map fun x => if x.isFin then x.dy else Dy.zero))
  | 3 => s.tileWrite 6 t (.apply row (v.map fun x => Dy.ofInt x.toInt))
  | 6 => s.tileWrite 6 t (.mlo row v)
  | _ => s.tileWrite 6 t (.mhi row v)

/-- Word 0 of ACCST (R205), with BUSY and AQN. -/
def Tile.status (t : Tile) (busy : Bool) (aqn : Nat) : Nat :=
  t.nseq.toNat * 2 ^ 48 + (if t.ovf then 2 ^ 40 else 0) + (if t.chkerr then 2 ^ 39 else 0) +
    (if busy then 2 ^ 38 else 0) + aqn % 32 * 2 ^ 32

/-- ACCST (R205). -/
def State.accst (s : State) (t : BitVec 3) (sel : Nat) : Word :=
  let k := s.myCore
  let x := s.tileOf t
  match sel with
  | 0 => BitVec.ofNat 64 (x.status (ownedBy k.nests t.toNat) (k.arrq.filter fun u => u.tile == t.toNat).length)
  | 1 => x.check
  | 2 => BitVec.ofNat 64 (((List.range 64).map fun i => if (x.row i).unset then 2 ^ i else 0).sum)
  | _ => BitVec.ofNat 64 (s.me.chkn.toNat * 2 ^ 32 + (if s.me.armed then 2 ^ 17 else 0) +
      (if s.me.mirror then 2 ^ 16 else 0) + s.me.chkcnt.toNat)

/-- ACCEXP of a row (R205). -/
def Row.exps (r : Row) : Word :=
  BitVec.ofNat 64 ((if r.unset then 2 ^ 16 else 0) + r.headroom * 2 ^ 10 + encInt r.e 10)

/-! ### Online softmax -/

/-- 2^x for a step of R195, as a value that rounds as the exact one does; past ±512 it stands for every value. -/
def exp2Fp (x : Dy) : Fp :=
  if (Dy.mk 512 0).lt x then .fin false 1 512
  else if x.lt ⟨-512, 0⟩ then .fin false 1 (-512)
  else let y := exp2Real x; .fin false y.1 y.2

/-- One row of MSMX (R195): the write to the output tile, the sixteen blocks, the inexact elements and the flags. MAX and SUM are
operands and results of R50. DEDUCED (log 54): the shift by a deficit below −512 adds its own inexact elements to LOSS. -/
def softmaxRow (ts tout : Row) (i fm : Nat) : RowWrite × List (Nat × List Int) × Nat × Fl :=
  let mx : Dy := ⟨ts.m.foldl max (ts.m.headD 0), ts.e⟩
  let mc0 := roundToFormat fmtF32 mx.isNeg mx.m.natAbs mx.e 3 0
  let mc := if mc0.2 &&& flOF ≠ 0 ∧ ¬ mx.isNeg then (fpMax fmtF32 false, mc0.2) else flushResult fmtF32 fm mc0
  let mn := (fpMinMax fmtF32 true fm tout.max.toNat mc.1).1
  let vmn := (fpDecode fmtF32 mn).dy
  let start : Option (Int × List Int) × Dy × Nat :=
    if tout.max = 0xFF800000#32 then (none, Dy.zero, 0)
    else
      let dl := (fpDecode fmtF32 (flushIn fmtF32 fm tout.max.toNat)).dy.sub vmn
      let c := dl.ceil
      let fr := exp2Real (dl.sub (Dy.ofInt c))
      let mu := roundInt fr.1 (fr.2 + 16) 0 false 0
      let scaled := tout.m.map fun (a : Int) => shiftRNE (a * mu) 16
      let moved := moveExp (tout.e + c) scaled
      let loss := (tout.m.filter fun (a : Int) => decide ((a * mu) % 2 ^ 16 ≠ 0)).length + moved.2.2
      let g := ((fpDecode fmtF32 (flushIn fmtF32 fm tout.sum.toNat)).dy.mul (Dy.ofInt mu)).scale (max c (-600) - 16)
      if tout.unset then (none, g, 0) else (some moved.1, g, loss)
  let blocks := (List.range 16).map fun b =>
    encodeBlock (((ts.m.drop (4 * b)).take 4).map fun a => exp2Fp ((Dy.mk a ts.e).sub vmn)) 8 0 fm [0, 0, 0, 0]
  let g := blocks.foldl (fun (g : Dy) b =>
    b.2.1.foldl (fun (g : Dy) m => g.add ⟨m, (b.1 : Int) - 133⟩) g) start.2.1
  let sum := roundFlush fmtF32 g.isNeg g.m.natAbs g.e 0 fm 0
  (⟨i, start.1, some (BitVec.ofNat 32 mn, BitVec.ofNat 32 sum.1)⟩, blocks.map fun b => (b.1, b.2.1), start.2.2,
   blocks.foldl (fun f b => f ||| b.2.2) (mc.2 ||| sum.2))

/-- The checks of MSMX (R195): the faults of its tiles, then checks 1, 2, 3, 4 and 7 of R161 on its store. -/
def softmaxFault (ts tout w : BitVec 3) (a : BitVec 5) (s : State) : Option Trap :=
  match tileFault [ts, tout] s with
  | some t => some t
  | none =>
    let d := s.opWin w
    let e : Int := (s.nowS a).toNat
    let start := faddrOf (byteLo (offsetBits d.fmt) e)
    let mk (c f : Nat) : Option Trap := some ⟨c, f, none, none⟩
    if d.kind = 0 ∨ ¬ d.wr then mk 0x081 start
    else if d.fmt ≠ 8 ∨ d.geo ≠ 0 then mk 0x082 start
    else if e % 4 ≠ 0 then mk 0x083 start
    else if d.len < e + 4096 then mk 0x084 (faddrOf (max e d.len))
    else
      let lo := d.addr s.fr.core + e.toNat
      let sc := d.scaleAddr s.fr.core + e.toNat / 4
      match spanOverlap [(lo, lo + 4096), (sc, sc + 1024)] s.pendingRanges with
      | some b => mk 0x105 (faddrOf ((b : Int) - d.addr s.fr.core))
      | none => none

/-- MSMX (R195): the tiles are sampled at issue and every result lands at the end of issue + 15. -/
def softmaxOp (ts tout w : BitVec 3) (a : BitVec 5) (s : State) : State :=
  let rows := (List.range 64).map fun i => softmaxRow ((s.tileOf ts).row i) ((s.tileOf tout).row i) i s.fm
  let loss := rows.foldl (fun n r => n + r.2.2.1) 0
  let fl := rows.foldl (fun f r => f ||| r.2.2.2) 0
  let acc : Access :=
    { kind := .msmx, core := s.fr.core, ctx := s.fr.ctx.val, slot := 6, ord := s.me.ord, left := 16, land := 16
      keep := .live, port := 8 * (s.fr.core % 384) + 2, win := s.opWin w, elem := (s.nowS a).toNat, step := 0, index := []
      data := [], arg := 0, arg2 := 0, mask := 0, rm := 0, fm := s.fm, dest := noDest, dest2 := noDest, x := ⟨0, 0⟩
      msmx := rows.flatMap fun r => r.2.1 }
  let die := s.myDie
  (s.setMyDie { die with acc := die.acc ++ [acc] }).tileWrite 16 tout (.rows (rows.map fun r => r.1) false loss fl)

/-! ### Arrival units -/

/-- The registration whose units come first on a tile (R192). -/
def Core.headReg (k : Core) (tile : Nat) : Option Registration :=
  k.regn.find? fun r => r.tile == tile && decide (r.done < r.total) && k.stands r

/-- The unit is next in its tile's arrival order (R192). -/
def Core.nextUnit (k : Core) (u : ArrUnit) : Bool :=
  match k.headReg u.tile with
  | some r => decide (r.x = u.x ∧ r.done = u.seq)
  | none => false

/-- The queue has an entry that takes the unit (R193): one of the fifteen, or the sixteenth for a unit that is next. A unit of a task
that has left the core finds none (R194). -/
def Core.roomFor (k : Core) (u : ArrUnit) : Option Bool :=
  if k.regn.any fun r => decide (r.x = u.x) && !k.stands r then none
  else if (k.arrq.filter fun v => !v.kept).length < 15 then some false
  else if k.nextUnit u ∧ ¬ k.arrq.any fun v => v.kept then some true
  else none

/-- An arriving unit takes an entry of the queue, or stays in its transfer unit (R193). A unit of a transfer that is registered no longer
is not kept. -/
def Core.arrive (k : Core) (u : ArrUnit) : Core :=
  if ¬ k.regn.any (fun r => decide (r.x = u.x)) then k
  else match k.roomFor u with
  | some b => { k with arrq := k.arrq ++ [{ u with kept := b }] }
  | none => { k with retry := k.retry ++ [u] }

/-- A transfer registers on a tile in its issue clk (R191): its units wait for the tile instructions issued before. -/
def Core.register (k : Core) (tile : Nat) (x : Xid) (ctx total : Nat) : Core :=
  let after := (k.twr.filter fun w => w.tile == tile).foldl (fun a w => max a w.left) 0
  { k with regn := k.regn ++ [⟨tile, x, ctx, total, 0, after⟩] }

/-- The unit may apply now (R192, R194). -/
def Core.applicable (k : Core) (u : ArrUnit) : Bool :=
  k.nextUnit u && !ownedBy k.nests u.tile &&
    (match k.headReg u.tile with
     | some r => r.after == 0 && (k.ctx ⟨r.ctx % 4, Nat.mod_lt _ (by omega)⟩).frozen == .none
     | none => false)

/-- The units of some tiles in the order of R192: by registration, and within one transfer by unit. -/
def Core.unitOrder (k : Core) (tiles : Nat → Bool) : List ArrUnit :=
  k.regn.flatMap fun r =>
    ((k.arrq.filter fun u => decide (u.x = r.x ∧ u.tile = r.tile) && tiles u.tile)).foldl
      (fun acc u => (acc.takeWhile fun v => decide (v.seq ≤ u.seq)) ++ u :: acc.dropWhile fun v => decide (v.seq ≤ u.seq)) []

/-- The unit of the lowest channel, and within it the lowest identifier (R192). -/
def firstUnit : List ArrUnit → Option ArrUnit
  | [] => none
  | u :: l =>
    match firstUnit l with
    | none => some u
    | some v => if v.x.ch < u.x.ch ∨ (v.x.ch = u.x.ch ∧ v.x.id.toNat < u.x.id.toNat) then some v else some u

/-- TAG of an arrival's event (R190). -/
def xidTag (x : Xid) : Nat := x.ch % 8 * 2 ^ 15 + x.id.toNat % 2 ^ 15

/-- A unit applies (R189, R191, R361): the first of an XMVB copies the tile to its shadow, which the last releases; a registration
whose units have all applied is over. -/
def Core.applyUnit (k : Core) (u : ArrUnit) : Core :=
  let t := k.tile u.tile
  let k := if u.src = 1 ∧ u.seq = 0 then { k with mvshadow := Table.put k.mvshadow u.tile t } else k
  let k := k.setTile u.tile (t.applyRow u.row (u.q.map fun q => ⟨q, u.e⟩) u.src (xidTag u.x))
  let regn := k.regn.map fun (r : Registration) => if r.tile = u.tile ∧ r.x = u.x then { r with done := r.done + 1 } else r
  let last := regn.any fun (r : Registration) => decide (r.tile = u.tile ∧ r.x = u.x ∧ r.total ≤ r.done)
  { k with regn := regn.filter fun (r : Registration) => !decide (r.tile = u.tile ∧ r.x = u.x ∧ r.total ≤ r.done)
           mvshadow := if last ∧ u.src = 1 then Table.drop k.mvshadow u.tile else k.mvshadow }

/-- A unit that updates a tile with a parity error: CHKERR is set, and the report waits for the boundary of the context that holds the
matrix grant (R197). -/
def Core.reportTile (k : Core) (t : Nat) : Core :=
  if k.badTile t then
    let k := k.markTile t
    match (List.finRange 4).find? fun x => (k.ctx x).bound && (k.ctx x).bind.mgrant with
    | some x => k.setCtx x { k.ctx x with report := (k.ctx x).report.or (some ⟨0x304, t % 8, none, none⟩) }
    | none => k
  else k

/-- The one unit of this clk, if any may apply (R192). -/
def Core.arrivalApply (k : Core) : Core :=
  match firstUnit (k.arrq.filter k.applicable) with
  | some u =>
    let k := (k.applyUnit u).reportTile u.tile
    { k with arrq := k.arrq.filter fun v => !decide (v.x = u.x ∧ v.seq = u.seq ∧ v.tile = u.tile) }
  | none => k

/-- Units in transfer units are tried again, in their order (R193). -/
def Core.arrivalRetry (k : Core) : Core :=
  k.retry.foldl Core.arrive { k with retry := [] }

/-- Registrations come a clk nearer to their tile's earlier instructions having landed, and those whose units have all
applied are over. -/
def Core.regnClk (k : Core) : Core :=
  { k with regn := k.regn.map fun r => { r with after := r.after - 1 } }

/-- The matrix unit's end of a clk, after the reads: updates, tile instructions, nests, arrivals. -/
def Core.matrixClk (k : Core) : Core :=
  (k.nestUpdate.tileLand.nestClk.arrivalApply.arrivalRetry).regnClk

/-! ### Meanings -/

/-- Write a shadow nest-table register from s(a). -/
def actMcfg (tg : Tag) (cr : BitVec 8) (a : BitVec 5) : State → State :=
  tileOp tg fun s => s.setMyCore { s.myCore with shadow := s.myCore.shadow.write cr.toNat ((s.nowS a).truncate 32) }
/-- MCFG (R181), issued alone. -/
def execMcfg (tg : Tag) (cr : BitVec 8) (a : BitVec 5) (s : State) : Out :=
  .next (s.issueSyl (.mcfg tg cr a) 6 (fieldsOnly (.mcfg tg cr a)) matrixFault (actMcfg tg cr a))

/-- Write a shadow nest-table register from a literal. -/
def actMcfgl (tg : Tag) (cr : BitVec 8) (l : BitVec 4) : State → State :=
  tileOp tg fun s => s.setMyCore { s.myCore with shadow := s.myCore.shadow.write cr.toNat (s.literal l.toNat) }
/-- MCFGL (R181), issued alone. -/
def execMcfgl (tg : Tag) (cr : BitVec 8) (l : BitVec 4) (s : State) : Out :=
  .next (s.issueSyl (.mcfgl tg cr l) 6 (fieldsOnly (.mcfgl tg cr l)) matrixFault (actMcfgl tg cr l))

/-- Read a shadow nest-table register into s(a). -/
def actMcfgrd (tg : Tag) (cr : BitVec 8) (a : BitVec 5) : State → State :=
  tileOp tg fun s => s.putS 6 1 a ((s.myCore.shadow.read cr.toNat).zeroExtend 64)
/-- MCFGRD (R181), issued alone. -/
def execMcfgrd (tg : Tag) (cr : BitVec 8) (a : BitVec 5) (s : State) : Out :=
  .next (s.issueSyl (.mcfgrd tg cr a) 6 (fieldsOnly (.mcfgrd tg cr a)) matrixFault (actMcfgrd tg cr a))

/-- Copy the shadow table to the active table, check and start a matrix nest. -/
def actMnest (tg : Tag) : State → State :=
  tileOp tg fun s => s.startNest
/-- MNEST (R182), issued alone. -/
def execMnest (tg : Tag) (s : State) : Out :=
  .next (s.issueSyl (.mnest tg) 6 (fieldsOnly (.mnest tg)) nestFault (actMnest tg))

/-- Set every tile row to a given exponent with zero mantissas and reset side registers. -/
def actAccinit (tg : Tag) (t : BitVec 3) (a : BitVec 5) : State → State :=
  tileOp tg fun s => s.tileWrite 2 t (.init ((s.nowS a).extractLsb' 0 10).toInt false)
/-- ACCINIT (R200), issued alone. -/
def execAccinit (tg : Tag) (t : BitVec 3) (a : BitVec 5) (s : State) : Out :=
  .next (s.issueSyl (.accinit tg t a) 6 (fieldsOnly (.accinit tg t a)) (tileFault [t]) (actAccinit tg t a))

/-- Mark every tile row unset and reset side registers. -/
def actAccinitU (tg : Tag) (t : BitVec 3) : State → State :=
  tileOp tg fun s => s.tileWrite 2 t (.init 0 true)
/-- ACCINIT.U (R200), issued alone. -/
def execAccinitU (tg : Tag) (t : BitVec 3) (s : State) : Out :=
  .next (s.issueSyl (.accinitU tg t) 6 (fieldsOnly (.accinitU tg t)) (tileFault [t]) (actAccinitU tg t))

/-- Shift every row toward a target headroom. -/
def actAccnorm (tg : Tag) (t : BitVec 3) (a : BitVec 5) : State → State :=
  tileOp tg (normOp t a false)
/-- ACCNORM (R201), issued alone. -/
def execAccnorm (tg : Tag) (t : BitVec 3) (a : BitVec 5) (s : State) : Out :=
  .next (s.issueSyl (.accnorm tg t a) 6 (fieldsOnly (.accnorm tg t a)) (tileFault [t]) (actAccnorm tg t a))

/-- Shift one row toward a target headroom. -/
def actAccnormRow (tg : Tag) (t : BitVec 3) (a : BitVec 5) : State → State :=
  tileOp tg (normOp t a true)
/-- ACCNORM.ROW (R201), issued alone. -/
def execAccnormRow (tg : Tag) (t : BitVec 3) (a : BitVec 5) (s : State) : Out :=
  .next (s.issueSyl (.accnormRow tg t a) 6 (fieldsOnly (.accnormRow tg t a)) (tileFault [t]) (actAccnormRow tg t a))

/-- Add a signed delta to every set row's exponent. -/
def actAccscale (tg : Tag) (t : BitVec 3) (a : BitVec 5) : State → State :=
  tileOp tg (scaleOp t a false)
/-- ACCSCALE (R202), issued alone. -/
def execAccscale (tg : Tag) (t : BitVec 3) (a : BitVec 5) (s : State) : Out :=
  .next (s.issueSyl (.accscale tg t a) 6 (fieldsOnly (.accscale tg t a)) (tileFault [t]) (actAccscale tg t a))

/-- Add a signed delta to one row's exponent. -/
def actAccscaleRow (tg : Tag) (t : BitVec 3) (a : BitVec 5) : State → State :=
  tileOp tg (scaleOp t a true)
/-- ACCSCALE.ROW (R202), issued alone. -/
def execAccscaleRow (tg : Tag) (t : BitVec 3) (a : BitVec 5) (s : State) : Out :=
  .next (s.issueSyl (.accscaleRow tg t a) 6 (fieldsOnly (.accscaleRow tg t a)) (tileFault [t]) (actAccscaleRow tg t a))

/-- Read one tile row into a vector in a chosen format. -/
def actAccrd (tg : Tag) (d : BitVec 5) (t : BitVec 3) (a : BitVec 5) (f : BitVec 3) : State → State :=
  tileOp tg (accrdOp d t a f)
/-- ACCRD (R203), issued alone. -/
def execAccrd (tg : Tag) (d : BitVec 5) (t : BitVec 3) (a : BitVec 5) (f : BitVec 3) (s : State) : Out :=
  .next (s.issueSyl (.accrd tg d t a f) 6 (fieldsOnly (.accrd tg d t a f)) (tileFault [t]) (actAccrd tg d t a f))

/-- Write or add a vector into one tile row. -/
def actAccwr (tg : Tag) (d : BitVec 5) (t : BitVec 3) (a : BitVec 5) (f : BitVec 3) : State → State :=
  tileOp tg (accwrOp d t a f)
/-- ACCWR (R204), issued alone. -/
def execAccwr (tg : Tag) (d : BitVec 5) (t : BitVec 3) (a : BitVec 5) (f : BitVec 3) (s : State) : Out :=
  .next (s.issueSyl (.accwr tg d t a f) 6 (fieldsOnly (.accwr tg d t a f)) (tileFault [t]) (actAccwr tg d t a f))

/-- One online-softmax step: update row maxima and sums, rescale the output tile and write P as BSI8. -/
def actMsmx (tg : Tag) (ts tout w : BitVec 3) (a : BitVec 5) : State → State :=
  tileOp tg (softmaxOp ts tout w a)
/-- MSMX (R195), issued alone. -/
def execMsmx (tg : Tag) (ts tout w : BitVec 3) (a : BitVec 5) (s : State) : Out :=
  .next (s.issueSyl (.msmx tg ts tout w a) 6 (fieldsOnly (.msmx tg ts tout w a)) (softmaxFault ts tout w a) (actMsmx tg ts tout w a))

/-- Set the mirror check or arm the rotation check. -/
def actMchk (tg : Tag) (mode : BitVec 2) : State → State :=
  tileOp tg fun s =>
    s.setMe (match mode with
      | 0 => { s.me with mirror := false, armed := false }
      | 1 => { s.me with mirror := true }
      | _ => { s.me with armed := true })
/-- MCHK (R196), issued alone. -/
def execMchk (tg : Tag) (mode : BitVec 2) (s : State) : Out :=
  .next (s.issueSyl (.mchk tg mode) 6 (fieldsOnly (.mchk tg mode)) matrixFault (actMchk tg mode))

/-- Read tile status, check record, unset flags or check state. -/
def actAccst (tg : Tag) (d : BitVec 5) (t : BitVec 3) (a : BitVec 5) : State → State :=
  tileOp tg fun s => s.putS 6 2 d (s.accst t ((s.nowS a).toNat % 4))
/-- ACCST (R205), issued alone. -/
def execAccst (tg : Tag) (d : BitVec 5) (t : BitVec 3) (a : BitVec 5) (s : State) : Out :=
  .next (s.issueSyl (.accst tg d t a) 6 (fieldsOnly (.accst tg d t a)) (tileFaultNoBusy t) (actAccst tg d t a))

/-- Read a row's exponent, headroom and unset flag. -/
def actAccexp (tg : Tag) (d : BitVec 5) (t : BitVec 3) (a : BitVec 5) : State → State :=
  tileOp tg fun s => s.putS 6 3 d ((s.tileOf t).row ((s.nowS a).toNat % 64)).exps
/-- ACCEXP (R205), issued alone. -/
def execAccexp (tg : Tag) (d : BitVec 5) (t : BitVec 3) (a : BitVec 5) (s : State) : Out :=
  .next (s.issueSyl (.accexp tg d t a) 6 (fieldsOnly (.accexp tg d t a)) (tileFault [t]) (actAccexp tg d t a))

/-- Read LOSS, optionally clearing it. -/
def actAccloss (tg : Tag) (d : BitVec 5) (t : BitVec 3) (a : BitVec 5) : State → State :=
  tileOp tg fun s =>
    let s1 := s.putS 6 2 d (BitVec.ofNat 64 (s.tileOf t).loss)
    if (s.nowS a).getLsbD 0 then s1.tileWrite 1 t .clearLoss else s1
/-- ACCLOSS (R205), issued alone. -/
def execAccloss (tg : Tag) (d : BitVec 5) (t : BitVec 3) (a : BitVec 5) (s : State) : Out :=
  .next (s.issueSyl (.accloss tg d t a) 6 (fieldsOnly (.accloss tg d t a)) (tileFault [t]) (actAccloss tg d t a))

/-- Read one event-log entry. -/
def actAcclog (tg : Tag) (d : BitVec 5) (t : BitVec 3) (a : BitVec 5) : State → State :=
  tileOp tg fun s => s.putS 6 2 d ((s.tileOf t).log[(⟨(s.nowS a).toNat % 16, Nat.mod_lt _ (by omega)⟩ : Fin 16)])
/-- ACCLOG (R205), issued alone. -/
def execAcclog (tg : Tag) (d : BitVec 5) (t : BitVec 3) (a : BitVec 5) (s : State) : Out :=
  .next (s.issueSyl (.acclog tg d t a) 6 (fieldsOnly (.acclog tg d t a)) (tileFault [t]) (actAcclog tg d t a))

/-- Read a row's softmax side registers. -/
def actAccside (tg : Tag) (d : BitVec 5) (t : BitVec 3) (a : BitVec 5) : State → State :=
  tileOp tg fun s =>
    let r := (s.tileOf t).row ((s.nowS a).toNat % 64)
    s.putS 6 3 d (r.sum ++ r.max)
/-- ACCSIDE (R205), issued alone. -/
def execAccside (tg : Tag) (d : BitVec 5) (t : BitVec 3) (a : BitVec 5) (s : State) : Out :=
  .next (s.issueSyl (.accside tg d t a) 6 (fieldsOnly (.accside tg d t a)) (tileFault [t]) (actAccside tg d t a))

end Sys2Proof.Machine
end

