-- ==== Sys2Proof/Machine/Engine.lean ====
section
/-! DEFINITION. The transfer engines: how a transfer starts (R289), what a piece of a copy does (R290, R296, R297, R300),
compressed objects (R301 to R303), the error of a transfer and its resumption (R286, R347 to R349), and completion
(R284). -/

namespace Sys2Proof.Machine

/-! ### Writing -/

/-- A masked byte at its virtual address and physical place. -/
structure Spot where
  block : Option Nat
  va    : Nat
  pa    : Nat
  mask  : Nat
  val   : Nat
deriving DecidableEq, Repr

/-- The physical places of the cells a transfer writes at an end; a partial byte of a peer is read first. -/
def State.spots (s : State) (t : Xfer) (d : Area) (cs : List Cell) : Except Stop (List Spot) :=
  cs.mapM fun c => do
    let pa ← s.phys t d.virt .write (if c.scale then d.scaleNeed else d.need) c.addr
    match placeOf pa with
    | .peer _ _ => if c.mask ≠ 255 then let _ ← s.byteAt t c.addr pa; return ⟨c.block, c.addr % 2 ^ 55, pa, c.mask, c.val⟩
                   else return ⟨c.block, c.addr % 2 ^ 55, pa, c.mask, c.val⟩
    | _ => return ⟨c.block, c.addr % 2 ^ 55, pa, c.mask, c.val⟩

/-- A masked byte over an old one. -/
def mergeByte (old : Byte) (mask val : Nat) : Byte :=
  (old &&& ~~~ BitVec.ofNat 8 mask) ||| (BitVec.ofNat 8 val &&& BitVec.ofNat 8 mask)

/-- A masked byte written to memory. -/
def Memory.poke (m : Memory) (a mask val : Nat) : Memory := m.write a [mergeByte (m.read a) mask val]

/-- A host line as the device holds it written (R406): the host-line buffer has 512 sets of 16 ways (R404), and the oldest of a full
set is evicted to the host. DESIGN CHOICE (log 45): a line's set is its number modulo 512. -/
def State.hostPoke (s : State) (pa mask val : Nat) : State :=
  let line := pa / 64
  let old := match s.hostLines.find? fun g => g.1 == line with
    | some g => g.2
    | none => s.mem.bytes (line * 64) 64
  let new := (line, old.set (pa % 64) (mergeByte (old.getD (pa % 64) 0) mask val))
  let ls := (s.hostLines.filter fun g => g.1 != line) ++ [new]
  let set := ls.filter fun g => g.1 % 512 == line % 512
  match (if set.length > 16 then set.head? else none) with
  | some g => { s with hostLines := ls.filter fun h => h.1 != g.1, mem := s.mem.write (g.1 * 64) g.2 }
  | none => { s with hostLines := ls }

/-- The runs of consecutive bytes among spots, each of at most the 768 bytes that a packet carries (R399). -/
def runsOf : List Spot → List (Nat × List Spot)
  | [] => []
  | p :: l =>
    match runsOf l with
    | [] => [(p.pa, [p])]
    | (a, r) :: rest => if p.pa + 1 = a ∧ r.length < 768 then (p.pa, p :: r) :: rest else (p.pa, [p]) :: (a, r) :: rest

/-- One spot written where it lies in this module, outside on-die SRAM: a copy of the line the host holds is
back-invalidated first when the transfer names scope system (R405). -/
def State.pokeSpot (s : State) (sys : Bool) (p : Spot) : State :=
  match placeOf p.pa with
  | .host => s.hostPoke p.pa p.mask p.val
  | _ =>
    let s := if sys then s.backInvalidate (p.pa / 64) else s
    { s with mem := s.mem.poke p.pa p.mask p.val }

/-- The virtual address of the first of some spots. -/
def spotVa (sp : List Spot) : Nat := (sp.head?.map Spot.va).getD 0

/-- A write request to a peer for one run of bytes (R399, R400); none when no port is common and live. -/
def State.peerWrite (s : State) (t : Xfer) (piece : Nat) (run : Nat × List Spot) : Option State :=
  match placeOf run.1 with
  | .peer n off =>
    let bytes := run.2.map fun p =>
      match s.byteAt t p.va p.pa with
      | .ok b => mergeByte b p.mask p.val
      | .error _ => BitVec.ofNat 8 p.val
    s.request { dmod := n, smod := 0, type := 2, asid := t.asid, pseq := 0, core := t.core, x := t.x
                ops := [BitVec.ofNat 64 off, BitVec.ofNat 64 bytes.length], data := bytes }
      piece (spotVa run.2)
  | _ => some s

/-- The operations whose results the hutch writes. -/
def hutchOf (i : Instr) : Bool :=
  match i with
  | .xmove _ _ _ _ | .xchain _ _ _ _ => true
  | _ => false

/-- The port under which a transfer writes an on-die SRAM: the hutch reaches its own vault, the transfer units all else (R244,
R306). -/
def Xfer.portTo (t : Xfer) (p : Place) : Nat :=
  if hutchOf t.op ∧ p = .vault (dieOf t.core) (clusterOf t.core) then 3072 + 2 * clusterOf t.core + 1 else unitPortOf t.core p

/-- The deliveries into on-die SRAM of a transfer's spots, one for each block and one for the rest (R252). -/
def spotDeliveries (t : Xfer) (sp : List Spot) : List (Nat × Delivery) :=
  let key (p : Spot) : (Nat × Nat) × Option Nat := (((placeOf p.pa).die.getD 0, t.portTo (placeOf p.pa)), p.block)
  (distinct (sp.map key)).map fun (k : (Nat × Nat) × Option Nat) =>
    (k.1.1, Delivery.bytes t.x ⟨k.1.2, t.core, t.ctx, k.2, (sp.filter fun p => decide (key p = k)).map fun p => (p.pa, p.mask, p.val)⟩)

/-- A delivery joins those its die performs in the next clk (R252). -/
def State.addDelivery (s : State) (die : Nat) (d : Delivery) : State :=
  let x := s.die die
  s.setDie die { x with deliv := x.deliv ++ [d] }

/-- The spots of a piece written: into on-die SRAM by deliveries, to a peer by write requests, elsewhere at once. When a peer cannot be
reached, the virtual address of the first undelivered byte (R400). DESIGN CHOICE (log 59): the module has one memory that every agent reads at once, so a write at one
of SCOPE 0 to 5 is seen alike by agents inside and outside that scope (R4, R288). -/
def State.writeSpots (s : State) (t : Xfer) (piece : Nat) (sp : List Spot) : Except Nat State :=
  let sram := sp.filter fun p => (placeOf p.pa).onDie
  let far := sp.filter fun p => match placeOf p.pa with
    | .peer _ _ => true
    | _ => false
  let near := sp.filter fun p => match placeOf p.pa with
    | .peer _ _ => false
    | pl => !pl.onDie
  let s := near.foldl (fun s p => s.pokeSpot (litScope t.lit == 6) p) s
  let s := (spotDeliveries t sram).foldl (fun s d => s.addDelivery d.1 d.2) s
  (runsOf far).foldlM (fun s r => match s.peerWrite t piece r with
    | some s => .ok s
    | none => .error (spotVa r.2)) s

/-! ### Lines and ends -/

def State.updXfer (s : State) (t : Xfer) : State := s.setCore t.core ((s.core t.core).setXfer t)

/-- The lines, in the end's own space, that an element's data and scale bytes lie in. -/
def Area.linesOf (d : Area) (i : Int) : List Nat :=
  let data (i : Int) : List Nat :=
    let lo := (d.base + (byteLo d.bits (d.off + i)).toNat) / 64
    let hi := (d.base + (byteHi d.bits (d.off + i)).toNat - 1) / 64
    (List.range (hi + 1 - lo)).map fun k => lo + k
  if blockFmt d.fmt then
    (d.members (d.blockOf i)).flatMap (fun o => match o with
      | some j => data j
      | none => []) ++ [d.scaleAt (d.blockOf i) / 64]
  else data i

/-- The 64-byte pieces of a copy's destination (R290). -/
def Area.pieceLines (d : Area) (ms : List Move) : List Nat := distinct (ms.flatMap fun m => d.linesOf m.dst)

/-- The ends of a copy. -/
def State.copyEnds (s : State) (t : Xfer) : Except Stop (Area × Area) := do
  return (← s.area t (recSrc t.recd) (recElem t.recd) .read, ← s.area t (recDst t.recd) (recElem t.recd) .write)

/-! ### The error of a transfer (R286, R348, R361) -/

/-- A write of a piece stands unanswered at a peer. -/
def State.unanswered (s : State) (t : Xfer) (n : Nat) : Bool :=
  s.sents.any fun (e : Sent) => e.pkt.core == t.core && decide (e.pkt.x = t.x) && e.pkt.type == 2 && e.piece == n

/-- RP of a transfer that ends or is cut now (R348): the first element, row or lane that has not performed. -/
def State.cutRp (s : State) (t : Xfer) : Nat :=
  let performed (n : Nat) : Bool := t.pieces.contains n && !s.unanswered t n
  match t.op with
  | .xcopy _ _ _ _ | .xlin _ _ _ _ =>
    if recCmp t.recd then 0
    else
      let ms := copyMoves (copyKind t.op) t.recd t.rp
      match s.copyEnds t with
      | .error _ => t.rp
      | .ok r =>
        let lines := r.2.pieceLines ms
        let done := (List.range lines.length).filterMap fun n => if performed n then lines[n]? else none
        match ms.find? fun m => !((r.2.linesOf m.dst).all done.contains) with
        | some m => m.at_
        | none => ms.foldl (fun n m => max n (m.at_ + 1)) t.rp
  | .xgath _ _ _ _ | .xscat _ _ _ _ =>
    ((List.range (recRows t.recd)).find? fun n => !t.pieces.contains n
      || s.sents.any fun (e : Sent) => e.pkt.core == t.core && decide (e.pkt.x = t.x) && e.pkt.type == 2 && e.piece % 64 == n).getD
      (recRows t.recd)
  | .xredv _ _ _ _ => ((List.range 64).find? fun n => !t.pieces.contains n).getD 64
  | _ => 0

/-- BYTES of R348: the destination bytes of the elements, rows or lanes before RP. -/
def State.bytesBefore (s : State) (t : Xfer) : Nat :=
  match t.op with
  | .xcopy _ _ _ _ | .xlin _ _ _ _ =>
    if recCmp t.recd then 0
    else match s.copyEnds t with
      | .ok r => ((copyMoves (copyKind t.op) t.recd 0).filter fun m => decide (m.at_ < t.rp)).length * r.2.bits / 8
      | .error _ => 0
  | .xgath _ _ _ _ | .xscat _ _ _ _ =>
    (match s.copyEnds t with
     | .ok r => t.rp * recRL t.recd * r.2.bits / 8
     | .error _ => 0)
  | .xredv _ _ _ _ => 4 * t.rp
  | _ => 0

/-- The tile of an XMVB. -/
def mvTile (r : List Word) : Nat := fld (wordAt r 0) 21 3

/-- A tile restored from its XMVB shadow, which holds its rows' exponents, unset flags and mantissas, LOSS, OVF, NSEQ and the event
log (R361). -/
def Tile.restored (t shadow : Tile) : Tile :=
  { shadow with
    rows := List.zipWith (fun (r q : Row) => { q with max := r.max, sum := r.sum }) t.rows shadow.rows
    chkerr := t.chkerr, check := t.check }

/-- Units of a transfer have applied to a tile: the tile's XMVB shadow is its own. -/
def Core.ownsShadow (k : Core) (t : Xfer) (tile : Nat) : Bool :=
  Table.has k.mvshadow tile && k.regn.any fun (r : Registration) => decide (r.x = t.x) && r.tile == tile && r.ctx == t.ctx && decide (0 < r.done)

/-- A failed XMVB restores its tile from its shadow, and its units are forgotten; the tile stays registered (R361). -/
def Core.mvRestore (k : Core) (t : Xfer) : Core :=
  let tile := mvTile t.recd
  let k := if k.ownsShadow t tile then
      { k.setTile tile ((k.tile tile).restored (Table.get {} k.mvshadow tile)) with mvshadow := Table.drop k.mvshadow tile }
    else k
  { k with arrq := k.arrq.filter fun u => !decide (u.x = t.x)
           retry := k.retry.filter fun u => !decide (u.x = t.x)
           away := k.away.filter fun u => !decide (u.x = t.x)
           regn := k.regn.map fun r => if r.x = t.x then { r with done := 0 } else r }

/-- A delivery of a core's transfer has still to perform. -/
def State.delivering (s : State) (core : Nat) (x : Xid) : Bool :=
  s.dies.any fun d => d.2.deliv.any fun y =>
    match y with
    | .bytes z p => decide (z = x) && p.core == core
    | .arrive z _ c _ _ _ => decide (z = x) && c == core

def State.undelivered (s : State) (t : Xfer) : Bool := s.delivering t.core t.x

/-- A request of the transfer stands unanswered. -/
def State.awaiting (s : State) (t : Xfer) : Bool := s.sents.any fun (e : Sent) => e.pkt.core == t.core && decide (e.pkt.x = t.x)

/-- The requests of a transfer that need no answer any more: its reads, and those that have not left. -/
def State.forget (s : State) (t : Xfer) : State :=
  { s with sents := s.sents.filter fun (e : Sent) =>
      !(e.pkt.core == t.core && decide (e.pkt.x = t.x) && (e.pkt.type == 1 || e.port == unsentPort)) }

/-- A transfer whose error is known, or that has been given up, and nothing of it is under way: it completes, with its error if it has
one, and its record holds RP and the bytes performed (R286, R347, R348). -/
def State.endFailed (s : State) (t : Xfer) : State :=
  match t.err with
  | none => s.completeXfer t
  | some (code, faddr) =>
    let u := { t with rp := t.failRp }
    s.failXfer { u with bytes := s.bytesBefore u } code faddr

/-- A transfer ends with an error at a resumption point once what it has written before has performed: the rows of an XMVB are restored
(R361), and an uncorrectable HBM error counts against its row (R364). -/
def State.failFrom (s : State) (t : Xfer) (rp code faddr : Nat) : State :=
  let s := if code = 0x307 then s.rowMet (clusterIndex t.core) t.asid faddr else s
  let s := if (t.op matches .xmvb _ _ _ _) then s.setCore t.core ((s.core t.core).mvRestore t) else s
  let s := s.forget t
  let t := { t with phase := .waiting, err := some (code, faddr), failRp := rp, round := 0, dst := none, out := [], commit := [] }
  if s.awaiting t ∨ s.undelivered t then s.updXfer t else s.endFailed t

/-- A transfer ends with an error where it stands. -/
def State.failAt (s : State) (t : Xfer) (code faddr : Nat) : State := s.failFrom t (s.cutRp t) code faddr

/-! ### Stops -/

/-- A line of a peer is asked for once (R399); without a port the transfer is undelivered (R400). -/
def State.fetchLine (s : State) (t : Xfer) (pa va : Nat) : State :=
  if s.sents.any fun (e : Sent) => e.pkt.core == t.core && decide (e.pkt.x = t.x) && e.pkt.type == 1 && e.piece == pa then s
  else
    match placeOf pa with
    | .peer n off =>
      match s.request { dmod := n, smod := 0, type := 1, asid := t.asid, pseq := 0, core := t.core, x := t.x
                        ops := [BitVec.ofNat 64 off, 64], data := [] } pa va with
      | some s => s
      | none => s.failAt t 0x187 va
    | _ => s

/-- What a stopped access does to its transfer. -/
def State.stopped (s : State) (t : Xfer) (va : Nat) (st : Stop) : State :=
  match st with
  | .fault c f => s.failAt t c f
  | .wait => s.updXfer { t with round := Nat.max 1 t.round, waitAt := va }
  | .fetch pa at_ => (s.updXfer t).fetchLine t pa at_

/-- A transfer's piece has performed, or has been sent. -/
def State.pieceDone (s : State) (t : Xfer) (n : Nat) : State := s.updXfer { t with pieces := n :: t.pieces, round := 0 }

/-! ### Copies -/

/-- A value for each element a list of moves writes. -/
def State.moveVals (s : State) (t : Xfer) (src : Area) (dfmt : Nat) (ms : List Move) : Except Stop (List (Int × Val)) :=
  ms.mapM fun m => do
    match m.src with
    | some i => return (m.dst, ← s.readVal t src (recFm t.recd) dfmt i)
    | none => return (m.dst, .fill (recFill t.recd))

/-- The source elements that a copy drops on store are read all the same (R296). -/
def State.readDrops (s : State) (t : Xfer) (src dst : Area) : Except Stop Unit := do
  for p in copyDrops (copyKind t.op) t.recd t.rp do
    let _ ← s.readVal t src (recFm t.recd) dst.fmt p.2

/-- The blocks that elements touch, in order. -/
def Area.blocks (d : Area) (es : List Int) : List Nat := distinct (es.map d.blockOf)

/-- The cells that values write at an end (R297). -/
def State.valCells (s : State) (t : Xfer) (d : Area) (rm fm : Nat) (vs : List (Int × Val)) : Except Stop (List Cell) := do
  if blockFmt d.fmt then
    let cs ← (d.blocks (vs.map Prod.fst)).mapM fun b => s.blockVals t d rm fm b (vs.filter fun v => d.blockOf v.1 == b)
    return cs.flatten
  else return vs.flatMap fun v => d.cells none v.1 d.bits (encodeVal d.fmt rm fm v.2)

/-- The cells of moves. -/
def State.moveCells (s : State) (t : Xfer) (src dst : Area) (ms : List Move) : Except Stop (List Cell) := do
  s.valCells t dst (recRm t.recd) (recFm t.recd) (← s.moveVals t src dst.fmt ms)

/-- The moves that are written with any of some: those of the same blocks (R344). -/
def blockMates (dst : Area) (ms some_ : List Move) : List Move :=
  if blockFmt dst.fmt then
    let bs := distinct (some_.map fun m => dst.blockOf m.dst)
    ms.filter fun m => bs.contains (dst.blockOf m.dst)
  else some_

/-- The first element whose access faults, and the fault (R348): an element moved, or one read and dropped. Of a block that cannot be
written it is the first (log 23). -/
def State.firstFault (s : State) (t : Xfer) (src dst : Area) (ms : List Move) : Option (Nat × Nat × Nat) :=
  let moved := ms.findSome? fun m =>
    match (do let cs ← s.moveCells t src dst (blockMates dst ms [m]); s.spots t dst cs) with
    | .error (.fault c f) => some (m.at_, c, f)
    | _ => none
  let dropped := (copyDrops (copyKind t.op) t.recd t.rp).findSome? fun p =>
    match s.readVal t src (recFm t.recd) dst.fmt p.2 with
    | .error (.fault c f) => some (p.1, c, f)
    | _ => none
  match moved, dropped with
  | some a, some b => some (if b.1 < a.1 then b else a)
  | a, b => a.or b

/-- The virtual addresses whose translations a piece uses enter the caches (R345). -/
def State.fillAll (s : State) (t : Xfer) (vas : List Nat) : State :=
  vas.foldl (fun s va => s.fill (clusterIndex t.core) t.asid va) s

/-- The first bytes of the elements of moves at their virtual ends. -/
def moveVas (src dst : Area) (ms : List Move) : List Nat :=
  distinct ((ms.filterMap fun m => if src.virt then m.src.map fun i => (src.base + (byteLo src.bits (src.off + i)).toNat) / 65536
      else none)
    ++ ms.filterMap fun m => if dst.virt then some ((dst.base + (byteLo dst.bits (dst.off + m.dst)).toNat) / 65536) else none)
  |>.map fun p => p * 65536

/-- A copy ends with an error at element `rp`, or at an earlier one that faults: every move before it is performed, piece by piece, and
then the transfer ends (R286, R348). -/
def State.copyStop (s : State) (t : Xfer) (src dst : Area) (ms : List Move) (rp code faddr : Nat) : State :=
  let e := match s.firstFault t src dst ms with
    | some f => if f.1 < rp then f else (rp, code, faddr)
    | none => (rp, code, faddr)
  let early := blockMates dst ms (ms.filter fun m => decide (m.at_ < e.1))
  match s.moveCells t src dst early with
  | .error st => s.stopped t faddr st
  | .ok cs =>
    let todo := (dst.pieceLines ms).zipIdx.filter fun l => !t.pieces.contains l.2
    match todo.foldlM (fun (s : State) l => do
        let sp ← s.spots t dst (cs.filter fun x => x.addr / 64 == l.1)
        match s.writeSpots t l.2 sp with
        | .ok s => return s
        | .error va => throw (Stop.fault 0x187 va)) s with
    | .ok s => s.failFrom t e.1 e.2.1 e.2.2
    | .error (.fault c f) => s.failAt t c f
    | .error st => s.stopped t faddr st

/-- A copy that met a fault ends at the first element that faults. -/
def State.copyFails (s : State) (t : Xfer) (src dst : Area) (ms : List Move) : State :=
  match s.firstFault t src dst ms with
  | none => s
  | some (rp, c, f) => s.copyStop t src dst ms rp c f

/-- A formatted block-scaled virtual end that is not wholly touched (check 7 of R298). -/
def raggedEnd (k : CopyKind) (t : Xfer) (src dst : Area) : Option Nat :=
  let bad (d : Area) (es : List Int) : Bool := d.virt && blockFmt d.fmt && !wholeBlocks d es
  if bad src (touchedSrc k t.recd) then some ((recSrc t.recd).toNat % 2 ^ 55)
  else if bad dst (touchedDst k t.recd) then some ((recDst t.recd).toNat % 2 ^ 55)
  else none

/-- A piece of XCOPY or XLIN performs (R290, R296, R297); with the first, the elements that are dropped are read. -/
def State.copyPiece (s : State) (t : Xfer) (n : Nat) : State :=
  let s := s.settle
  let k := copyKind t.op
  let ms := copyMoves k t.recd t.rp
  match s.copyEnds t with
  | .error st => s.stopped t 0 st
  | .ok (src, dst) =>
    match raggedEnd k t src dst with
    | some a => s.failAt t 0x182 a
    | none =>
      let line := (dst.pieceLines ms).getD n 0
      let mine := ms.filter fun m => (dst.linesOf m.dst).contains line
      let s := s.fillAll t (moveVas src dst mine)
      match (do (if n = 0 then s.readDrops t src dst else .ok ())
                let cs ← s.moveCells t src dst mine
                s.spots t dst (cs.filter fun c => c.addr / 64 == line)) with
      | .ok sp =>
        match s.writeSpots t n sp with
        | .ok s => s.pieceDone t n
        | .error va => s.failAt t 0x187 va
      | .error (.fault _ _) => s.copyFails t src dst ms
      | .error st => s.stopped t (line * 64) st

/-! ### Rows (R300) -/

/-- The moves of a row of a gather or scatter whose index has been pushed. -/
def Xfer.row (t : Xfer) (row : Nat) : List Move := rowMoves (copyKind t.op) t.recd row (t.index.getD row 0).toInt
/-- The pieces of a row, each the lines that perform together: line by line, but for a block-scaled destination all at once. -/
def Area.rowParts (d : Area) (ms : List Move) : List (List Nat) :=
  let lines := d.pieceLines ms
  if blockFmt d.fmt then (if lines = [] then [] else [lines]) else lines.map fun l => [l]
/-- Piece n of a row among the pieces of its transfer. -/
def lineKey (row n : Nat) : Nat := 64 * (n + 1) + row
/-- Piece n of a row has performed. -/
def Xfer.lineDone (t : Xfer) (row n : Nat) : Bool := t.pieces.contains row || t.pieces.contains (lineKey row n)

/-- The elements of some lines that a later row of a scatter has written already: of rows that overlap the greater stands. -/
def Xfer.overrun (t : Xfer) (dst : Area) (row : Nat) (lines : List Nat) : List Int :=
  if copyKind t.op ≠ .scatter then []
  else (List.range t.index.length).flatMap fun p =>
    if p ≤ row ∨ ¬ (t.pieces.any fun n => n % 64 == p) then []
    else
      let ms := t.row p
      (dst.rowParts ms).zipIdx.flatMap fun part =>
        if t.lineDone p part.2 then
          (ms.filter fun m => (dst.linesOf m.dst).any fun l => part.1.contains l && lines.contains l).map Move.dst
        else []

/-- Piece n of a row performs (R290, R297, R300). -/
def State.rowLine (s : State) (t : Xfer) (row n : Nat) : Except Stop State := do
  let (src, dst) ← s.copyEnds t
  let ms := t.row row
  let parts := dst.rowParts ms
  if parts = [] then return s.pieceDone t row
  if parts.length ≤ n ∨ t.lineDone row n then return s
  let lines := parts.getD n []
  let over_ := t.overrun dst row lines
  let mine := ms.filter fun m => (dst.linesOf m.dst).any lines.contains && !over_.contains m.dst
  let s := s.fillAll t (moveVas src dst mine)
  let cs ← s.moveCells t src dst mine
  let sp ← s.spots t dst (cs.filter fun c => lines.contains (c.addr / 64))
  match s.writeSpots t (lineKey row n) sp with
  | .error va => throw (.fault 0x187 va)
  | .ok s =>
    let ps := lineKey row n :: t.pieces
    let whole := (List.range parts.length).all fun i => ps.contains (lineKey row i)
    return s.updXfer { t with pieces := if whole then row :: ps else ps, round := 0 }

/-- A gather or scatter that met a fault in a row: every row before it is performed, or fails first (R348). -/
def State.rowsFail (s : State) (t : Xfer) (row c f : Nat) : State :=
  let todo := (List.range row).flatMap fun r => match s.copyEnds t with
    | .ok e => (List.range (max 1 (e.2.rowParts (t.row r)).length)).map fun n => (r, n)
    | .error _ => []
  let r := todo.foldl (fun (a : State × Option (Nat × Stop)) p =>
    match a.2, (a.1.core t.core).xfer? t.x with
    | none, some u => (match a.1.rowLine u p.1 p.2 with
      | .ok s => (s, none)
      | .error st => (a.1, some (p.1, st)))
    | _, _ => a) (s, none)
  let t := ((r.1.core t.core).xfer? t.x).getD t
  match r.2 with
  | none => r.1.failFrom t row c f
  | some (k, .fault c f) => r.1.failFrom t k c f
  | some (_, st) => r.1.stopped t 0 st

/-- A piece of row k of a gather or scatter moves once its index has been pushed (R290, R300). -/
def State.moveRow (s : State) (t : Xfer) (row n : Nat) : State :=
  let s := s.settle
  match s.rowLine t row n with
  | .ok s => s
  | .error (.fault c f) => s.rowsFail t row c f
  | .error st => s.stopped t 0 st

/-! ### Compressed objects (R301 to R303) -/

/-- The header of an object (R301). -/
structure ObjHead where
  nnz : Nat
  nelem : Nat
  rsv : Nat
  vlen : Nat
  v : Bool
  side : Nat
  ep : Nat
  fmt : Nat
  gen : Word
  words : List Word
deriving DecidableEq, Repr

def objHead (w : List Word) : ObjHead :=
  { nnz := fld (wordAt w 0) 32 32, nelem := fld (wordAt w 0) 0 32, rsv := fld (wordAt w 1) 32 32, vlen := fld (wordAt w 1) 0 32
    v := (wordAt w 2).getLsbD 7, side := fld (wordAt w 2) 6 1, ep := fld (wordAt w 2) 4 2, fmt := fld (wordAt w 2) 0 4
    gen := wordAt w 3, words := w }

/-- The formats of an object's elements (R301). -/
def objFmt (f : Nat) : Bool := decide (f ≤ 5 ∨ (10 ≤ f ∧ f ≤ 12))

/-- A header that names another format, or holds a bit it must not (R303, R305). -/
def ObjHead.bad (h : ObjHead) : Bool :=
  !objFmt h.fmt || ([4, 5, 6, 7].any fun i => wordAt h.words i != 0) || fld (wordAt h.words 2) 8 56 != 0

/-- Bytes of the bitmask. -/
def ObjHead.mlen (h : ObjHead) : Nat := 64 * ((h.nelem + 511) / 512)

/-- The object at an end: its first byte in the end's own space, and the byte after the end's last. -/
def Area.objAt (d : Area) : Nat := d.base + ((d.off * d.bits) / 8).toNat
/-- H as FADDR reports it: a virtual address, or a byte offset in the window. -/
def Area.objFaddr (d : Area) : Nat := if d.virt then d.objAt else d.objAt - d.base
def Area.limit (d : Area) : Nat := if d.virt then 2 ^ 55 else d.base + d.len

/-- An end as an object's bytes are reached: 32-bit words of FMT 0 (R321). -/
def State.objArea (s : State) (t : Xfer) (a : Word) (r : Right) : Except Stop Area := do
  if addrWindow a then return windowArea t.wins t.core a 0
  else
    let p ← (match s.mapping (clusterIndex t.core) t.asid (addrVirt a) r with
      | .error c => Except.error (mapStop c (addrVirt a))
      | .ok p => .ok p)
    if p.fmt ≠ 0 then throw (.fault 0x08A (addrVirt a))
    return { virt := true, base := addrVirt a, off := 0, bits := 32, fmt := 0, geo := 3, pitch := 0, shadow := 0, len := 2 ^ 55 }

/-- The header at an end. -/
def State.readHead (s : State) (t : Xfer) (d : Area) (r : Right) : Except Stop ObjHead := do
  return objHead (wordsOf 8 (← s.readBytes t d.virt d.need r d.objAt 64))

/-- The used length of the current side; a byte outside the end is an address-range fault, at its copy address (R298 check 6, R211). -/
def State.readSide (s : State) (t : Xfer) (d : Area) (h : ObjHead) : Except Stop (List Byte) := do
  let lo := d.objAt + 64 + h.side * h.rsv
  let n := h.mlen + h.vlen
  if lo + n > d.limit then
    let b := Nat.max lo d.limit
    throw (.fault 0x08B (if d.virt then b % 2 ^ 55 else (b - d.base) / 4))
  s.readBytes t d.virt d.need .read lo n

/-- The dense elements of a side: zero where the bitmask bit is 0 (R301). -/
def denseElems (h : ObjHead) (side : List Byte) : List Nat :=
  let b := elemBits h.fmt / 8
  ((List.range h.nelem).foldl (fun (a : List Nat × Nat) e =>
    if (side.getD (e / 8) 0).getLsbD (e % 8) then
      (leNat ((side.drop (h.mlen + b * a.2)).take b) :: a.1, a.2 + 1)
    else (0 :: a.1, a.2)) ([], 0)).1.reverse

/-- Dense elements as values for a destination format (R297). -/
def denseVals (fm f dfmt : Nat) (es : List Nat) : List (Int × Val) :=
  es.zipIdx.map fun p =>
    ((p.2 : Int), if dfmt = 16 ∨ dfmt = f then .bits p.1 else .real f p.1 (fmtValue fm f p.1 0))

/-- Cells that write bytes from an address of the end's own space on. -/
def byteCells (a : Nat) (bs : List Byte) : List Cell := bs.zipIdx.map fun b => ⟨none, false, a + b.2, 255, b.1.toNat⟩

/-- The place of an end's first byte. -/
def State.endPlace (s : State) (t : Xfer) (d : Area) (r : Right) : Except Stop Place := do
  return s.place (← s.phys t d.virt r none d.objAt)

/-- What an engine's computation gives: the header of an object, which is read before its side; a new hutch buffer; or the cells of a
result at an end, and those that commit it after them. -/
inductive Output where
  | head (bs : List Byte)
  | buffer (bs : List Byte)
  | cells (d : Area) (cs commit : List Cell)
deriving DecidableEq, Repr

/-- What a compressed copy does next (R303): it reads its header, and then its side; an object that holds no data writes nothing. DEDUCED
(log 68): RSV in step 1 of R302 is that of the header at the destination. -/
def State.cmpRun (s : State) (t : Xfer) : Except Stop Output := do
  let src ← s.objArea t (recSrc t.recd) .read
  if t.head = [] then return .head (← s.readBytes t src.virt src.need .read src.objAt 64)
  let dst ← s.area t (recDst t.recd) (recElem t.recd) .write
  let h := objHead (wordsOf 8 t.head)
  if h.bad then throw (.fault 0x08A ((recSrc t.recd).toNat % 2 ^ 55))
  if ¬ h.v then return .cells dst [] []
  if dst.virt ∧ blockFmt dst.fmt ∧ ¬ wholeBlocks dst (touchedDst .lin t.recd) then throw (.fault 0x182 ((recDst t.recd).toNat % 2 ^ 55))
  let side ← s.readSide t src h
  let from_ ← s.endPlace t src .read
  let tout ← s.endPlace t dst .write
  let level := match tout, from_ with
    | .pad c, _ => if c = t.core then 3 else 1
    | .vault _ _, _ => 2
    | _, _ => 1
  if h.ep ≤ level then
    if h.nelem > recN t.recd then throw (.fault 0x184 src.objFaddr)
    return .cells dst (← s.valCells t dst (recRm t.recd) (recFm t.recd) (denseVals (recFm t.recd) h.fmt dst.fmt (denseElems h side))) []
  else
    let d := { dst with fmt := 16 }
    if h.mlen + h.vlen > (← s.readHead t d .write).rsv then throw (.fault 0x184 d.objFaddr)
    if recN t.recd * dst.bits / 8 < 64 + 2 * h.rsv then throw (.fault 0x184 src.objFaddr)
    let head := bytesOf (h.words.set 2 (wordAt h.words 2 &&& ~~~ 0x40#64))
    return .cells d (byteCells (dst.objAt + 64) side) (byteCells dst.objAt head)

/-- A computed result: it is held, its cells to perform line by line, when every one of them can be reached; `next` says how the
transfer goes on after it. -/
def State.take (s : State) (t : Xfer) (va : Nat) (next : Xfer → Xfer) (p : Except Stop Output) : State :=
  match p with
  | .error st => s.stopped t va st
  | .ok (.head bs) => s.updXfer { t with head := bs, round := 0 }
  | .ok (.buffer bs) => s.updXfer (next { t with buf := bs, head := [], round := 0 })
  | .ok (.cells d cs commit) =>
    match s.spots t d (cs ++ commit) with
    | .error st => s.stopped t va st
    | .ok _ =>
      s.updXfer { next { t with head := [], round := 0 } with dst := if cs ++ commit = [] then none else some d, out := cs, commit := commit }

/-- A compressed copy computes, header first. -/
def State.cmpPiece (s : State) (t : Xfer) : State :=
  let s := s.settle
  s.take t (addrVirt (recSrc t.recd)) (fun t => { t with pieces := [0] }) (s.cmpRun t)

/-- A 64-byte piece of a result in hand performs, the lines in any order (R290); what commits it performs once all else has (R302,
R303). -/
def State.outPiece (s : State) (t : Xfer) (n : Nat) : State :=
  match t.dst with
  | none => s
  | some d =>
    let t := if t.out = [] ∧ ¬ s.awaiting t ∧ ¬ s.undelivered t then { t with out := t.commit, commit := [] } else t
    let lines := distinct (t.out.map fun c => c.addr / 64)
    match lines[n % lines.length]? with
    | none => s
    | some line =>
      let rest := t.out.filter fun c => c.addr / 64 != line
      match s.spots t d (t.out.filter fun c => c.addr / 64 == line) with
      | .error st => s.stopped t (line * 64) st
      | .ok sp =>
        match s.writeSpots t 0 sp with
        | .ok s => s.updXfer { t with out := rest, dst := if rest = [] ∧ t.commit = [] then none else some d, round := 0 }
        | .error va => s.failAt t 0x187 va

/-! ### Barrier objects (R307, R309) -/

/-- The words 0 and 1 of a barrier after an arrival (R307). -/
def arrive (w0 gen : Word) : Word × Word :=
  let count : W32 := w0.truncate 32 + 1
  let target : W32 := w0.extractLsb' 32 32
  if target.toNat ≤ count.toNat then (w0 &&& 0xFFFFFFFF00000000#64, gen + 1)
  else ((w0 &&& 0xFFFFFFFF00000000#64) ||| count.zeroExtend 64, gen)

/-- An arrival at a barrier by its physical address; the generation it found. -/
def Memory.arriveAt (m : Memory) (a : Nat) : Memory × Word :=
  let r := arrive (m.word a) (m.word (a + 8))
  ((m.putWord a r.1).putWord (a + 8) r.2, m.word (a + 8))

/-- The physical address of a barrier object, which lies in a vault, a scratchpad or HBM (R307). -/
def State.barrierAt (s : State) (t : Xfer) (a : Word) : Except Stop Nat := do
  let win := addrWindow a
  let at_ := if win then (winOf t.wins (addrWin a)).addr t.core + 4 * addrElem a else addrVirt a
  let pa ← s.phys t (!win) .both none at_
  match s.place pa with
  | .hbm _ => return pa
  | .vault _ _ => return pa
  | .pad _ => return pa
  | _ => throw (.fault 0x08A (addrVirt a))

/-- An arrival performs at its home: at once in HBM, where the host's copy goes first (R405), with the next clk in on-die SRAM (R253). -/
def State.arrival (s : State) (t : Xfer) (pa : Nat) : State :=
  match (s.place pa) with
  | .hbm _ =>
    let r := s.mem.arriveAt pa
    ({ s.backInvalidate (pa / 64) with mem := r.1 }).pieceDone { t with found := r.2 } 0
  | pl => s.addDelivery (pl.die.getD 0) (.arrive t.x (t.portTo pl) t.core t.ctx pa none)

/-- The arrival of XBARA and the check of XBARW (R309). -/
def State.barrierPiece (s : State) (t : Xfer) : State :=
  let s := s.settle
  match s.barrierAt t (wordAt t.args 0) with
  | .error st => s.stopped t (addrVirt (wordAt t.args 0)) st
  | .ok pa =>
    match t.op with
    | .xbara _ _ _ _ => if s.undelivered t then s else s.arrival t pa
    | _ => if (s.mem.word (pa + 8)).toNat % 32 ≠ addrGen (wordAt t.args 0) then s.pieceDone t 0 else s

/-! ### Completion -/

/-- The pieces a transfer of this chapter performs. -/
def State.goal (s : State) (t : Xfer) : Nat :=
  match t.op with
  | .xcopy _ _ _ _ | .xlin _ _ _ _ =>
    if recCmp t.recd then 1
    else
      let ms := copyMoves (copyKind t.op) t.recd t.rp
      if ms = [] ∧ copyDrops (copyKind t.op) t.recd t.rp = [] then 0
      else match s.copyEnds t with
        | .ok r => max 1 (r.2.pieceLines ms).length
        | .error _ => 1
  | .xgath _ _ _ _ | .xscat _ _ _ _ => recRows t.recd
  | .xfence _ _ _ | .xallr _ _ _ _ | .xrdsc _ _ _ _ | .xallg _ _ _ _ | .xbcst _ _ _ _ => 0
  | .xredv _ _ _ _ => 64
  | .xmvb _ _ _ _ => fld (wordAt t.recd 0) 25 7
  | .xred _ _ _ _ => if litOpt t.lit / 16 % 2 = 1 then 2 else 1
  | _ => 1

/-- Reads of the nest are still to come. -/
def Nest.unread (n : Nest) : Bool := decide (n.next < (if n.rotate then 2 else 1) * n.tab.steps)

/-- What a fence waits for (R311): the context's earlier transfers have completed, its earlier accesses have performed, and its nests
have read their operands (R249). -/
def State.fenced (s : State) (t : Xfer) : Bool :=
  (t.after.all fun x => ((s.core t.core).xfer? x).isNone)
    && !((s.die (dieOf t.core)).acc.any fun (a : Access) => a.core == t.core && a.ctx == t.ctx && decide (a.ord ≤ t.ord)
      && decide (0 < a.left))
    && !((s.core t.core).nests.any fun (n : Nest) => n.ctx == t.ctx && n.unread)

/-- A barrier wait of XBARA without NOWAIT is over: GEN has passed the value the arrival found (R309). -/
def State.passed (s : State) (t : Xfer) : Bool :=
  if litOpt t.lit % 2 = 1 then true
  else match s.barrierAt t (wordAt t.args 0) with
    | .ok pa => s.portMem.word (pa + 8) != t.found
    | .error _ => false

/-- A status entry's summary word shows DONE or CUT, or its collective is over (R417). -/
def Cst.settled (e : Cst) : Bool := !e.live || e.word.getLsbD 31 || e.word.getLsbD 30

/-- The entry an XPCAN names holds its collective no longer, or it is DONE or CUT (R418). -/
def State.cutReady (s : State) (t : Xfer) : Bool :=
  let e := (s.core t.core).cst[(⟨(wordAt t.args 0).toNat % 16, Nat.mod_lt _ (by omega)⟩ : Fin 16)]
  e.settled || decide (e.ch * 2 ^ 32 + fld e.word 32 32 ≠ t.found.toNat)

/-- A collective is complete at this member (R415). -/
def State.collDone (s : State) (t : Xfer) : Bool :=
  s.colls.any (fun (c : Coll) => c.core == t.core && decide (c.x = t.x) && c.complete)
    && !((s.core t.core).regn.any fun (r : Registration) => decide (r.x = t.x))

/-- A transfer has performed (R284). -/
def State.performed (s : State) (t : Xfer) : Bool :=
  t.phase == .started && !t.cut && !t.fixed && t.dst.isNone && (List.range (s.goal t)).all (fun n => t.pieces.contains n)
    && !s.undelivered t && !s.awaiting t
    && (match t.op with
      | .xfence _ _ _ => s.fenced t
      | .xbara _ _ _ _ => s.passed t
      | .xcopy _ _ _ _ | .xlin _ _ _ _ | .xgath _ _ _ _ | .xscat _ _ _ _ | .xmove _ _ _ _ | .xchain _ _ _ _ | .xbarw _ _ _ _
      | .xred _ _ _ _ | .xatom _ _ _ _ | .xredv _ _ _ _ => true
      -- every unit of an XMVB has applied (R360)
      | .xmvb _ _ _ _ => !((s.core t.core).regn.any fun (r : Registration) => decide (r.x = t.x))
      | .xsend _ _ _ _ | .xrecv _ _ _ _ | .xsig _ _ _ _ | .xhadd _ _ _ _ | .xhdel _ _ _ _ | .xckpt _ _ _ _ => true
      | .xpcan _ _ _ _ => s.cutReady t
      | .xallr _ _ _ _ | .xrdsc _ _ _ _ | .xallg _ _ _ _ | .xbcst _ _ _ _ => s.collDone t
      | _ => false)

/-! ### Start, resumption, re-runs -/

/-- The first consumed token whose transfer ended with an error (R286). -/
def Core.inherited (k : Core) (t : Xfer) : Option FaultRec := t.uses.findSome? k.errorOf

/-- Untaken records fill the buffer (R347). -/
def Core.bufferFull (k : Core) : Bool := decide ((k.faults.filter fun r => !r.taken).length ≥ 48)

/-- A held transfer may start (R289, R347). -/
def Core.startable (k : Core) (t : Xfer) : Bool :=
  t.phase == .held && !t.cut && t.uses.all k.ready && !k.bufferFull

/-- The on-die bytes of a transfer's record: the first, and how many words. -/
def Xfer.recordAt (t : Xfer) : Option Nat :=
  let at_ (w : BitVec 3) : Nat := (winOf t.wins w).addr t.core + 4 * (wordAt t.args 0).toNat
  match t.op with
  | .xcopy _ _ _ _ | .xlin _ _ _ _ | .xgath _ _ _ _ | .xscat _ _ _ _ | .xmvb _ _ _ _
  | .xallr _ _ _ _ | .xrdsc _ _ _ _ | .xallg _ _ _ _ | .xbcst _ _ _ _ => some (at_ (BitVec.ofNat 3 (litOpt t.lit)))
  | .xmove _ _ w _ => some (at_ w)
  | _ => none

/-- The record was read from a line with an uncorrectable error (R363): its first such byte. -/
def State.badRecord (s : State) (t : Xfer) : Option Nat :=
  if s.flaws = [] then none
  else t.recordAt.bind fun a => ((List.range (8 * t.recd.length)).map fun i => a + i).find? fun b => s.flaws.contains (b / 64)

/-- A collective that ends before it begins holds its status entry no longer (R414, R417). -/
def State.dropStatus (s : State) (t : Xfer) : State :=
  let k := s.core t.core
  { s.setCore t.core { k with cst := k.cst.map fun e =>
        if e.live ∧ e.ch = t.x.ch ∧ fld e.word 32 32 = t.x.id.toNat then { e with live := false } else e } with
    colls := s.colls.filter fun (c : Coll) => !decide (c.core = t.core ∧ c.x = t.x) }

/-- A transfer starts, or completes with the error it inherits (R286, R289). -/
def State.start (s : State) (t : Xfer) : State :=
  let k := s.core t.core
  if ¬ k.startable t then s
  else
    match k.inherited t, s.badRecord t with
    | some r, _ => (s.dropStatus t).failXfer t r.code r.faddr
    | none, some b => (s.dropStatus t).failXfer t 0x306 (sramOffset b)
    | none, none => s.updXfer { t with phase := .started }

/-- No data byte of on-die SRAM is read before issue + 31 or written before issue + 32 (R291). -/
def State.dataReady (s : State) (t : Xfer) : Bool := decide (t.since + 32 ≤ (s.die (dieOf t.core)).scc.toNat)

/-- A transfer the engine may work on. -/
def State.working (s : State) (t : Xfer) : Bool := t.phase == .started && !t.cut && !t.fixed && s.dataReady t

/-- The transfer a subject names. -/
def State.evXfer (s : State) : Option Xfer := (s.core s.ev.core).xfer? s.ev.x

/-- A transfer that begins its work anew. -/
def Xfer.anew (t : Xfer) : Xfer :=
  { t with pieces := [], buf := [], block := wordAt t.args 0, nblk := 0, dst := none, out := [], commit := [], head := [] }

/-- The rows or lanes of a transfer before its RP. -/
def Xfer.before (t : Xfer) : List Nat :=
  match t.op with
  | .xgath _ _ _ _ | .xscat _ _ _ _ | .xredv _ _ _ _ => (List.range 64).filter fun n => decide (n < t.rp)
  | _ => []

/-- A cut transfer goes on after an unpark: it re-runs from its RP, whole when that is 0 (R371, R373, R375); an atomic, a reduction or an
arrival that has performed, and a message, do not act twice. -/
def State.rerun (s : State) (t : Xfer) : Xfer :=
  let u := { t with cut := false, round := 0 }
  if t.phase = .waiting then u
  else match t.op with
  | .xcopy _ _ _ _ | .xlin _ _ _ _ | .xgath _ _ _ _ | .xscat _ _ _ _ | .xredv _ _ _ _ =>
    let u := { u with rp := s.cutRp t }
    { u.anew with pieces := u.before }
  | .xmvb _ _ _ _ | .xmove _ _ _ _ | .xchain _ _ _ _ => u.anew
  | _ => u

/-- The command block at a copy address, when the module's memory can give it now: through a window, or by a translation (R291,
R304). -/
def State.blockNow (s : State) (wins : Vector Win 8) (core asid : Nat) (a : Word) : Option (List Word) :=
  let read (pa : Nat) : Option (List Word) := if s.flaws.contains (pa / 64) then none else some (s.portMem.words pa 8)
  if addrWindow a then
    let w := winOf wins (addrWin a)
    let at_ := (windowArea wins core a 0).objAt
    if w.kind = 0 ∨ ¬ w.rd ∨ at_ % 64 ≠ 0 ∨ w.addr core + w.len < at_ + 64 then none else read at_
  else if addrVirt a % 64 ≠ 0 then none
  else match s.mapping (clusterIndex core) asid (addrVirt a) .read with
    | .error _ => none
    | .ok p =>
      let pa := s.ownAddr (p.pa + (addrVirt a - p.va))
      if s.retained (placeOf pa) true then none
      else match placeOf pa with
        | .peer _ _ | .host | .nowhere => none
        | _ => read pa

/-- The command blocks of a chain as the issue clk finds them: those from its first on, up to one that cannot be read now (R291). -/
def State.chainBlocks (s : State) (wins : Vector Win 8) (core asid : Nat) : Nat → Word → List (Word × List Word)
  | 0, _ => []
  | n + 1, a =>
    match s.blockNow wins core asid a with
    | none => []
    | some ws => (a, ws) :: (if (wordAt ws 0).getLsbD 4 then [] else s.chainBlocks wins core asid n (wordAt ws 3))

/-- The words of a record, read again at its recorded address (R349). -/
def State.reread (s : State) (t : Xfer) : List Word :=
  match t.recordAt with
  | some a => s.mem.words a t.recd.length
  | none => t.recd

/-- A faulted transfer re-runs from RP under a new identifier of its channel, which RESUME reports (R349). -/
def State.resume (s : State) (core : Nat) (r : FaultRec) : State :=
  let k := s.core core
  let ch : Fin 8 := ⟨r.xf.x.ch % 8, Nat.mod_lt _ (by omega)⟩
  let x : Xid := ⟨ch.val, (k.chans[ch]).nid⟩
  let t := { r.xf.anew with
    x := x, err := none, bytes := 0, phase := .started, pieces := r.xf.before, got := [], sent := [], round := 0, uses := []
    recd := s.reread r.xf, blocks := if (r.xf.op matches .xchain _ _ _ _) then s.chainBlocks r.xf.wins core r.xf.asid 64 (wordAt r.xf.args 0) else []
    since := (s.die (dieOf core)).scc.toNat }
  let k := k.alloc ch
  let s := s.setCore core { k with xfers := k.xfers ++ [t], resume := BitVec.ofNat 64 x.id.toNat
                                   faults := k.faults.filter fun q => !decide (q = r) }
  let s := { s with colls := s.colls.map fun (c : Coll) => if c.core = core ∧ c.x = r.xf.x then { c with x := x } else c }
  s.setCore core { s.core core with regn := (s.core core).regn.map fun (g : Registration) =>
      if g.x = r.xf.x ∧ g.ctx = r.xf.ctx then { g with x := x } else g }

/-! ### Meanings of the events -/

/-- FAULT_BUFFER_FREE (R347): once a record has left, the first transfer whose tokens are ready starts. -/
def execFaultBufferFree (s : State) : Out :=
  let k := s.core s.ev.core
  .next (match k.xfers.find? k.startable with
    | some t => s.start t
    | none => s)

/-- INDEX_ROW_MOVE (R300). -/
def execIndexRowMove (s : State) : Out :=
  .next (match s.evXfer with
    | some t =>
      if s.working t ∧ (copyKind t.op = .gather ∨ t.op matches .xscat _ _ _ _) ∧ s.ev.index < t.index.length
          ∧ ¬ t.pieces.contains s.ev.index then s.moveRow t s.ev.index s.ev.count
      else s
    | none => s)

/-- A release or completion at scope system (R405, R406): the host's copies are invalidated and the written host lines
go back to the host. -/
def State.releaseSystem (s : State) : State :=
  { s with directory := [], hostLines := [], mem := s.hostLines.foldl (fun m g => m.write (g.1 * 64) g.2) s.mem }

/-- A transfer completes; XATOM's old value, and the result of XRECV, XHADD and XHDEL, land with its token (R355). -/
def State.finish (s : State) (t : Xfer) : State :=
  let s := if litScope t.lit = 6 then s.releaseSystem else s
  s.completeXfer t

/-- A scalar result that lands at the end of the clk in hand, below every slot, in the register that s(a + 3) named at issue (R79,
R355). -/
def State.lateS (s : State) (t : Xfer) (w : Word) : State :=
  let x : Fin 4 := ⟨t.ctx % 4, Nat.mod_lt _ (by omega)⟩
  let c := s.ctx t.core x
  -- slot 0 with order 0 ranks below every issue of the slots
  s.setCtx t.core x { c with land := ⟨1, 0, 0, .s t.late, w, [], 0, 0⟩ :: c.land }

/-- TRANSFER_RESUME (R349): the record the subject numbers re-runs. An S3 sequence accepts no new transfer (R375). -/
def execTransferResume (s : State) : Out :=
  .next (match (if s.power.s3 = .none then (s.core s.ev.core).faults[s.ev.index]? else none) with
    | some r => s.resume s.ev.core r
    | none => s)

/-- BARRIER_ARRIVAL (R307): an arrival at the physical address of the subject, in HBM or a vault; a parked die does not take it now
(R374). -/
def execBarrierArrival (s : State) : Out :=
  .next (if s.retained (s.place s.ev.addr) false then s
    else match s.place s.ev.addr with
    | .hbm _ =>
      let s := s.settle.backInvalidate (s.ownAddr s.ev.addr / 64)
      { s with mem := (s.mem.arriveAt (s.ownAddr s.ev.addr)).1 }
    | pl =>
      if pl.onDie then s.addDelivery (pl.die.getD 0) (.arrive ⟨0, 0⟩ pl.unitPort moduleCores 0 (s.ownAddr s.ev.addr) none)
      else s)

end Sys2Proof.Machine
end

