-- ==== Sys2Proof/Machine/Hutch.lean ====
section
/-! DEFINITION. The hutch (R304 to R306), the issue of XMOVE and XCHAIN, and barrier arrivals by XBARA and XBARW (R309). -/

namespace Sys2Proof.Machine

/-! ### Command blocks (R304) -/

structure Block where
  words : List Word
  /-- The operation: OPN, or the port of XMOVE. -/
  op    : Nat
  alone : Bool
deriving DecidableEq, Repr

def Block.n (b : Block) : Nat := fld (wordAt b.words 0) 32 32
def Block.fm (b : Block) : Nat := fld (wordAt b.words 0) 10 2
def Block.rm (b : Block) : Nat := fld (wordAt b.words 0) 7 3
def Block.out (b : Block) : Bool := (wordAt b.words 0).getLsbD 6
def Block.inp (b : Block) : Bool := (wordAt b.words 0).getLsbD 5
def Block.last (b : Block) : Bool := b.alone || (wordAt b.words 0).getLsbD 4
def Block.src (b : Block) : Word := wordAt b.words 1
def Block.dst (b : Block) : Word := wordAt b.words 2
def Block.next (b : Block) : Word := wordAt b.words 3
def Block.cols (b : Block) : Nat := fld (wordAt b.words 4) 32 16
def Block.pitch (b : Block) : Nat := fld (wordAt b.words 4) 16 16
def Block.epw (b : Block) : Nat := fld (wordAt b.words 4) 12 2
def Block.dgeo (b : Block) : Nat := fld (wordAt b.words 4) 10 2
def Block.sgeo (b : Block) : Nat := fld (wordAt b.words 4) 8 2
def Block.dfmt (b : Block) : Nat := fld (wordAt b.words 4) 4 4
def Block.sfmt (b : Block) : Nat := fld (wordAt b.words 4) 0 4
def Block.p (b : Block) : Nat := fld (wordAt b.words 5) 10 6
def Block.t (b : Block) : Int := fldS (wordAt b.words 5) 0 10

/-- No reserved field of the block is set (R304, R306). -/
def Block.fieldsOk (b : Block) : Bool :=
  fld (wordAt b.words 0) 12 20 == 0 && decide (b.fm ≤ 2 ∧ b.rm ≤ 3) && fld (wordAt b.words 4) 48 16 == 0
    && fld (wordAt b.words 4) 14 2 == 0 && fld (wordAt b.words 5) 16 48 == 0 && wordAt b.words 6 == 0
    && (b.inp || addrOk b.src false) && (b.out || addrOk b.dst false) && (b.last || addrOk b.next false)

/-- An end in the hutch buffer takes the geometry the block names, which a block-scaled format must have (R42, R304). -/
def Block.bufferOk (b : Block) : Bool :=
  let geo (g : Nat) : Bool := g == 0 || (g == 1 && b.pitch != 0 && b.pitch % 4 == 0) || (g == 2 && b.pitch != 0 && b.pitch % 2 == 0)
  (!b.inp || !blockFmt b.sfmt || geo b.sgeo) && (!b.out || !blockFmt b.dfmt || geo b.dgeo)

/-- The formats and counts an operation accepts (R305). -/
def Block.accepts (b : Block) : Bool :=
  let plain (f : Nat) : Bool := decide (f ≤ 5 ∨ (10 ≤ f ∧ f ≤ 12))
  match b.op with
  | 1 => plain b.sfmt && b.dfmt == 0 && !b.out
  | 2 => b.sfmt == 0 && decide (b.dfmt ≤ 12) && !b.inp
  | 3 => decide (1 ≤ b.sfmt ∧ b.sfmt ≤ 12 ∧ 1 ≤ b.dfmt ∧ b.dfmt ≤ 12)
  | 4 => blockFmt b.sfmt && blockFmt b.dfmt && decide (b.sgeo ≤ 2 ∧ b.dgeo ≤ 2)
  | 5 => plain b.sfmt && b.sfmt == b.dfmt && b.cols != 0 && b.n % b.cols == 0
  | 6 => b.sfmt == 1 && b.dfmt == 13 && b.n % 64 == 0 && decide (1 ≤ b.p ∧ b.p ≤ 48)
  | 7 => b.sfmt == 13 && b.dfmt == 1 && b.n % 64 == 0
  | _ => false

/-- The block passes the checks of R306; `first` when no block of the chain precedes it. -/
def Block.ok (b : Block) (first : Bool) : Bool :=
  b.fieldsOk && b.accepts && b.bufferOk && !(b.inp && first) && !(b.out && b.last)

/-- The address of the block at work, in its own space, as FADDR reports it. -/
def State.blockFaddr (t : Xfer) : Nat :=
  match t.op with
  | .xmove _ _ _ _ => 4 * (wordAt t.args 0).toNat % 2 ^ 55
  | _ => if addrWindow t.block then
      ((windowArea t.wins t.core t.block 0).objAt - (windowArea t.wins t.core t.block 0).base) else addrVirt t.block

/-- The words of a chain's block. -/
def chainBlock (w : List Word) : Block := ⟨w, fld (wordAt w 0) 0 4, false⟩

/-- The block at work (R304, R309): one of a chain as it was read at issue (R291), else read where its address leads. -/
def State.blockOf (s : State) (t : Xfer) : Except Stop Block :=
  match t.op with
  | .xmove _ op _ _ => .ok ⟨t.recd, op.toNat, true⟩
  | _ =>
    match t.blocks.find? fun b => b.1 == t.block with
    | some b => .ok (chainBlock b.2)
    | none => do
      let d := if addrWindow t.block then windowArea t.wins t.core t.block 0
        else ⟨true, addrVirt t.block, 0, 32, 16, 3, 0, 0, 2 ^ 55⟩
      if d.objAt % 64 ≠ 0 then throw (.fault 0x18A (State.blockFaddr t))
      if ¬ d.virt then
        let w := winOf t.wins (addrWin t.block)
        if w.kind = 0 ∨ ¬ w.rd then throw (.fault 0x081 (State.blockFaddr t))
        if d.limit < d.objAt + 64 then throw (.fault 0x084 (faddrOf (max (State.blockFaddr t) w.len : Nat)))
      return chainBlock (wordsOf 8 (← s.readBytes t d.virt none .read d.objAt 64))

/-! ### Operands and results -/

/-- The area of a block's end in the hutch buffer: elements from byte 0, scale bytes after them. -/
def bufArea (f geo pitch n : Nat) : Area :=
  { virt := false, base := 0, off := 0, bits := elemBits f, fmt := f, geo := geo, pitch := pitch
    shadow := (n * elemBits f + 7) / 8, len := (n * elemBits f + 7) / 8 }

/-- A memory end of a block: the window or page has the block's format (R304) and gives its geometry (R293, R344); a window
grants the access and holds the elements. -/
def State.hutchArea (s : State) (t : Xfer) (a : Word) (f n : Nat) (r : Right) : Except Stop Area := do
  let bad : Stop := .fault 0x18A (State.blockFaddr t)
  if addrWindow a then
    let w := winOf t.wins (addrWin a)
    if w.kind = 0 ∨ (if r = .write then ¬ w.wr else ¬ w.rd) then throw (.fault 0x081 0)
    if w.fmt ≠ f then throw bad
    let d := windowArea t.wins t.core a 0
    if f = 13 then
      if (addrElem a + n / 64) * tileBytes > w.len then throw (.fault 0x084 (faddrOf (max (tileBytes * addrElem a) w.len)))
      return d
    if n ≠ 0 ∧ byteHi d.bits (d.off + n - 1) > d.len then throw (.fault 0x084 (faddrOf (max (byteLo d.bits d.off) d.len)))
    return d
  else if f = 13 then
    match s.mapping (clusterIndex t.core) t.asid (addrVirt a) r with
    | .error c => throw (mapStop c (addrVirt a))
    | .ok p =>
      if p.fmt ≠ 13 then throw bad
      return ⟨true, addrVirt a, 0, 8, 13, 3, 0, 0, 2 ^ 55⟩
  else
    let d ← s.pageArea t.core t.asid (addrVirt a) 0 r
    if d.fmt ≠ f then throw bad
    return d

/-- Bits [lo + n − 1 : lo] of a byte list. -/
def bufBits (bs : List Byte) (lo n : Nat) : Nat :=
  (leNat ((bs.drop (lo / 8)).take ((lo % 8 + n + 7) / 8)) >>> (lo % 8)) % 2 ^ n

/-- The operand of a block: the bits and scale of each element. -/
def State.hutchIn (s : State) (t : Xfer) (b : Block) : Except Stop (List (Nat × Nat)) := do
  if b.inp then
    let d := bufArea b.sfmt b.sgeo b.pitch b.n
    return (List.range b.n).map fun i =>
      (bufBits t.buf (i * d.bits) d.bits, if blockFmt b.sfmt then (t.buf.getD (d.shadow + d.scaleIndex i) 0).toNat else 0)
  else
    let d ← s.hutchArea t b.src b.sfmt b.n .read
    (List.range b.n).mapM fun (i : Nat) => do
      let x ← s.readElem t d .read (i : Int)
      if blockFmt b.sfmt then
        let at_ := d.scaleAt (d.blockOf (i : Int))
        return (x, (← s.byteAt t at_ (← s.phys t d.virt .read d.scaleNeed at_)).toNat)
      else return (x, 0)

/-- Bytes of cells over zeros, for the buffer. -/
def bufOf (cs : List Cell) : List Byte :=
  let n := cs.foldl (fun m c => Nat.max m (c.addr + 1)) 0
  cs.foldl (fun bs c => bs.set c.addr (mergeByte (bs.getD c.addr 0) c.mask c.val)) (List.replicate n 0)

/-- Values of `n` elements written to the buffer (R305): at most 4 KiB. -/
def hutchBuffer (t : Xfer) (b : Block) (vs : List (Int × Val)) : Except Stop Output := do
  let d := bufArea b.dfmt b.dgeo b.pitch vs.length
  let cs := if blockFmt b.dfmt then
      (d.blocks (vs.map Prod.fst)).flatMap fun blk =>
        let xs := (d.members blk).map fun o => match o with
          | some i => (match vs.find? fun v => v.1 == i with
            | some v => v.2.value b.fm b.dfmt
            | none => Fp.fin false 0 0)
          | none => Fp.fin false 0 0
        let r := encodeBlk b.dfmt b.rm b.fm xs
        ((d.members blk).zip r.2.1).flatMap (fun p => match p.1 with
          | some i => d.cells none i (blockBits b.dfmt) (encInt p.2 (blockBits b.dfmt))
          | none => []) ++ [⟨none, true, d.scaleAt blk, 255, r.1⟩]
    else vs.flatMap fun v => d.cells none v.1 d.bits (encodeVal b.dfmt b.rm b.fm v.2)
  let bs := bufOf cs
  if bs.length > 4096 then throw (.fault 0x18A (State.blockFaddr t))
  return .buffer bs

/-- Values written to the block's result (R305). -/
def State.hutchOut (s : State) (t : Xfer) (b : Block) (vs : List (Int × Val)) : Except Stop Output := do
  if b.out then hutchBuffer t b vs
  else
    let d ← s.hutchArea t b.dst b.dfmt vs.length .write
    return .cells d (← s.valCells t d b.rm b.fm vs) []

/-- The bytes of a tile of 64 elements (R58, R305, R409): the counter word DONE with C = P, zeros, then P planes. -/
def encodeTile (P : Nat) (T : Int) (xs : List Fp) : List Byte :=
  let qs := xs.map fun x => digitsInt x T P
  let sat := qs.any fun q => q.2 &&& (flSAT ||| flNV) != 0
  let word := 2 ^ 31 + (if sat then 2 ^ 28 else 0) + P * 2 ^ 22 + encInt T 10 * 2 ^ 12 + P
  leBytes 4 word ++ List.replicate 60 0 ++
    (List.range P).flatMap fun j =>
      leBytes 16 ((qs.zipIdx.map fun q => encInt (digitOf q.1.1 P j) 2 * 2 ^ (2 * q.2)).sum)

/-- A tile of bytes as 64 FP32 values over its full planes (R58, R305). -/
def decodeTile (bs : List Byte) : List Nat :=
  let w : W32 := BitVec.ofNat 32 (leNat (bs.take 4))
  (List.range 64).map fun k =>
    (realFromDigits ((List.range (counterP w)).map fun j =>
      match bufBits bs (8 * (64 + 16 * j) + 2 * k) 2 with
      | 1 => 1
      | 3 => -1
      | _ => 0) (counterT w)).1

/-- The own address of tile n of an end. -/
def Area.tileAt (d : Area) (n : Nat) : Nat := if d.virt then d.base + tileBytes * n else d.base + tileBytes * (d.off.toNat + n)

/-- PACK (R302): it reads the destination's header, and then gives the new side and the header that commits it. -/
def State.packRun (s : State) (t : Xfer) (b : Block) : Except Stop Output := do
  let d ← s.objArea t b.dst .write
  if addrWindow b.dst ∧ ((winOf t.wins (addrWin b.dst)).kind = 0 ∨ ¬ (winOf t.wins (addrWin b.dst)).wr) then throw (.fault 0x081 0)
  if d.fmt ≠ 0 then throw (.fault 0x18A (State.blockFaddr t))
  if t.head = [] then return .head (← s.readBytes t d.virt d.need .write d.objAt 64)
  let h := objHead (wordsOf 8 t.head)
  let es := (← s.hutchIn t b).map Prod.fst
  let w := elemBits b.sfmt / 8
  let nz := es.filter fun e => e != 0
  let mlen := 64 * ((b.n + 511) / 512)
  let vlen := 64 * ((nz.length * w + 63) / 64)
  if mlen + vlen > h.rsv then throw (.fault 0x184 d.objFaddr)
  if d.objAt + 64 + 2 * h.rsv > d.limit then throw (.fault 0x084 (faddrOf (d.limit - d.base : Nat)))
  let mask := (List.range mlen).map fun i => BitVec.ofNat 8 ((List.range 8).map fun j => if es.getD (8 * i + j) 0 = 0 then 0 else 2 ^ j).sum
  let vals := nz.flatMap fun e => leBytes w e
  let body := mask ++ vals ++ List.replicate (vlen - vals.length) 0
  let head := bytesOf ([BitVec.ofNat 64 (nz.length * 2 ^ 32 + b.n), BitVec.ofNat 64 (h.rsv * 2 ^ 32 + vlen),
    BitVec.ofNat 64 (2 ^ 7 + (1 - h.side) * 2 ^ 6 + b.epw * 2 ^ 4 + b.sfmt), h.gen + 1, 0, 0, 0, 0])
  return .cells d (byteCells (d.objAt + 64 + (1 - h.side) * h.rsv) body) (byteCells d.objAt head)

/-- What the block at work does (R305). -/
def State.blockRun (s : State) (t : Xfer) (b : Block) : Except Stop Output := do
  match b.op with
  | 1 => s.packRun t b
  | 2 =>
    let d ← s.objArea t b.src .read
    if addrWindow b.src ∧ ((winOf t.wins (addrWin b.src)).kind = 0 ∨ ¬ (winOf t.wins (addrWin b.src)).rd) then throw (.fault 0x081 0)
    if d.fmt ≠ 0 then throw (.fault 0x18A (State.blockFaddr t))
    if t.head = [] then return .head (← s.readBytes t d.virt d.need .read d.objAt 64)
    let h := objHead (wordsOf 8 t.head)
    if h.bad then throw (.fault 0x18A (State.blockFaddr t))
    if ¬ h.v then s.hutchOut t b []
    else
      if h.nelem > b.n then throw (.fault 0x184 d.objFaddr)
      s.hutchOut t b (denseVals b.fm h.fmt b.dfmt (denseElems h (← s.readSide t d h)))
  | 3 | 4 =>
    let es ← s.hutchIn t b
    s.hutchOut t b (es.zipIdx.map fun p =>
      ((p.2 : Int), if b.sfmt = b.dfmt ∧ ¬ blockFmt b.sfmt then Val.bits p.1.1 else .real b.sfmt p.1.1 (fmtValue b.fm b.sfmt p.1.1 p.1.2)))
  | 5 =>
    let es ← s.hutchIn t b
    let rows := b.n / b.cols
    s.hutchOut t b (es.zipIdx.map fun p => (((p.2 % b.cols * rows + p.2 / b.cols : Nat) : Int), Val.bits p.1.1))
  | 6 =>
    let es ← s.hutchIn t b
    let tile (n : Nat) : List Byte := encodeTile b.p b.t (((es.drop (64 * n)).take 64).map fun e => fpDecode fmtF32 (flushIn fmtF32 b.fm e.1))
    if b.out then
      let bs := (List.range (b.n / 64)).flatMap fun n => tile n ++ List.replicate (tileBytes - (tile n).length) 0
      if bs.length > 4096 then throw (.fault 0x18A (State.blockFaddr t))
      return .buffer bs
    else
      let d ← s.hutchArea t b.dst 13 b.n .write
      return .cells { d with fmt := 13 } ((List.range (b.n / 64)).flatMap fun n => byteCells (d.tileAt n) (tile n)) []
  | _ =>
    let tiles ← (List.range (b.n / 64)).mapM fun n => do
      if b.inp then return (t.buf.drop (tileBytes * n)).take tileBytes
      else
        let d ← s.hutchArea t b.src 13 b.n .read
        s.readBytes t d.virt (if d.virt then some (13, 3) else none) .read (d.tileAt n) tileBytes
    s.hutchOut t b ((tiles.flatMap decodeTile).zipIdx.map fun p =>
      ((p.2 : Int), if b.dfmt = 1 then Val.bits p.1 else .real 1 p.1 (fmtValue b.fm 1 p.1 0)))

/-- The chain goes on to its next block, or its last block's result has been written (R306). -/
def Xfer.nextBlock (t : Xfer) (b : Block) : Xfer :=
  if b.last then { t with pieces := [0] } else { t with block := b.next, nblk := t.nblk + 1 }

/-- A block that takes its elements from the hutch buffer, or leaves its result there, meets the buffer's parity error (R306). -/
def State.badBuffer (s : State) (t : Xfer) (b : Block) : Bool :=
  (b.inp || b.out) && (Table.get {} s.clusters (clusterIndex t.core)).bufBad

/-- The block at work runs, under the event of operation `op`, once the result of the block before it has performed; a block that no
operation serves ends the chain under any (R306). -/
def State.hutch (s : State) (t : Xfer) (op : Nat) : State :=
  let s := s.settle
  if t.pieces.contains 0 ∨ t.dst.isSome ∨ s.undelivered t ∨ s.awaiting t then s
  else
    match s.blockOf t with
    | .error st => s.stopped t (State.blockFaddr t) st
    | .ok b =>
      if b.op ≠ op ∧ (1 ≤ b.op ∧ b.op ≤ 7) then s
      else if t.nblk ≥ 64 ∨ ¬ b.ok (t.nblk = 0) ∨ s.badBuffer t b then s.failAt t 0x18A (State.blockFaddr t)
      else s.take t (State.blockFaddr t) (fun t => t.nextBlock b) (s.blockRun t b)

/-- A hutch event on the transfer its subject names. -/
def State.hutchEvent (s : State) (op : Nat) : State :=
  match s.evXfer with
  | some t =>
    (match t.op with
     | .xmove _ _ _ _ | .xchain _ _ _ _ => if s.working t then s.hutch t op else s
     | _ => s)
  | none => s

/-- HUTCH_PACK (R302). -/
def execHutchPack (s : State) : Out := .next (s.hutchEvent 1)
/-- HUTCH_UNPACK (R305). -/
def execHutchUnpack (s : State) : Out := .next (s.hutchEvent 2)
/-- HUTCH_CONVERT (R305). -/
def execHutchConvert (s : State) : Out := .next (s.hutchEvent 3)
/-- HUTCH_REBLOCK (R305). -/
def execHutchReblock (s : State) : Out := .next (s.hutchEvent 4)
/-- HUTCH_TRANSPOSE (R305). -/
def execHutchTranspose (s : State) : Out := .next (s.hutchEvent 5)
/-- HUTCH_DPENC (R305). -/
def execHutchDpenc (s : State) : Out := .next (s.hutchEvent 6)
/-- HUTCH_DPDEC (R305). -/
def execHutchDpdec (s : State) : Out := .next (s.hutchEvent 7)

/-! ### Issue -/

/-- The window check of one end of a block at its issue (R29): its kind and right, and the range of `n` elements of format `f`, or of an
object's header. A window of another format is the hutch's to report (R306). -/
def blockEndFault (wins : Vector Win 8) (core : Nat) (a : Word) (f n : Nat) (wr object : Bool) : Option Trap :=
  let w := winOf wins (addrWin a)
  let d := windowArea wins core a 0
  if ¬ addrWindow a then none
  else if w.kind = 0 ∨ (if wr then ¬ w.wr else ¬ w.rd) then xTrap 0x081 0
  else if w.fmt ≠ f then none
  else if object then (if d.limit < d.objAt + 64 then xTrap 0x084 (faddrOf (max (d.objAt - d.base) w.len : Nat)) else none)
  else if f = 13 then
    (if (addrElem a + n / 64) * tileBytes > w.len then xTrap 0x084 (faddrOf (max (tileBytes * addrElem a) w.len : Nat)) else none)
  else if n ≠ 0 ∧ byteHi d.bits (d.off + n - 1) > d.len then xTrap 0x084 (faddrOf (max (byteLo d.bits d.off) d.len))
  else none

/-- The window checks of a block's ends. The elements an UNPACK writes are known when it runs. -/
def Block.endsFault (wins : Vector Win 8) (core : Nat) (b : Block) : Option Trap :=
  (if b.inp then none else if b.op = 2 then blockEndFault wins core b.src 0 0 false true
    else blockEndFault wins core b.src b.sfmt b.n false false).or
  (if b.out then none else if b.op = 1 then blockEndFault wins core b.dst 0 0 true true
    else blockEndFault wins core b.dst b.dfmt (if b.op = 2 then 0 else b.n) true false)

/-- The checks of XMOVE (R309): check 1 of R298 on its block, word 7, and the windows of its ends (R29). -/
def xmoveFault (op : BitVec 4) (w : BitVec 3) (a : BitVec 5) (s : State) : Option Trap :=
  let win := winOf s.me.sys.wins w
  let offs := s.basesX a
  (offs.findSome? (recordFault win 16 8)).or
  ((offs.findSome? fun o =>
      let w7 := wordAt (s.readRecord win o 8) 7
      if fld w7 38 26 ≠ 0 ∨ ¬ tokenLitOk (w7.truncate 32) 0 then xTrap 0x004 0 else none).or
  ((offs.findSome? fun o =>
      let b : Block := ⟨s.readRecord win o 8, op.toNat, true⟩
      if b.ok true then b.endsFault s.me.sys.wins s.fr.core else none).or
  (limitFault s)))

/-- XMOVE reads its block, allocates on the block's channel and writes its token (R309). -/
def actXmove (tg : Tag) (op : BitVec 4) (w : BitVec 3) (a : BitVec 5) (s : State) : State :=
  (s.enter 14).gate (s.cond tg) fun s =>
    let r := s.readRecord (winOf s.me.sys.wins w) (s.baseS a).toNat 8
    let lit : W32 := (wordAt r 7).truncate 32
    let t := s.mkXfer (.xmove tg op w a) (litCh lit) lit [s.baseS a, s.nowS (a + 1), s.nowS (a + 2)] r
    (s.addXfer t (litCh lit)).putK 7 1 (BitVec.ofNat 6 (fld (wordAt r 7) 32 6)) (tokenOf t.x)

/-- The captured operands of a form XT syllable: s(a), s(a + 1), s(a + 2), s(a + 3). -/
def State.argsX (s : State) (a : BitVec 5) : List Word := [s.baseS a, s.nowS (a + 1), s.nowS (a + 2), s.nowS (a + 3)]

/-- The issue of a form XT transfer without a record (R283, R308). -/
def xtOp (i : Instr) (tg : Tag) (kd : BitVec 6) (a : BitVec 5) (l : BitVec 4) (s : State) : State :=
  (s.enter 14).gate (s.cond tg) fun s =>
    let lit := s.tokenLit l
    let t := { s.mkXfer i (litCh lit) lit (s.argsX a) [] with
      block := s.baseS a, late := physReg s.me.sys.rot (a + 3)
      blocks := if (i matches .xchain _ _ _ _) then s.chainBlocks s.me.sys.wins s.fr.core s.me.bind.asid.toNat 64 (s.baseS a) else [] }
    (s.addXfer t (litCh lit)).putK 7 1 kd (tokenOf t.x)

/-- The window checks of a chain from an address on (R29): each block that can be read in the issue clk (R291), and its ends. A
misaligned block and one that does not pass are the hutch's to report (R306). -/
def State.chainFault (s : State) (core : Nat) : Nat → Bool → Word → Option Trap
  | 0, _, _ => none
  | n + 1, first, a =>
    let wins := s.me.sys.wins
    let w := winOf wins (addrWin a)
    let d := windowArea wins core a 0
    let off := d.objAt - d.base
    if addrWindow a ∧ (w.kind = 0 ∨ ¬ w.rd) then xTrap 0x081 (faddrOf (off : Nat))
    else if addrWindow a ∧ d.limit < d.objAt + 64 then xTrap 0x084 (faddrOf (max off w.len : Nat))
    else match s.blockNow wins core s.me.bind.asid.toNat a with
    | none => none
    | some ws =>
      let b := chainBlock ws
      if ¬ b.ok first then none
      else (b.endsFault wins core).or (if b.last then none else s.chainFault core n false b.next)

/-- The checks of XCHAIN: the rsv bits of its copy address, the windows of its blocks, then the limits. -/
def xchainFault (a : BitVec 5) (s : State) : Option Trap :=
  ((s.basesX a).findSome? fun o => if addrOk (BitVec.ofNat 64 o) false then none else xTrap 0x08B 0).or
    (((s.basesX a).findSome? fun o => s.chainFault s.fr.core 64 true (BitVec.ofNat 64 o)).or (limitFault s))

/-- The checks of XBARA and XBARW (R309): a window end has RD, WR and FMT 0; the address is 64-byte aligned. -/
def barrierFault (gen : Bool) (a : BitVec 5) (s : State) : Option Trap :=
  let overs (f : Word → Option Trap) : Option Trap := (s.basesX a).findSome? fun o => f (BitVec.ofNat 64 o)
  (overs fun x => if addrOk x gen then none else xTrap 0x08B 0).or
  ((overs fun x =>
      let w := winOf s.me.sys.wins (addrWin x)
      if ¬ addrWindow x then none
      else if w.kind = 0 ∨ ¬ w.rd ∨ ¬ w.wr then xTrap 0x081 0
      else if w.fmt ≠ 0 then xTrap 0x082 0
      else none).or
  ((overs fun x => if (if addrWindow x then 4 * addrElem x else addrVirt x) % 64 ≠ 0 then xTrap 0x083 0 else none).or
  ((overs fun x =>
      let w := winOf s.me.sys.wins (addrWin x)
      if addrWindow x ∧ 4 * addrElem x + 64 > w.len then xTrap 0x084 (faddrOf (max (4 * addrElem x : Nat) w.len)) else none).or
  (limitFault s))))

/-- XMOVE (R309), issued alone. -/
def execXmove (tg : Tag) (op : BitVec 4) (w : BitVec 3) (a : BitVec 5) (s : State) : Out :=
  .next (s.issueSyl (.xmove tg op w a) 7 (fieldsOnly (.xmove tg op w a)) (xmoveFault op w a) (actXmove tg op w a))

/-- XCHAIN captures its address. -/
def actXchain (tg : Tag) (kd : BitVec 6) (a : BitVec 5) (l : BitVec 4) : State → State := xtOp (.xchain tg kd a l) tg kd a l
/-- XCHAIN (R306), issued alone. -/
def execXchain (tg : Tag) (kd : BitVec 6) (a : BitVec 5) (l : BitVec 4) (s : State) : Out :=
  .next (s.issueSyl (.xchain tg kd a l) 7 (litOk (.xchain tg kd a l) l 0) (xchainFault a) (actXchain tg kd a l))

/-- XBARA captures its address. -/
def actXbara (tg : Tag) (kd : BitVec 6) (a : BitVec 5) (l : BitVec 4) : State → State := xtOp (.xbara tg kd a l) tg kd a l
/-- XBARA (R309), issued alone. -/
def execXbara (tg : Tag) (kd : BitVec 6) (a : BitVec 5) (l : BitVec 4) (s : State) : Out :=
  .next (s.issueSyl (.xbara tg kd a l) 7 (litOk (.xbara tg kd a l) l 1) (barrierFault false a) (actXbara tg kd a l))

/-- XBARW captures its address. -/
def actXbarw (tg : Tag) (kd : BitVec 6) (a : BitVec 5) (l : BitVec 4) : State → State := xtOp (.xbarw tg kd a l) tg kd a l
/-- XBARW (R309), issued alone. -/
def execXbarw (tg : Tag) (kd : BitVec 6) (a : BitVec 5) (l : BitVec 4) (s : State) : Out :=
  .next (s.issueSyl (.xbarw tg kd a l) 7 (litOk (.xbarw tg kd a l) l 0) (barrierFault true a) (actXbarw tg kd a l))

end Sys2Proof.Machine
end

