-- ==== Sys2Proof/Machine/Atomics.lean ====
section
/-! DEFINITION. Reductions and atomics at memory (R351 to R358) and the base die's matrix-vector product (R359 to R361). -/

namespace Sys2Proof.Machine

/-! ### Issue -/

/-- OP of XRED and XATOM, and BAR of XRED (R355). -/
def litOp (lit : W32) : Nat := litOpt lit % 16
def litBar (lit : W32) : Bool := decide (litOpt lit / 16 % 2 = 1)

/-- The OPT bits of XRED name an operation it has (R354, R355). -/
def xredOptOk (lit : W32) : Bool := decide (litOpt lit < 32) && decide (litOp lit ≤ 9)
/-- The OPT bits of XATOM name an operation it has (R354, R355). -/
def xatomOptOk (lit : W32) : Bool := decide (litOpt lit < 14)
/-- OPT of XREDV names an operation (R357). -/
def xredvOptOk (lit : W32) : Bool := decide (litOpt lit / 32 ≠ 7)

/-- The address-range check of a virtual operand of `n` bytes (R358 check 3). -/
def virtFault (a : Word) (n : Nat) : Option Trap :=
  if addrWindow a ∨ ¬ addrOk a false ∨ addrVirt a + n > 2 ^ 55 then xTrap 0x08B 0 else none

/-- The checks of XRED and XATOM over every issue (R358). -/
def redFault (bar : Bool) (a : BitVec 5) (l : BitVec 4) (s : State) : Option Trap :=
  let lit := s.tokenLit l
  let n := redBytes (litOp lit)
  let bs := (s.basesX a).map (BitVec.ofNat 64)
  let q := s.nowS (a + 2)
  let barred := bar && litBar lit
  (bs.findSome? fun b => virtFault b n).or
  ((if barred then virtFault q 64 else none).or
  ((if bs.any (fun b => decide (addrVirt b % n ≠ 0)) || (barred && decide (addrVirt q % 64 ≠ 0)) then xTrap 0x083 0 else none).or
  (limitFault s)))

/-- Lane k's address of an XREDV (R357). -/
def laneAddr (base stride : Word) (k : Nat) : Int := (base.toNat : Int) + (k : Int) * stride.toInt

/-- The checks of XREDV over every issue (R357, R358). -/
def xredvFault (a : BitVec 5) (s : State) : Option Trap :=
  let bs := (s.basesX a).map (BitVec.ofNat 64)
  let st := s.nowS (a + 1)
  (bs.findSome? fun b =>
      if addrWindow b ∨ (List.range 64).any (fun (k : Nat) => decide (laneAddr b st k < 0 ∨ 2 ^ 55 < laneAddr b st k + 4)) then
        xTrap 0x08B 0
      else none).or
  ((if bs.any (fun b => decide (b.toNat % 4 ≠ 0)) || decide (st.toInt % 4 ≠ 0) then xTrap 0x083 0 else none).or (limitFault s))

/-- The issue of XREDV: the lanes of v(vs) are read with it. -/
def xredvOp (i : Instr) (tg : Tag) (kd : BitVec 6) (a : BitVec 5) (l : BitVec 4) (s : State) : State :=
  (s.enter 14).gate (s.cond tg) fun s =>
    let lit := s.tokenLit l
    let t := { s.mkXfer i (litCh lit) lit (s.argsX a) [] with vec := s.nowV (BitVec.ofNat 5 (litOpt lit)) }
    (s.addXfer t (litCh lit)).putK 7 1 kd (tokenOf t.x)

/-- The OP of R354 that an operation of XREDV applies (R357). -/
def redLaneOp (o : Nat) : Nat :=
  match o with
  | 0 => 0
  | 1 => 2
  | 2 => 3
  | 3 => 4
  | 4 => 5
  | 5 => 6
  | _ => 14

/-! ### The home port -/

/-- The physical address of a reduction's target: HBM of this module or of a peer, in a page of FMT 0, 1 or 12 and GEO 3
(R351, R342). -/
def State.redPlace (s : State) (t : Xfer) (va : Nat) : Except Stop Nat := do
  let p ← (match s.mapping (clusterIndex t.core) t.asid va .both with
    | .error c => Except.error (mapStop c va)
    | .ok p => .ok p)
  if ¬ (p.fmt = 0 ∨ p.fmt = 1 ∨ p.fmt = 12) ∨ p.geo ≠ 3 then throw (.fault 0x08A va)
  let pa ← s.phys t true .both none va
  match s.place pa with
  | .hbm _ => return pa
  | .peer _ off =>
    match placeOf off with
    | .hbm _ => return pa
    | _ => throw (.fault 0x08A va)
  | _ => throw (.fault 0x08A va)

/-- The barrier of an XRED: in HBM or a vault, of this module or of a peer (R356). -/
def State.redBarrier (s : State) (t : Xfer) : Except Stop Nat := do
  let va := addrVirt (wordAt t.args 2)
  let pa ← s.phys t true .both none va
  match s.place pa with
  | .hbm _ => return pa
  | .vault _ _ => return pa
  | .peer _ off =>
    match placeOf off with
    | .hbm _ => return pa
    | .vault _ _ => return pa
    | _ => throw (.fault 0x08A va)
  | _ => throw (.fault 0x08A va)

/-- The new word of an atomic or of a lone reduction (R354). -/
def redValue (op old : Nat) (v c : Nat) : Nat :=
  let m := 2 ^ (8 * redBytes op)
  match op with
  | 12 => if old = c % m then v % m else old
  | 13 => if old = c % m then v % m else old
  | op => redNew op old [v % m]

/-- An atomic at its home port takes an entry behind every other of its line and applies (R352, R353): the old word. -/
def State.atomicAt (s : State) (op pa v c : Nat) : State × Nat :=
  let s := s.drainLine (pa / 64)
  let old := s.mem.nat pa (redBytes op)
  ({ s with mem := s.mem.write pa (leBytes (redBytes op) (redValue op old v c)) }, old)

/-- A reduction at its home port (R353). -/
def State.reduceAt (s : State) (op pa v : Nat) : State := s.accept op pa (v % 2 ^ (8 * redBytes op))

/-- The request of a reduction or atomic to a peer (R399). -/
def State.redSend (s : State) (t : Xfer) (op pa piece va : Nat) (v c : Word) (bar : Option Nat) : Option State :=
  match placeOf pa with
  | .peer n off =>
    s.request { dmod := n, smod := 0, type := 3, asid := t.asid, pseq := 0, core := t.core, x := t.x
                ops := [BitVec.ofNat 64 off, BitVec.ofNat 64 (op + (if bar.isSome then 16 else 0)
                          + (if (t.op matches .xatom _ _ _ _) then 32 else 0)), v, c,
                        BitVec.ofNat 64 (bar.getD 0)], data := [] }
      piece va
  | _ => none

/-- The request of an arrival alone at a peer's barrier, when another module holds the target (R356; log 39): bit 7 of OP's word. -/
def State.arriveSend (s : State) (t : Xfer) (pa va : Nat) : Option State :=
  match placeOf pa with
  | .peer n off =>
    s.request { dmod := n, smod := 0, type := 3, asid := t.asid, pseq := 0, core := t.core, x := t.x
                ops := [BitVec.ofNat 64 off, 0x90#64, 0, 0, BitVec.ofNat 64 off], data := [] } 1 va
  | _ => none

/-- The offset of a barrier in the peer that holds the target, if that peer holds the barrier too. -/
def peerBarrier (target : Nat) (pa : Option Nat) : Option Nat :=
  match placeOf target, pa.map placeOf with
  | .peer m _, some (.peer n off) => if m = n then some off else none
  | _, _ => none

/-- One update of a transfer reaches its home port (R352); the barrier of an XRED is translated before it, so that nothing is visible when
that fails (R348, R356). -/
def State.redPiece (s : State) (t : Xfer) (op piece va : Nat) (v c : Word) : State :=
  let s := s.fillAll t [va]
  let barred := (t.op matches .xred _ _ _ _) && litBar t.lit
  match (do let pa ← s.redPlace t va
            let b : Option Nat ← (if barred then (do return some (← s.redBarrier t)) else pure none)
            return (pa, b) : Except Stop (Nat × Option Nat)) with
  | .error st => if s.awaiting t then s else s.stopped t va st
  | .ok (pa, b) =>
    let t := { t with found := BitVec.ofNat 64 (b.getD 0) }
    match placeOf pa with
    | .peer _ _ =>
      (match s.redSend t op pa piece va v c (peerBarrier pa b) with
       | some s => s.updXfer { t with sent := piece :: t.sent }
       | none => s.failAt t 0x187 va)
    | _ =>
      let s := if litScope t.lit = 6 then s.backInvalidate (pa / 64) else s
      (match t.op with
       | .xatom _ _ _ _ =>
         let r := s.atomicAt op pa v.toNat c.toNat
         r.1.pieceDone { t with found := BitVec.ofNat 64 r.2 } piece
       | _ => (s.reduceAt op pa v.toNat).pieceDone t piece)

/-- The update a transfer makes next: lanes in ascending order, one word for XRED and XATOM (R355, R357). -/
def State.redNext (s : State) (t : Xfer) : State :=
  match t.op with
  | .xredv _ _ _ _ =>
    match (if s.awaiting t then none else (List.range 64).find? fun k => !t.pieces.contains k && !t.sent.contains k) with
    | none => s
    | some k =>
      s.redPiece t (redLaneOp (litOpt t.lit / 32)) k (laneAddr (wordAt t.args 0) (wordAt t.args 1) k).toNat
        ((lane t.vec k).zeroExtend 64) 0
  | _ =>
    if t.pieces.contains 0 ∨ t.sent.contains 0 then s
    else s.redPiece t (litOp t.lit) 0 (addrVirt (wordAt t.args 0)) (wordAt t.args 1) (wordAt t.args 2)

/-- WRITE_QUEUE_ACCEPT (R352). -/
def execWriteQueueAccept (s : State) : Out :=
  .next (match s.evXfer with
    | some t =>
      (match t.op with
       | .xred _ _ _ _ | .xatom _ _ _ _ | .xredv _ _ _ _ => if s.working t then s.redNext t else s
       | _ => s)
    | none => s)

/-- REDUCTION_BARRIER_SEND (R356): after the update has performed, the one arrival of an XRED with BAR at the place found before it. The
module that holds the target makes it when it holds the barrier too. -/
def execReductionBarrierSend (s : State) : Out :=
  .next (match s.evXfer with
    | some t =>
      if (t.op matches .xred _ _ _ _) ∧ s.working t ∧ litBar t.lit ∧ t.pieces.contains 0 ∧ ¬ t.pieces.contains 1
          ∧ ¬ s.undelivered t ∧ ¬ s.awaiting t then
        let s := s.settle
        let va := addrVirt (wordAt t.args 2)
        let pa := t.found.toNat
        match s.place pa with
        | .peer _ _ =>
          (match s.arriveSend t pa va with
           | some s => s
           | none => s.failAt t 0x187 va)
        | pl =>
          if s.retained pl true then s.stopped t va .wait
          else match pl with
          | .hbm _ => ({ s.backInvalidate (pa / 64) with mem := (s.mem.arriveAt pa).1 }).pieceDone t 1
          | pl => s.addDelivery (pl.die.getD 0) (.arrive t.x (t.portTo pl) t.core t.ctx pa none)
      else s
    | none => s)

/-! ### XMVB (R359 to R361) -/

def mvK (r : List Word) : Nat := fld (wordAt r 0) 32 32
def mvRows (r : List Word) : Nat := fld (wordAt r 0) 25 7
def mvWin (r : List Word) : Bool := (wordAt r 0).getLsbD 24
def mvRow0 (r : List Word) : Nat := fld (wordAt r 0) 15 6
def mvFa (r : List Word) : BitVec 2 := (wordAt r 0).extractLsb' 13 2
def mvFb (r : List Word) : BitVec 2 := (wordAt r 0).extractLsb' 11 2
def mvPsh (r : List Word) : Nat := fld (wordAt r 0) 6 5
def mvPitch (r : List Word) : Nat := fld (wordAt r 3) 0 32

/-- The second check of R359. -/
def mvRecordOk (r : List Word) : Bool :=
  fld (wordAt r 0) 0 6 == 0 && mvRows r != 0 && decide (4 ≤ mvK r ∧ mvK r ≤ 65536) && mvK r % 4 == 0
    && decide (mvRow0 r + mvRows r ≤ 64) && decide (mvRows r ≤ 64) && fld (wordAt r 3) 32 32 == 0 && mvPitch r % 4 == 0
    && decide (mvK r ≤ mvPitch r) && (mvWin r || wordAt r 4 == 0) && ([5, 6, 7].all fun i => wordAt r i == 0)

/-- Elements that lie outside a window, as the window-range fault (R161 check 4). -/
def spanFault (d : Area) (n : Nat) : Option Trap :=
  if byteHi d.bits (d.off + n - 1) > d.len then xTrap 0x084 (faddrOf (max (byteLo d.bits d.off) d.len)) else none

/-- The window checks of A and O (R359). -/
def mvWindowFault (wins : Vector Win 8) (core : Nat) (r : List Word) : Option Trap :=
  let wa := winOf wins (addrWin (wordAt r 1))
  let wo := winOf wins (addrWin (wordAt r 4))
  let inA := addrWindow (wordAt r 1)
  let inO := mvWin r && addrWindow (wordAt r 4)
  (if inA && (wa.kind == 0 || !wa.rd) || inO && (wo.kind == 0 || !wo.wr) then xTrap 0x081 0 else none).or
  ((if inA && (wa.fmt != opFmt (mvFa r) || wa.geo != 0) || inO && wo.fmt != 1 then xTrap 0x082 0 else none).or
  ((if inA then spanFault (windowArea wins core (wordAt r 1) 0) (mvK r) else none).or
   (if inO then spanFault (windowArea wins core (wordAt r 4) 0) (64 * mvRows r) else none)))

/-- The address-range check of an XMVB (R358 check 3). -/
def mvRangeFault (r : List Word) : Option Trap :=
  let b := wordAt r 2
  let last := (64 * mvRows r - 1) * mvPitch r + mvK r
  if ¬ addrWindow (wordAt r 1) ∨ ¬ addrOk (wordAt r 1) false ∨ addrWindow b ∨ ¬ addrOk b false
      ∨ (mvWin r ∧ (¬ addrWindow (wordAt r 4) ∨ ¬ addrOk (wordAt r 4) false))
      ∨ addrVirt b + (last * opBits (mvFb r) + 7) / 8 > 2 ^ 55 then xTrap 0x08B 0
  else none

/-- The pending range of DST = 1 (R359, R292). -/
def mvPend (wins : Vector Win 8) (core : Nat) (r : List Word) : List (Nat × Nat) :=
  if mvWin r then
    let d := windowArea wins core (wordAt r 4) 0
    [(d.base + (byteLo d.bits d.off).toNat, d.base + (byteHi d.bits (d.off + (64 * mvRows r : Nat) - 1)).toNat)]
  else []

/-- The checks of XMVB over every issue (R358, R359). -/
def xmvbFault (a : BitVec 5) (l : BitVec 4) (s : State) : Option Trap :=
  let w := s.recordWin (s.tokenLit l)
  let wins := s.me.sys.wins
  let core := s.fr.core
  match (s.basesX a).findSome? (recordFault w 16 8) with
  | some t => some t
  | none =>
    let rs := (s.basesX a).map fun o => s.readRecord w o 8
    let overs (f : List Word → Option Trap) : Option Trap := rs.findSome? f
    (overs fun r => if mvWin r then none else grantFault s).or
    ((overs fun r => if mvRecordOk r then none else xTrap 0x004 0).or
    ((overs fun r => if mvWin r ∨ s.tileGranted (mvTile r) then none else xTrap 0x086 (mvTile r)).or
    ((overs (mvWindowFault wins core)).or
    ((overs mvRangeFault).or
    ((overs fun r => if addrElem (wordAt r 1) % 4 ≠ 0 then xTrap 0x083 0 else none).or
    ((limitFault s).or
     (if s.myCore.pend.length + (rs.map fun r => (mvPend wins core r).length).sum > 32 then xTrap 0x186 0 else none)))))))

/-- The issue of XMVB (R359): the record is read, A is read at issue + 31, and the transfer registers on its tile or
enters its pending range. -/
def xmvbOp (i : Instr) (tg : Tag) (kd : BitVec 6) (a : BitVec 5) (l : BitVec 4) (s : State) : State :=
  (s.enter 14).gate (s.cond tg) fun s =>
    let lit := s.tokenLit l
    let r := s.readRecord (s.recordWin lit) (s.baseS a).toNat 8
    let t := s.mkXfer i (litCh lit) lit [s.baseS a, s.nowS (a + 1), s.nowS (a + 2)] r
    let s := (s.addXfer t (litCh lit)).putK 7 1 kd (tokenOf t.x)
    let k := s.myCore
    let k := if mvWin r then { k with pend := k.pend ++ (mvPend t.wins t.core r).map fun p => ⟨p.1, p.2, t.x⟩ }
      else k.register (mvTile r) t.x t.ctx (mvRows r)
    let s := s.setMyCore k
    let w := winOf t.wins (addrWin (wordAt r 1))
    let bits := opBits (mvFa r)
    let die := s.myDie
    s.setMyDie { die with acc := die.acc ++
      [{ kind := .copyRead, core := s.fr.core, ctx := s.fr.ctx.val, slot := 7, ord := s.me.ord, left := 32, land := 32
         keep := .live, port := 8 * (s.fr.core % 384) + 3, win := w, elem := (addrElem (wordAt r 1) * bits / 8 : Nat)
         step := (addrElem (wordAt r 1) / 4 : Nat), index := [], data := [], arg := BitVec.ofNat 64 (mvK r * bits / 8)
         arg2 := BitVec.ofNat 64 (mvK r / 4), mask := 0, rm := 0, fm := 0, dest := noDest, dest2 := noDest, x := t.x
         msmx := [] }] }

/-- The runs of bytes that hold A: its data and its scale bytes. -/
def mvRuns (t : Xfer) : List (Nat × Nat) :=
  let w := winOf t.wins (addrWin (wordAt t.recd 1))
  let bits := opBits (mvFa t.recd)
  [(w.addr t.core + addrElem (wordAt t.recd 1) * bits / 8, mvK t.recd * bits / 8),
   (w.scaleAddr t.core + addrElem (wordAt t.recd 1) / 4, mvK t.recd / 4)]

/-- The first byte of A that lies in a line with an uncorrectable error (R363). -/
def State.mvFlaw (s : State) (t : Xfer) : Option Nat :=
  if s.flaws = [] then none
  else ((mvRuns t).flatMap fun r => (List.range r.2).map fun i => r.1 + i).find? fun b => s.flaws.contains (b / 64)

/-- A's data bytes and then its scale bytes, as they stand. -/
def State.mvOperand (s : State) (t : Xfer) : List Byte :=
  (mvRuns t).flatMap fun r => s.mem.bytes r.1 r.2

/-- An element of an operand format as its integer (R176). -/
def opInt (f : BitVec 2) (b : Nat) : Int := if f = 3 then b else signExt b (opBits f)
/-- The exponent of a scale byte (R183). -/
def opExp (f : BitVec 2) (sc : Nat) : Int := (sc : Int) - 127 - ((opBits f : Int) - 2)

/-- B as an end: ROW4 pages of the format of FB, in HBM (R359). -/
def State.mvArea (s : State) (t : Xfer) : Except Stop Area := do
  let va := addrVirt (wordAt t.recd 2)
  let d ← s.pageArea t.core t.asid va 0 .read
  if d.fmt ≠ opFmt (mvFb t.recd) ∨ d.geo ≠ 0 ∨ d.off % 4 ≠ 0 then throw (.fault 0x08A va)
  return d

/-- Block b of output n of B: its integers and its exponent (R360). -/
def State.mvBlock (s : State) (t : Xfer) (d : Area) (n b : Nat) : Except Stop (List Int × Int) := do
  let i : Int := (n * mvPitch t.recd + 4 * b : Nat)
  let at_ := d.base + (byteLo d.bits (d.off + i)).toNat
  let pa ← s.phys t true .read d.need at_
  match s.place pa with
  | .hbm _ => pure ()
  | _ => throw (.fault 0x08A (at_ % 2 ^ 55))
  let xs ← (List.range 4).mapM fun (j : Nat) => do return opInt (mvFb t.recd) (← s.readElem t d .read (i + (j : Int)))
  let sa := d.scaleAt (d.blockOf i)
  let sc ← s.byteAt t sa (← s.phys t true .read d.scaleNeed sa)
  return (xs, opExp (mvFb t.recd) sc.toNat)

/-- x_n of R360. -/
def State.mvOut (s : State) (t : Xfer) (d : Area) (n : Nat) : Except Stop Dy := do
  let r := t.recd
  let bits := opBits (mvFa r)
  (List.range (mvK r / 4)).foldlM (fun (acc : Dy) b => do
    let w ← s.mvBlock t d n b
    let a := (List.range 4).map fun j => opInt (mvFa r) (bufBits t.buf ((4 * b + j) * bits) bits)
    let e := opExp (mvFa r) (t.buf.getD (mvK r * bits / 8 + b) 0).toNat
    return acc.add ⟨(List.zipWith (fun x y => x * y) a w.1).sum, e + w.2 - (mvPsh r : Int)⟩) Dy.zero

/-- Values as integers under one exponent. -/
def commonExp (xs : List Dy) : Int × List Int :=
  let e := (leastOf (xs.map fun x => x.e)).getD 0
  (e, xs.map fun x => x.m * 2 ^ (x.e - e).toNat)

/-- The next output row of an XMVB (R360, R361): an arrival unit, or 64 values; values perform line by line once the last row has been
computed, so that nothing is visible of one that fails (R348). -/
def State.mvRow (s : State) (t : Xfer) : State :=
  let s := s.settle
  let bad := if t.buf = [] then s.mvFlaw t else none
  let t := if t.buf = [] then { t with buf := s.mvOperand t } else t
  let r := t.recd
  match if t.dst.isSome then none else (List.range (mvRows r)).find? fun i => !t.pieces.contains i with
  | none => s
  | some i =>
    let s := s.fillAll t [addrVirt (wordAt r 2)]
    match bad with
    | some b => s.failAt t 0x306 (sramOffset b)
    | none =>
    match (do let d ← s.mvArea t; (List.range 64).mapM fun j => s.mvOut t d (64 * i + j)) with
    | .error st => s.stopped t (addrVirt (wordAt r 2)) st
    | .ok xs =>
      if mvWin r then
        let d := windowArea t.wins t.core (wordAt r 4) 0
        let cs := xs.zipIdx.flatMap fun (x : Dy × Nat) =>
          d.cells none ((64 * i + x.2 : Nat) : Int) 32 (roundToFormat fmtF32 x.1.isNeg x.1.m.natAbs x.1.e 0 0).1
        let ps := i :: t.pieces
        if ps.length < mvRows r then s.updXfer { t with pieces := ps, out := t.out ++ cs, round := 0 }
        else s.take t 0 (fun t => { t with pieces := ps }) (.ok (.cells d (t.out ++ cs) []))
      else
        let q := commonExp xs
        let k := (s.core t.core).arrive ⟨mvTile r, mvRow0 r + i, 1, t.x, i, q.1, q.2, false⟩
        (s.setCore t.core k).pieceDone t i

/-- XMVB_OUTPUT (R360). -/
def execXmvbOutput (s : State) : Out :=
  .next (match s.evXfer with
    | some t =>
      (match t.op with
       | .xmvb _ _ _ _ => if s.working t then s.mvRow t else s
       | _ => s)
    | none => s)

/-! ### Meanings -/

/-- XRED captures its operands. -/
def actXred (tg : Tag) (kd : BitVec 6) (a : BitVec 5) (l : BitVec 4) : State → State := xtOp (.xred tg kd a l) tg kd a l
/-- XRED (R355), issued alone. -/
def execXred (tg : Tag) (kd : BitVec 6) (a : BitVec 5) (l : BitVec 4) (s : State) : Out :=
  .next (s.issueSyl (.xred tg kd a l) 7 (fun s => litOk (.xred tg kd a l) l 8 s && xredOptOk (s.tokenLit l)) (redFault true a l)
    (actXred tg kd a l))

/-- XATOM captures its operands. -/
def actXatom (tg : Tag) (kd : BitVec 6) (a : BitVec 5) (l : BitVec 4) : State → State := xtOp (.xatom tg kd a l) tg kd a l
/-- XATOM (R355), issued alone. -/
def execXatom (tg : Tag) (kd : BitVec 6) (a : BitVec 5) (l : BitVec 4) (s : State) : Out :=
  .next (s.issueSyl (.xatom tg kd a l) 7 (fun s => litOk (.xatom tg kd a l) l 8 s && xatomOptOk (s.tokenLit l)) (redFault false a l)
    (actXatom tg kd a l))

/-- XREDV captures its operands and lanes. -/
def actXredv (tg : Tag) (kd : BitVec 6) (a : BitVec 5) (l : BitVec 4) : State → State := xredvOp (.xredv tg kd a l) tg kd a l
/-- XREDV (R357), issued alone. -/
def execXredv (tg : Tag) (kd : BitVec 6) (a : BitVec 5) (l : BitVec 4) (s : State) : Out :=
  .next (s.issueSyl (.xredv tg kd a l) 7 (fun s => litOk (.xredv tg kd a l) l 8 s && xredvOptOk (s.tokenLit l)) (xredvFault a)
    (actXredv tg kd a l))

/-- XMVB captures its record. -/
def actXmvb (tg : Tag) (kd : BitVec 6) (a : BitVec 5) (l : BitVec 4) : State → State := xmvbOp (.xmvb tg kd a l) tg kd a l
/-- XMVB (R359), issued alone. -/
def execXmvb (tg : Tag) (kd : BitVec 6) (a : BitVec 5) (l : BitVec 4) (s : State) : Out :=
  .next (s.issueSyl (.xmvb tg kd a l) 7 (litOk (.xmvb tg kd a l) l 3) (xmvbFault a l) (actXmvb tg kd a l))

end Sys2Proof.Machine
end

