-- ==== Sys2Proof/Machine/Static.lean ====
section
/-! DEFINITION. The static domain of a die (R159, R164 to R166, R244, R249 to R254): what performs at the end of a clk, in
which order, and who loses a collision; the trestle's wired-AND (R257, R258). -/

namespace Sys2Proof.Machine

/-! ### Writes that perform in one clk -/

/-- A write of one clk: the port it takes, the contexts behind it, the transfer behind it, and the block it rewrites. -/
structure Write where
  port   : Nat
  owners : List (Nat × Nat)
  x      : Option Xid
  block  : Option Nat
  cells  : List (Nat × Nat × Nat)
deriving DecidableEq, Repr

def Put.write (p : Put) (x : Option Xid) : Write := ⟨p.port, [(p.core, p.ctx)], x, p.block, p.cells⟩

/-- Writes by ascending port index; of two by one port the later first (R251). -/
def insertWrite (w : Write) : List Write → List Write
  | [] => [w]
  | v :: l => if v.port < w.port then v :: insertWrite w l else w :: v :: l

/-- Two writes of one transfer of one core, which do not collide with each other. -/
def Write.kin (w v : Write) : Bool := w.x.isSome && w.x == v.x && w.owners == v.owners

/-- Two writes have a bit in common. -/
def Write.overlap (w v : Write) : Bool := w.cells.any fun c => v.cells.any fun e => c.1 == e.1 && (c.2.1 &&& e.2.1) != 0

/-- A write that stands above another takes byte `a` from it: a whole block from another rewrite of that block, or of one that
shares its bytes (R165). Of one transfer's deliveries the later stands. -/
def Write.takes (w v : Write) (a : Nat) : Bool :=
  match w.block, v.block with
  | some x, some y => !w.kin v && (x == y || w.overlap v)
  | _, _ => !w.kin v && w.cells.any fun c => c.1 == a

/-- The cells that stand, the write of the lowest rank last, and the contexts that lose (R251). DESIGN CHOICE (log 64): of three block
rewrites that overlap in a chain, one that has lost as a whole still takes its bytes from those below it, as R165 speaks of two. -/
def resolveWrites : List Write → List Write → List (Nat × Nat × Nat) × List (Nat × Nat)
  | _, [] => ([], [])
  | above, w :: l =>
    let stand := w.cells.filter fun c => !(above.any fun v => v.takes w c.1)
    let lost := w.cells.any fun c => above.any fun v => v.takes w c.1
    let r := resolveWrites (above ++ [w]) l
    (r.1 ++ stand, if lost then w.owners ++ r.2 else r.2)

/-- A context by numbers. -/
def ctxNo (n : Nat) : Fin 4 := ⟨n % 4, Nat.mod_lt _ (by omega)⟩

/-- Hardware sets of a context of a core. -/
def State.setStickyOf (s : State) (core ctx : Nat) (b : BitVec 4) : State :=
  let c := s.ctx core (ctxNo ctx)
  if core < moduleCores then s.setCtx core (ctxNo ctx) { c with sets := c.sets ||| b } else s
def State.setFlagsOf (s : State) (core ctx : Nat) (f : Fl) : State :=
  let c := s.ctx core (ctxNo ctx)
  s.setCtx core (ctxNo ctx) { c with fsets := c.fsets ||| f }

/-- Writes perform together: the lowest port stands, and a loser has COLL set (R251). -/
def State.performWrites (s : State) (ws : List Write) : State :=
  let r := resolveWrites [] (ws.foldl (fun l w => insertWrite w l) [])
  let s := { s with mem := r.1.foldl (fun m (c : Nat × Nat × Nat) => m.poke c.1 c.2.1 c.2.2) s.mem }
  r.2.foldl (fun s o => s.setStickyOf o.1 o.2 0x4#4) s

/-! ### Accesses -/

/-- A result of an access goes where its capture says (R166, R214). -/
def State.result (s : State) (a : Access) (l : Landing) : State :=
  let c := s.ctx a.core (ctxNo a.ctx)
  s.setCtx a.core (ctxNo a.ctx)
    (match a.keep with
     | .live => { c with land := c.land ++ [l] }
     | .freeze => { c with chest := c.chest ++ [l] }
     | .trap => { c with tchest := c.tchest ++ [l] })

/-- The bytes a static access reads: those of its elements, and the members and scale bytes of blocks that it rewrites. -/
def Access.reads (a : Access) : List (Nat × Nat) :=
  match a.kind with
  | .msmx | .xstat | .xpcnt | .copyWrite => []
  | .copyRead => [(a.win.addr a.core + a.elem.toNat, a.win.addr a.core + a.elem.toNat + a.arg.toNat)]
  | k =>
    let es := k.elems a.win.fmt a.elem a.step a.index
    if ¬ k.isStore then a.win.spans a.core es else if blockFmt a.win.fmt then a.win.spans a.core (a.win.withBlocks es) else []

/-- The first byte of on-die SRAM that an access reads from a line with an uncorrectable error (R363). -/
def State.badByte (s : State) (a : Access) : Option Nat :=
  if s.flaws = [] then none
  else (leastOf ((a.reads.filter fun p => s.flaws.any fun l => decide (max p.1 (64 * l) < min p.2 (64 * l + 64))).map
    fun p => (p.1 : Int))).map Int.toNat

/-- A report waits for the context's next boundary (R207); the first stands. -/
def State.reportTo (s : State) (core ctx : Nat) (t : Trap) : State :=
  let c := s.ctx core (ctxNo ctx)
  s.setCtx core (ctxNo ctx) { c with report := c.report.or (some t) }

/-- Flags of an access are set in the clk in which it performs (R157). -/
def State.accessFlags (s : State) (a : Access) (f : Fl) : State := if f = 0 then s else s.setFlagsOf a.core a.ctx f

/-- The read of a load: its results enter flight or a chest image (R159), and its flags are set (R157). -/
def State.performLoad (s : State) (m : Memory) (a : Access) : State :=
  let r := a.loads m
  r.1.foldl (fun s (p : Dest × Word × Lanes × Word) => s.result a ⟨a.land, a.slot, a.ord, p.1, p.2.1, p.2.2.1, p.2.2.2, 0⟩)
    (s.accessFlags a r.2)

/-- The source bytes of a static-domain copy, or A of an XMVB, are read (R291, R299). An XMVB whose tokens are not ready
reads A when it starts. -/
def State.performCopyRead (s : State) (m : Memory) (a : Access) : State :=
  match (s.core a.core).xfer? a.x with
  | none => s
  | some t =>
    if t.phase = .waiting ∨ ¬ (t.fixed ∨ t.uses.all (s.core a.core).ready) then s
    else match s.badByte a with
    | some b => s.failAt t 0x306 (sramOffset b)
    | none => s.updXfer { t with buf := m.bytes (a.win.addr a.core + a.elem.toNat) a.arg.toNat
                                    ++ m.bytes (a.win.scaleAddr a.core + a.step.toNat) a.arg2.toNat }

/-- The write of a static-domain copy. -/
def State.copyWrites (s : State) (a : Access) : List Write :=
  match (s.core a.core).xfer? a.x with
  | none => []
  | some t => [⟨a.port, [(a.core, a.ctx)], some a.x, none,
      t.buf.zipIdx.map fun b => (a.win.addr a.core + a.elem.toNat + b.2, 255, b.1.toNat)⟩]

/-- Atomics by ascending port index (R165). -/
def insertAtomic (a : Access) : List Access → List Access
  | [] => [a]
  | b :: l => if b.port ≤ a.port then b :: insertAtomic a l else a :: b :: l

/-- What a store or atomic of a protected pair's leading core writes joins the commit record of the clk: each byte's address and value
(R226). -/
def State.noteStore (s : State) (core : Nat) (cells : List (Nat × Nat × Nat)) : State :=
  let z := s.pair (core / 2)
  if cells = [] ∨ core % 2 = 1 ∨ ¬ z.prot then s
  else s.setPair (core / 2) { z with perf := z.perf ++ cells.flatMap fun c => leBytes 8 c.1 ++ [BitVec.ofNat 8 c.2.2] }

/-- A chain of atomics on one word: each sees the value before it and returns it; their final value is one write at the
lowest port (R165). -/
def State.performChain (s : State) (old : W32) (chain : List Access) : State × List Write :=
  let r := chain.foldl (fun (p : State × W32) a =>
      let n := a.atomicNew p.2
      ((((p.1.noteStore a.core (bitCells a.addr 0 32 n.1.toNat)).accessFlags a n.2).result a ⟨a.land, a.slot, a.ord, a.dest, a.atomicOld p.2, [], 0, 0⟩), n.1)) (s, old)
  match chain with
  | [] => (s, [])
  | a :: _ =>
    (r.1, [⟨a.port, chain.map fun b => (b.core, b.ctx), none, none, bitCells a.addr 0 32 r.2.toNat⟩])

/-- Every atomic of the clk, word by word. -/
def State.performAtomics (s : State) (m : Memory) (as : List Access) : State × List Write :=
  (distinct (as.map Access.addr)).foldl (fun (p : State × List Write) w =>
    let r := p.1.performChain (BitVec.ofNat 32 (m.nat w 4)) (as.filter fun a => a.addr == w)
    (r.1, p.2 ++ r.2)) (s, [])

/-- A read-modify-write that the transfer units of a die make: an arrival, or with `inc` the addition of a POST (R253, R419). -/
structure Arrival where
  x    : Xid
  port : Nat
  core : Nat
  ctx  : Nat
  addr : Nat
  inc  : Option Word
deriving DecidableEq, Repr

/-- Memory after it, and the generation that an arrival found. -/
def Arrival.update (d : Arrival) (m : Memory) : Memory × Word :=
  match d.inc with
  | none => m.arriveAt d.addr
  | some v => (m.putWord d.addr (m.word d.addr + v), 0)

/-- Arrivals at barrier objects and additions: each is one atomic update, and those of one object chain (R253, R307, R419). -/
def State.performArrivals (s : State) (m : Memory) (ds : List Arrival) : State × List Write :=
  (distinct (ds.map Arrival.addr)).foldl (fun (p : State × List Write) ad =>
    let mine := ds.filter fun d => d.addr == ad
    let r := mine.foldl (fun (q : State × Memory) d =>
        let u := d.update q.2
        let s := match (q.1.core d.core).xfer? d.x with
          | some t =>
            q.1.updXfer (match t.op with
              | .xred _ _ _ _ => { t with pieces := 1 :: t.pieces, round := 0 }
              | _ => { t with pieces := 0 :: t.pieces, found := u.2, round := 0 })
          | none => q.1
        (s, u.1)) (p.1, m)
    let bytes := r.2.bytes ad (if mine.any fun d => d.inc.isNone then 16 else 8)
    let owners := (mine.map fun d => (d.core, d.ctx)).filter fun o => decide (o.1 < moduleCores)
    (r.1, p.2 ++ [⟨(mine.map Arrival.port).foldl Nat.min ((mine.map Arrival.port).headD 0), owners, none, none,
      bytes.zipIdx.map fun b => (ad + b.2, 255, b.1.toNat)⟩])) (s, [])

/-- The deliveries of a die as writes and arrivals (R252). -/
def deliveryWrites (ds : List Delivery) : List Write :=
  ds.filterMap fun d =>
    match d with
    | .bytes x p => some (p.write (some x))
    | .arrive _ _ _ _ _ _ => none
def deliveryArrivals (ds : List Delivery) : List Arrival :=
  ds.filterMap fun d =>
    match d with
    | .bytes _ _ => none
    | .arrive x port core ctx addr inc => some ⟨x, port, core, ctx, addr, inc⟩

/-- Two deliveries of one transfer write a byte in common. -/
def Delivery.meets (a b : Delivery) : Bool :=
  match a, b with
  | .bytes x p, .bytes y q => decide (x = y) && p.core == q.core && p.cells.any fun c => q.cells.any fun e => c.1 == e.1
  | _, _ => false

/-- The deliveries that perform in a clk: of those of one transfer that write a byte in common the first; the engine makes the others
in later clk (R252). -/
def deliverNow : List Delivery → List Delivery → List Delivery × List Delivery
  | _, [] => ([], [])
  | before, d :: l =>
    let r := deliverNow (before ++ [d]) l
    if before.any d.meets then (r.1, d :: r.2) else (d :: r.1, r.2)

/-- An access that performs in the memory phase of the clk in hand. -/
def Access.due (a : Access) : Bool := decide (a.left ≤ 1) && a.kind != .xstat && a.kind != .xpcnt

/-- What performs in a die at the end of the clk in hand (R249 to R252): reads see memory as it stood before the clk, writes
collide by port index. In a hold clk only the deliveries perform. What comes after it in the clk waits for the next. -/
def State.staticPhase (s : State) (d : Nat) : State :=
  let die := s.die d
  let m := s.mem
  let due := if die.held then [] else die.acc.filter Access.due
  if die.performed ∨ (due = [] ∧ die.deliv = []) then s
  else
    let ds := deliverNow [] die.deliv
    let s := s.setDie d { die with acc := die.acc.filter fun a => die.held || !a.due, deliv := ds.2 }
    -- an access that meets an uncorrectable error is reported and does not perform
    let bad := due.filter fun a => a.kind != .copyRead && (s.badByte a).isSome
    let good := due.filter fun a => a.kind == .copyRead || (s.badByte a).isNone
    let s := bad.foldl (fun s a => s.reportTo a.core a.ctx ⟨0x306, sramOffset ((s.badByte a).getD 0), none, none⟩) s
    let s := good.foldl (fun s a => if a.kind = .copyRead then s.performCopyRead m a else s.performLoad m a) s
    let stores := good.flatMap fun a => (a.puts m).1.map fun p => p.write none
    let s := good.foldl (fun s a => (s.noteStore a.core ((a.puts m).1.flatMap Put.cells)).accessFlags a (a.puts m).2) s
    let ra := s.performAtomics m ((good.filter fun a => a.kind.isAtomic).foldl (fun l a => insertAtomic a l) [])
    let copies := good.filter fun a => a.kind == .copyWrite
    let rb := ra.1.performArrivals m (deliveryArrivals ds.1)
    let ws := stores ++ ra.2 ++ (copies.flatMap rb.1.copyWrites) ++ deliveryWrites ds.1 ++ rb.2
    let s := rb.1.performWrites ws
    copies.foldl (fun s a => match (s.core a.core).xfer? a.x with
      | some t => s.finish t
      | none => s) s

/-- Requests whose delivery into on-die SRAM has performed are answered (R399). -/
def State.payOwed (s : State) : State :=
  let waits (o : (Nat × Xid) × Packet) : Bool := s.delivering o.1.1 o.1.2
  (s.owed.filter fun o => !waits o).foldl (fun s o => s.reply o.2) { s with owed := s.owed.filter waits }

/-- The value XSTAT reads (R310). -/
def Core.xstat (k : Core) (ch : Nat) : Word :=
  let c := k.chans[(⟨ch % 8, Nat.mod_lt _ (by omega)⟩ : Fin 8)]
  c.nid ++ c.wm
/-- The value XPCNT reads (R417). -/
def Core.xpcnt (k : Core) (n : Nat) : Word := (k.cst[(⟨n % 16, Nat.mod_lt _ (by omega)⟩ : Fin 16)]).word

/-- XSTAT and XPCNT read at the end of their issue clk. -/
def State.statPhase (s : State) (d : Nat) : State :=
  let die := s.die d
  let due := die.acc.filter fun a => decide (a.left ≤ 1) && (a.kind == .xstat || a.kind == .xpcnt)
  if due = [] then s
  else
    let s := s.setDie d { die with acc := die.acc.filter fun a => !(decide (a.left ≤ 1) && (a.kind == .xstat || a.kind == .xpcnt)) }
    due.foldl (fun s a =>
      let k := s.core a.core
      s.result a ⟨a.land, a.slot, a.ord, a.dest, if a.kind = .xstat then k.xstat a.elem.toNat else k.xpcnt a.elem.toNat, [], 0, 0⟩) s

/-- Accesses come a clk nearer. A captured result keeps its offset (R214). -/
def Die.accClk (x : Die) : Die :=
  if x.acc = [] then x
  else { x with acc := x.acc.map fun a => { a with left := a.left - 1, land := if a.keep = .live then a.land - 1 else a.land } }

/-! ### The trestle (R257, R258) -/

/-- The members of the gang that a context waits with on its die: those of its GANGID, or the context alone. -/
def State.trestleGang (s : State) (core : Nat) (x : Fin 4) : List (Nat × Fin 4) :=
  let c := s.ctx core x
  if c.bind.gang ∧ c.sys.gang then s.gangOf core x else [(core, x)]

/-- A member asserts its line, or counts as asserting it once its TEND has acted (R258). -/
def Ctx.asserts (c : Ctx) : Bool := c.arrived || c.ended.isSome

/-- A release that has been set comes a clk nearer. -/
def State.trestleEnd (s : State) (d : Nat) : State :=
  s.cores.foldl (fun s e =>
    if dieOf e.1 ≠ d then s
    else (List.finRange 4).foldl (fun s x =>
      let c := s.ctx e.1 x
      match c.release with
      | some (n + 1) => s.setCtx e.1 x { c with release := some n }
      | some 0 => s
      | none => s) s) s

/-- The members whose line came true in this clk, on one line of the die when it is named. -/
def State.trestleTrue (s : State) (d : Nat) (line : Option Nat) : State :=
  let ready := s.cores.flatMap fun e =>
    if dieOf e.1 ≠ d then []
    else (List.finRange 4).filterMap fun x =>
      let c := s.ctx e.1 x
      if c.arrived ∧ c.release.isNone ∧ (line.isNone ∨ (c.bind.gang ∧ line = some c.bind.tline.toNat)) ∧ (s.trestleGang e.1 x).all fun m => (s.ctx m.1 m.2).asserts then some (e.1, x) else none
  ready.foldl (fun s m => s.setCtx m.1 m.2 { s.ctx m.1 m.2 with release := some 4 }) s

/-- The end of a non-hold clk for a die's trestle lines. -/
def State.trestleClk (s : State) (d : Nat) : State := (s.trestleTrue d none).trestleEnd d

/-! ### Meanings of the phases -/

/-- A part of the clk in hand is done once (log 2). -/
def Core.once (k : Core) (n : Nat) (f : Core → Core) : Core :=
  if k.did.getLsbD n then k else let k := f k; { k with did := k.did ||| BitVec.ofNat 5 (2 ^ n) }

/-- The nest reads of a core in the clk in hand. One that meets an uncorrectable error is reported, with the byte offset in its SRAM,
and goes on with what the line holds (R363, log 43). -/
def State.nestReadPhase (s : State) (core : Nat) : State :=
  if (s.core core).nests = [] ∨ (s.core core).did.getLsbD 1 then s
  else
    let s := (s.core core).nests.foldl (fun s n => match n.badByte s.flaws core with
      | some b => s.reportTo core n.ctx ⟨0x306, sramOffset b, none, none⟩
      | none => s) s
    s.setCore core ((s.core core).once 1 fun k => k.nestRead s.mem core)

/-- The rest of the matrix unit's clk. -/
def Core.matrixEnd (k : Core) : Core :=
  let k := (k.once 2 Core.nestUpdate).tileLand.nestClk
  ((k.once 3 Core.arrivalApply).arrivalRetry).regnClk

/-- The results of a core that land with the clk in hand. -/
def Core.dueLandings (k : Core) : List Landing :=
  (List.finRange 4).flatMap fun x => (k.ctx x).land.filter fun l => decide (l.left ≤ 1)

/-- Results of a protected pair's leading core that land ahead of the end of their clk join its commit record (R226). -/
def State.noteLandings (s : State) (core : Nat) (l : List Landing) : State :=
  let z := s.pair (core / 2)
  if l = [] ∨ core % 2 = 1 ∨ ¬ z.prot then s else s.setPair (core / 2) { z with lands := z.lands ++ l }

/-- The due results of a context land (R83, R84). -/
def Ctx.landDue (c : Ctx) : Ctx :=
  let rest := c.land.filter fun l => decide (1 < l.left)
  { ({ c with land := c.land.filter fun l => decide (l.left ≤ 1) } : Ctx).landAll with land := rest }

/-- The unit belongs to a transfer registered on its tile and has neither applied nor arrived. -/
def Core.awaitsUnit (k : Core) (u : ArrUnit) : Bool :=
  (k.regn.any fun r => decide (r.tile = u.tile ∧ r.x = u.x ∧ r.done ≤ u.seq ∧ u.seq < r.total))
    && !((k.arrq ++ k.retry ++ k.away).any fun v => decide (v.x = u.x ∧ v.seq = u.seq ∧ v.tile = u.tile))

/-- ARRIVAL_UNIT_QUEUE (R193). -/
def execArrivalUnitQueue (s : State) : Out :=
  let k := s.core s.ev.core
  .next (if k.awaitsUnit s.ev.unit then s.setCore s.ev.core (k.arrive s.ev.unit) else s)

/-- ARRIVAL_UNIT_RETRY (R193). -/
def execArrivalUnitRetry (s : State) : Out := .next (s.setCore s.ev.core (s.core s.ev.core).arrivalRetry)

end Sys2Proof.Machine
end

