-- ==== Sys2Proof/Machine/Save.lean ====
section
/-! DEFINITION. The task save area (R220): its image, writing it 32 clk after a freeze boundary (R214), and loading it
(R276); memory as Vizin reaches it in an address space. -/

namespace Sys2Proof.Machine

/-! ### Vizin's memory accesses -/

/-- A place lies in a die at retention: what goes there is answered retained-wait (R374). -/
def State.asleep (s : State) (p : Place) : Bool :=
  match p.die with
  | some d => (s.die d).park == .retained
  | none => false

/-- The physical pieces of `n` bytes at a virtual address, 64 KiB at a time (R342); 0x282 stands for a retained-wait answer (R374). -/
def State.spanPieces (s : State) (asid : Nat) (r : Right) : Nat → Nat → Nat → Except (Nat × Nat) (List (Nat × Nat))
  | 0, _, _ => .ok []
  | fuel + 1, va, n =>
    if n = 0 then .ok []
    else
      let k := min n (65536 - va % 65536)
      match (if (s.allWalkLines asid (va % 2 ^ 55)).any fun l => s.asleep (placeOf (64 * l)) then .error 0x282
        else s.walk asid (va % 2 ^ 55) r : Except Nat Mapping) with
      | .error c => .error (c, va % 2 ^ 55)
      | .ok p =>
        let pa := s.ownAddr (p.pa + (va % 2 ^ 55 - p.va))
        if s.asleep (placeOf pa) then .error (0x282, va % 2 ^ 55)
        else match placeOf pa with
        | .nowhere => .error (0x08A, va % 2 ^ 55)
        | .peer _ _ => .error (0x08A, va % 2 ^ 55)
        | _ =>
          match s.spanPieces asid r fuel (va + k) (n - k) with
          | .error e => .error e
          | .ok l => .ok ((pa, k) :: l)

def State.pieces (s : State) (asid va n : Nat) (r : Right) : Except (Nat × Nat) (List (Nat × Nat)) :=
  s.spanPieces asid r (n / 65536 + 2) va n

/-- The bytes at a virtual address are answered retained-wait now (R374). -/
def State.vwaits (s : State) (asid va n : Nat) (r : Right) : Bool :=
  match s.settle.pieces asid va n r with
  | .error e => e.1 == 0x282
  | .ok _ => false

/-- `n` bytes at a virtual address; a fault is a code and the address it met. -/
def State.vread (s : State) (asid va n : Nat) : Except (Nat × Nat) (List Byte) := do
  let s := s.settle
  let ps ← s.pieces asid va n .read
  match ps.find? fun p => s.flaws.any fun l => decide (p.1 < 64 * l + 64 ∧ 64 * l < p.1 + p.2) with
  | some p => throw ((placeOf p.1).flawCode, va)
  | none => return ps.flatMap fun p => s.mem.bytes p.1 p.2

/-- Bytes written at a virtual address. -/
def State.vwrite (s : State) (asid va : Nat) (bs : List Byte) : Except (Nat × Nat) State := do
  let s := s.settle
  let ps ← s.pieces asid va bs.length .write
  let r := ps.foldl (fun (a : State × List Byte) p =>
    ({ a.1 with mem := a.1.mem.write p.1 (a.2.take p.2) }, a.2.drop p.2)) (s, bs)
  return r.1

/-- Words at a virtual address. -/
def State.vwords (s : State) (asid va n : Nat) : Except (Nat × Nat) (List Word) := do
  return wordsOf n (← s.vread asid va (8 * n))

/-! ### The image (R216, R220) -/

def w64 (n : Nat) : Word := BitVec.ofNat 64 n
def zeros (n : Nat) : List Byte := List.replicate n 0
def bit (b : Bool) (n : Nat) : Nat := if b then 2 ^ n else 0

/-- FILE and REG of a chest entry. -/
def Dest.file (d : Dest) : Nat × Nat :=
  match d with
  | .s i => (0, i.val)
  | .p i => (1, i.val)
  | .m i => (2, i.val)
  | .v i => (3, i.val)
  | .k i => (4, i.val)
  | .sr n => (5, n)

/-- The register that FILE and REG name. -/
def destOf (file reg : Nat) : Dest :=
  match file with
  | 0 => .s ⟨reg % 32, Nat.mod_lt _ (by omega)⟩
  | 1 => .p ⟨reg % 8, Nat.mod_lt _ (by omega)⟩
  | 2 => .m ⟨reg % 8, Nat.mod_lt _ (by omega)⟩
  | 3 => .v ⟨reg % 32, Nat.mod_lt _ (by omega)⟩
  | 4 => .k ⟨reg % 64, Nat.mod_lt _ (by omega)⟩
  | _ => .sr reg

def laneBytes (v : Lanes) : List Byte := (List.range 64).flatMap fun k => leBytes 4 (lane v k).toNat
def bytesLanes (bs : List Byte) : Lanes := (List.range 64).map fun k => BitVec.ofNat 32 (leNat ((bs.drop (4 * k)).take 4))

/-- A chest entry (R216), ORD being the entry's issue order among those of its slot. -/
def Landing.entry (l : Landing) (ord : Nat) : List Byte :=
  let f := l.dest.file
  leBytes 8 (2 ^ 63 + l.left % 64 * 2 ^ 57 + l.slot % 8 * 2 ^ 54 + l.flags.toNat * 2 ^ 48 + f.1 * 2 ^ 45 + f.2 % 256 * 2 ^ 37
      + ord % 256 * 2 ^ 29)
    ++ leBytes 8 l.lanes.toNat
    ++ (match l.dest with
      | .v _ => laneBytes l.vec
      | _ => leBytes 8 l.word.toNat ++ zeros 248)

/-- A chest entry read back. -/
def landingOf (bs : List Byte) : Option Landing :=
  let h := (wordsOf 2 bs).headD 0
  if h.getLsbD 63 then
    let d := destOf (fld h 45 3) (fld h 37 8)
    let body := bs.drop 16
    some ⟨fld h 57 6, fld h 54 3, fld h 29 8, d, BitVec.ofNat 64 (leNat (body.take 8)), (match d with
      | .v _ => bytesLanes body
      | _ => []), (wordsOf 2 bs).getD 1 0, BitVec.ofNat 6 (fld h 48 6)⟩
  else none

/-- Entries in issue order. -/
def byOrd (l : List Landing) : List Landing :=
  l.foldl (fun acc a => (acc.takeWhile fun b => decide (b.ord ≤ a.ord)) ++ a :: acc.dropWhile fun b => decide (b.ord ≤ a.ord)) []

/-- Entries in issue order as bytes; ORD counts the earlier ones of the same slot (log 15). -/
def chestBytes (es : List Landing) : List Byte :=
  es.zipIdx.flatMap fun l => l.1.entry ((es.take l.2).filter fun e => e.slot == l.1.slot).length

/-- A chest image of 144 entries. -/
def chestImage (l : List Landing) : List Byte :=
  let es := (byOrd l).take 144
  chestBytes es ++ zeros (272 * (144 - es.length))
def chestOf (bs : List Byte) (n : Nat) : List Landing :=
  (List.range (min n 144)).filterMap fun i => landingOf ((bs.drop (272 * i)).take 272)

/-- The registers of a nest table in cr order. -/
def nestCrs : List Nat :=
  (List.range 6) ++ (List.range 6).map (· + 0x08) ++ (List.range 6).map (· + 0x10) ++ (List.range 6).map (· + 0x18)
    ++ (List.range 6).map (· + 0x20)
def NestTab.image (t : NestTab) : List Byte := nestCrs.flatMap (fun cr => leBytes 4 (t.read cr).toNat) ++ zeros 8
def nestTabOf (bs : List Byte) : NestTab :=
  nestCrs.zipIdx.foldl (fun t p => t.write p.1 (BitVec.ofNat 32 (leNat ((bs.drop (4 * p.2)).take 4)))) {}

def sumsImage (l : List W32) : List Byte :=
  (List.range 4096).flatMap fun i => leBytes 4 (l.getD i 0).toNat
def sumsOf (bs : List Byte) : List W32 := (List.range 4096).map fun i => BitVec.ofNat 32 (leNat ((bs.drop (4 * i)).take 4))

/-- The nest of a context that has still steps to read, or the last of its nests. -/
def Core.heldNest (k : Core) (x : Fin 4) : Option Nest := (k.nests.filter fun n => n.ctx == x.val).getLast?

/-- The nest record of the matrix-grant holder. -/
def nestRecord (k : Core) (x : Fin 4) : List Byte :=
  let c := k.ctx x
  let n := k.heldNest x
  let P := (n.map fun n => n.tab.steps).getD 1
  let next := (n.map fun n => n.next).getD 0
  let second := n.isSome && (n.map Nest.rotate).getD false && decide (P ≤ next)
  k.active.image ++ k.shadow.image
    ++ leBytes 4 (if second then next - P else next) ++ leBytes 4 ((n.map Nest.remain).getD 0)
    ++ leBytes 8 (bit second 0 + bit c.mirror 1 + bit c.armed 2 + bit n.isSome 3 + bit ((n.map Nest.rotate).getD false) 4
        + bit ((n.map Nest.mirror).getD false) 5 + c.chkcnt.toNat * 2 ^ 16 + c.chkn.toNat * 2 ^ 32)
    ++ zeros 16 ++ sumsImage ((n.map Nest.sums1).getD []) ++ sumsImage ((n.map Nest.sums2).getD [])

/-- An arrival-unit record. -/
def ArrUnit.image (u : ArrUnit) : List Byte :=
  leBytes 8 (u.tile % 8 + u.row % 64 * 2 ^ 3 + u.src % 4 * 2 ^ 9 + u.x.ch % 8 * 2 ^ 11 + u.x.id.toNat * 2 ^ 32)
    ++ leBytes 8 (encInt u.e 64) ++ (List.range 64).flatMap fun j => leBytes 8 (encInt (u.q.getD j 0) 64)

/-- The unit of an arrival-unit record: its place in its transfer's order is its transfer unit's, which kept it. -/
def arrUnitOf (kept : List ArrUnit) (bs : List Byte) : Option ArrUnit :=
  let h := leNat (bs.take 8)
  let at_ (j : Nat) : Int := signExt (leNat ((bs.drop (8 * (j + 1))).take 8)) 64
  let u : ArrUnit :=
    { tile := h % 8, row := h / 2 ^ 3 % 64, src := h / 2 ^ 9 % 4, x := ⟨h / 2 ^ 11 % 8, BitVec.ofNat 32 (h / 2 ^ 32)⟩, seq := 0
      e := at_ 0, q := (List.range 64).map fun j => at_ (j + 1) }
  (kept.find? fun v => decide (v.tile = u.tile ∧ v.row = u.row ∧ v.src = u.src ∧ v.x = u.x ∧ v.e = u.e)).map fun v =>
    { u with seq := v.seq, kept := v.kept }

/-- The queued units of a save area go back to the queue of the core (R194). -/
def Core.loadUnits (k : Core) (bs : List Byte) : Core :=
  let us := (List.range 16).filterMap fun i => arrUnitOf k.away ((bs.drop (528 * i)).take 528)
  { k with arrq := k.arrq ++ us, away := k.away.filter fun v => !(us.any fun u => decide (u.x = v.x ∧ u.seq = v.seq ∧ u.tile = v.tile)) }

/-- A tile image. -/
def Tile.image (t : Tile) : List Byte :=
  ((List.range 64).flatMap fun i =>
    let r := t.row i
    leBytes 8 (encInt r.e 10 + bit r.unset 10) ++ (List.range 64).flatMap fun j => leBytes 8 (encInt (r.m.getD j 0) 64))
  ++ leBytes 8 t.loss ++ leBytes 8 (t.status false 0) ++ leBytes 8 t.check.toNat ++ zeros (0x80 - 24)
  ++ (t.log.toList.flatMap fun w => leBytes 8 w.toNat)
  ++ ((List.range 64).flatMap fun i => leBytes 4 (t.row i).max.toNat ++ leBytes 4 (t.row i).sum.toNat)
  ++ zeros 0x100

/-- A tile read back. -/
def tileOfImage (bs : List Byte) : Tile :=
  let at_ (o : Nat) : Nat := leNat ((bs.drop o).take 8)
  let tr := 64 * 520
  let st := at_ (tr + 8)
  { rows := (List.range 64).map fun i =>
      let o := 520 * i
      { e := signExt (at_ o % 2 ^ 10) 10, unset := decide (at_ o / 2 ^ 10 % 2 = 1)
        m := (List.range 64).map fun j => signExt (at_ (o + 8 + 8 * j)) 64
        max := BitVec.ofNat 32 (at_ (tr + 0x100 + 8 * i)), sum := BitVec.ofNat 32 (at_ (tr + 0x100 + 8 * i) / 2 ^ 32) }
    loss := at_ tr, log := Vector.ofFn fun i => w64 (at_ (tr + 0x80 + 8 * i.val)), nseq := BitVec.ofNat 16 (st / 2 ^ 48)
    ovf := decide (st / 2 ^ 40 % 2 = 1), chkerr := decide (st / 2 ^ 39 % 2 = 1), check := w64 (at_ (tr + 16)) }

/-- The tiles of a TILES grant. -/
def Bind.tileList (b : Bind) : List Nat := (List.range 8).filter fun t => b.tiles.getLsbD t

/-- The spans of a context's scratchpad windows: the region, and the shadow of a block-scaled one. -/
def winSpans (core : Nat) (wins : Vector Win 8) : List (Nat × Nat) :=
  wins.toList.flatMap fun w =>
    if w.kind = 1 then
      (w.addr core, w.len) :: (if blockFmt w.fmt ∧ 0 < regionElems w.fmt w.len then
        [(w.scaleAddr core, lastScale w.geo w.pitch (regionElems w.fmt w.len) + 1)] else [])
    else []

/-- Physical indices in order, as bytes. -/
def curImage (v : Vector Cur 5) : List Byte := v.toList.flatMap fun c => leBytes 4 c.word.toNat ++ leBytes 4 c.lit.toNat
def curOf (bs : List Byte) : Vector Cur 5 :=
  Vector.ofFn fun i => ⟨BitVec.ofNat 32 (leNat ((bs.drop (8 * i.val)).take 4)), BitVec.ofNat 32 (leNat ((bs.drop (8 * i.val + 4)).take 4))⟩

/-- The save-area image of a context (R220). -/
def State.saveImage (s : State) (core : Nat) (x : Fin 4) : List Byte :=
  let k := s.core core
  let c := k.ctx x
  let y := c.sys
  let r := c.regs
  let ws (l : List Word) : List Byte := bytesOf l
  ws r.s.toList
  ++ leBytes 8 ((r.p.toList.zipIdx.map fun p => bit p.1 p.2).sum + bit c.lsk 8 + bit c.plsk 9 + bit c.ppriv 10)
  ++ leBytes 4 c.pc.toNat ++ leBytes 4 c.lsa.toNat
  ++ ws r.m.toList ++ ws r.k.toList
  ++ ws [ctxstatAs c.stateField x y, y.epc.zeroExtend 64, y.cause.zeroExtend 64, y.faddr.zeroExtend 64, y.flags.zeroExtend 64
        , y.rmode.zeroExtend 64, y.fmode.zeroExtend 64, y.ecnt.zeroExtend 64, y.eres.zeroExtend 64
        , y.stream ++ 0#24 ++ y.seed, y.rcnt, y.lc.zeroExtend 64, y.nstg.zeroExtend 64, y.rot.zeroExtend 64, y.strv0, y.strv1
        , y.strl0, y.strl1, y.strx]
  ++ curImage c.cur ++ curImage c.tcur
  ++ leBytes 8 (match c.second with
      | some n => n.toNat + 2 ^ 10
      | none => 0)
  ++ leBytes 8 (min c.chest.length 144 + min c.tchest.length 144 * 2 ^ 16)
  ++ leBytes 8 y.seedsel.toNat ++ zeros 48
  ++ (r.v.toList.flatMap laneBytes)
  ++ chestImage c.chest ++ chestImage c.tchest
  ++ (if c.bind.mgrant then nestRecord k x else zeros 33056)
  ++ (let us := (k.unitOrder fun t => c.bind.tiles.getLsbD (t % 8)).take 16
      us.flatMap ArrUnit.image ++ zeros (528 * (16 - us.length)))
  ++ (c.bind.tileList.flatMap fun t => (k.tile t).image)
  ++ (winSpans core y.wins).flatMap fun p => s.mem.bytes p.1 p.2

/-- Every freeze writes the save area (R214, R220). An image that does not translate is not written. -/
def State.writeSave (s : State) (core : Nat) (x : Fin 4) : State :=
  let c := s.ctx core x
  match s.vwrite c.bind.asid.toNat c.bind.save.toNat (s.saveImage core x) with
  | .ok s => s
  | .error _ => s

/-- A trap's captured entries stand in the save area: the trap chest image and its count (R209, R214). -/
def State.writeTrapImage (s : State) (core : Nat) (x : Fin 4) : State :=
  let c := s.ctx core x
  let put (s : State) (off : Nat) (bs : List Byte) : State := match s.vwrite c.bind.asid.toNat (c.bind.save.toNat + off) bs with
    | .ok s => s
    | .error _ => s
  put (put s 0xBD80 (chestImage c.tchest)) 0x442 (leBytes 1 (min c.tchest.length 144))

/-- The bytes of the image before the scratchpad windows. -/
def saveLen (tiles : Nat) : Nat := 0x1F8A0 + 34304 * tiles

/-- Registers of an image. -/
def regsOf (bs : List Byte) : Regs :=
  let at_ (o : Nat) : Word := w64 (leNat ((bs.drop o).take 8))
  { s := Vector.ofFn fun i => at_ (8 * i.val), p := Vector.ofFn fun i => (at_ 0x100).getLsbD i.val
    m := Vector.ofFn fun i => at_ (0x110 + 8 * i.val), k := Vector.ofFn fun i => at_ (0x150 + 8 * i.val)
    v := Vector.ofFn fun i => bytesLanes ((bs.drop (0x480 + 256 * i.val)).take 256) }

/-- System registers of an image: PRIV is restored only inside a handler (R31). -/
def sysOf (bs : List Byte) (y : Sys) : Sys :=
  let at_ (i : Nat) : Word := w64 (leNat ((bs.drop (0x350 + 8 * i)).take 8))
  let st := at_ 0
  { y with
    brconf := st.getLsbD 0, wconf := st.getLsbD 1, coll := st.getLsbD 2, esat := st.getLsbD 3, intrap := st.getLsbD 10
    priv := if st.getLsbD 10 then st.getLsbD 11 else y.priv
    epc := (at_ 1).truncate 32, cause := (at_ 2).truncate 32, faddr := (at_ 3).truncate 55, flags := (at_ 4).truncate 6
    rmode := (at_ 5).truncate 3, fmode := (at_ 6).truncate 2, ecnt := (at_ 7).truncate 48, eres := (at_ 8).truncate 4
    stream := (at_ 9).extractLsb' 32 32, seed := (at_ 9).truncate 8, rcnt := at_ 10, lc := (at_ 11).truncate 32
    nstg := (at_ 12).truncate 3, rot := (at_ 13).truncate 4, strv0 := at_ 14, strv1 := at_ 15, strl0 := at_ 16, strl1 := at_ 17
    strx := at_ 18, seedsel := BitVec.ofNat 10 (leNat ((bs.drop 0x448).take 8)) }

/-- The nest record loaded into the core (R194). -/
def Core.loadNest (k : Core) (x : Fin 4) (bs : List Byte) : Core :=
  let at_ (o : Nat) : Nat := leNat ((bs.drop o).take 8)
  let act := nestTabOf (bs.take 128)
  let fl := at_ 0x108
  let b (i : Nat) : Bool := decide (fl / 2 ^ i % 2 = 1)
  let P := act.steps
  let c := act.stepClk
  let array := P * c * (if b 4 then 2 else 1)
  let remain := at_ 0x104 % 2 ^ 32
  let next := at_ 0x100 % 2 ^ 32 + (if b 0 then P else 0)
  let gone := array + 12 - remain
  let win (w : BitVec 3) : Win := (k.ctx x).sys.wins[(⟨w.toNat, w.isLt⟩ : Fin 8)]
  let n : Nest :=
    { ctx := x.val, tab := act, winA := win act.winA, winB := win act.winB, next := next, wait := next * c + 1 - gone
      remain := remain, array := array - gone, rotate := b 4, mirror := b 5, frozen := true, stopping := false, vals := []
      sums1 := if b 4 || b 5 then sumsOf (bs.drop 0x120) else [], sums2 := if b 4 then sumsOf (bs.drop (0x120 + 16384)) else [] }
  let d := k.ctx x
  let k := k.setCtx x { d with mirror := b 1, armed := b 2, chkcnt := BitVec.ofNat 16 (fl / 2 ^ 16), chkn := BitVec.ofNat 16 (fl / 2 ^ 32) }
  { k with active := act, shadow := nestTabOf ((bs.drop 128).take 128), nests := if b 3 then k.nests ++ [n] else k.nests }

/-- The bytes of a context's save area. -/
def State.saveSize (s : State) (core : Nat) (x : Fin 4) : Nat :=
  let c := s.ctx core x
  saveLen c.bind.tileList.length + ((winSpans core c.sys.wins).map Prod.snd).sum

/-- The registers, current operations and chests of a context as its save area holds them (R31, R220). -/
def Ctx.ofImage (c : Ctx) (bs : List Byte) : Ctx :=
  let at_ (o : Nat) : Word := w64 (leNat ((bs.drop o).take 8))
  let fl := at_ 0x100
  let cnt := at_ 0x440
  { c with
    regs := regsOf bs, sys := sysOf bs c.sys, pc := BitVec.ofNat 32 (fld (at_ 0x108) 0 32), lsa := BitVec.ofNat 32 (fld (at_ 0x108) 32 32)
    lsk := fl.getLsbD 8, plsk := fl.getLsbD 9, ppriv := fl.getLsbD 10, cur := curOf (bs.drop 0x3E8), tcur := curOf (bs.drop 0x410)
    second := if (at_ 0x438).getLsbD 10 then some ((at_ 0x438).truncate 10) else none
    chest := chestOf (bs.drop 0x2480) (fld cnt 0 8), tchest := chestOf (bs.drop 0xBD80) (fld cnt 16 8)
    reload := true, treload := false, ord := 256 }

/-- A save-area image loaded into a context whose bind record is in place (R276, R31). -/
def State.loadBytes (s : State) (core : Nat) (x : Fin 4) (bs : List Byte) : State :=
  let b := (s.ctx core x).bind
  let spans := winSpans core (s.ctx core x).sys.wins
  let s := s.setCtx core x ((s.ctx core x).ofImage bs)
  let s := if b.mgrant then s.setCore core (((s.core core).loadNest x (bs.drop 0x15680)).loadUnits (bs.drop 0x1D7A0)) else s
  let s := b.tileList.zipIdx.foldl (fun s t =>
    s.setCore core ((s.core core).setTile t.1 (tileOfImage ((bs.drop (0x1F8A0 + 34304 * t.2)).take 34304)))) s
  let r := spans.foldl (fun (a : State × List Byte) p =>
    ({ a.1 with mem := a.1.mem.write p.1 (a.2.take p.2) }, a.2.drop p.2)) (s, bs.drop (saveLen b.tileList.length))
  r.1

/-- A context that resumes in its place reads its save area (R220), but for the nest, units, tiles and windows: they stand in their
places, where transfers may have gone on with them. A sticky bit or flag that was set since the save stands, and a context whose area
cannot be read goes on from what the core holds (log 15). -/
def State.rereadSave (s : State) (core : Nat) (x : Fin 4) : State :=
  let c := s.ctx core x
  match s.vread c.bind.asid.toNat c.bind.save.toNat 0x15680 with
  | .error _ => s
  | .ok bs =>
    let d := c.ofImage bs
    s.setCtx core x { d with treload := c.treload, sys := { d.sys with
      brconf := d.sys.brconf || c.sys.brconf, wconf := d.sys.wconf || c.sys.wconf, coll := d.sys.coll || c.sys.coll
      esat := d.sys.esat || c.sys.esat, flags := d.sys.flags ||| c.sys.flags } }

/-- Contexts that resume in their places read their save areas. -/
def State.rereadAll (s : State) (ms : List (Nat × Fin 4)) : State := ms.foldl (fun s m => s.rereadSave m.1 m.2) s

/-- The save area of a bind record read and loaded; none when it cannot be read. -/
def State.loadSave (s : State) (core : Nat) (x : Fin 4) : Option State :=
  let b := (s.ctx core x).bind
  match s.vread b.asid.toNat b.save.toNat (s.saveSize core x) with
  | .error _ => none
  | .ok bs => some (s.loadBytes core x bs)

end Sys2Proof.Machine
end

