-- ==== Sys2Proof/Machine/Launch.lean ====
section
/-! DEFINITION. Launch records, task graphs and completion records (R259 to R266, R279 to R281, R362), and XLAUNCH. -/

namespace Sys2Proof.Machine

/-! ### Reaching clusters and launches -/

def State.entry (s : State) (q : Nat × Nat) : QueueEntry := Table.get {} (s.cluster q.1).queue q.2
/-- The number of a state (R268). -/
def EntryState.code : EntryState → Nat
  | .free => 0
  | .ready => 1
  | .claimed => 2
  | .stealing => 3
  | .bound => 4
  | .held => 5
  | .done => 6
/-- The eight words of an entry (R268). -/
def QueueEntry.words (e : QueueEntry) : List Word :=
  [w64 (e.gen.toNat * 2 ^ 48 + e.owner % 32 * 2 ^ 43 + e.st.code), e.wid,
   w64 (e.lnum % 2 ^ 32 * 2 ^ 32 + e.node % 2 ^ 16 * 2 ^ 16 + e.prio % 8 * 2 ^ 13 + bit e.gang 12 + bit e.vbnd 11 + bit e.rsm 10
     + bit e.mig 9 + bit e.prot 8), w64 e.enq, w64 (e.save % 2 ^ 55), 0, 0, 0]
/-- A 64-byte line of a cluster's vault that Vizin chose so that `n` lines fit between it and the park area (log 4). -/
def vaultLine (c choice n : Nat) : Nat :=
  vaultAddr (c / numClusters) (c % numClusters) + 64 * (choice % (parkBase / 64 - min n (parkBase / 64) + 1))
/-- Bytes [a, a + n) meet a vault window of a context, or its scale bytes (R26). -/
def State.windowed (s : State) (a n : Nat) : Bool :=
  s.cores.any fun e => (List.finRange 4).any fun x => (e.2.ctx x).sys.wins.toList.any fun w =>
    w.kind == 2 && (decide (w.addr e.1 < a + n ∧ a < w.addr e.1 + w.len)
      || (blockFmt w.fmt && decide (w.scaleAddr e.1 < a + n
        ∧ a ≤ w.scaleAddr e.1 + lastScale w.geo w.pitch (regionElems w.fmt w.len))))
/-- `n` lines of a vault that Vizin chose for its own use: the first, from a free choice on, that no context's window meets (R326, R327;
log 4). -/
def State.vaultSpace (s : State) (c choice n : Nat) : Nat :=
  (((List.range (parkBase / 64 / max n 1)).map fun k => vaultLine c (choice + k * n) n).find? fun a => !s.windowed a (64 * n)).getD
    (vaultLine c choice n)
/-- The address of a queue entry in its cluster's vault (R268). -/
def State.queueAddr (s : State) (q : Nat × Nat) : Nat := s.vaultSpace q.1 (freeVizin 10 q.1).toNat 256 + 64 * q.2
/-- A state word changes by a compare-and-swap, which steps GEN; the entry's words stand in the vault (R268). -/
def State.setEntry (s : State) (q : Nat × Nat) (e : QueueEntry) : State :=
  let e := { e with gen := (s.entry q).gen + 1 }
  { s.setCluster q.1 { s.cluster q.1 with queue := Table.put (s.cluster q.1).queue q.2 e } with
    mem := s.mem.write (s.queueAddr q) (bytesOf e.words)
    -- a reservation stands until its gang is BOUND (R271)
    dies := if e.st = .ready ∨ e.st = .claimed then s.dies else s.dies.map fun d =>
      (d.1, if d.2.reserved = some q then { d.2 with reserved := none } else d.2) }
/-- The slot-table entries that serve a queue entry. -/
def State.slotsOf (s : State) (q : Nat × Nat) : List (Nat × Nat) :=
  s.clusters.flatMap fun c => c.2.slots.filterMap fun sl => if sl.2.entry = some q then some (c.1, sl.1) else none
def State.launch? (s : State) (n : Nat) : Option Launch := s.launches.find? fun (l : Launch) => l.num == n
def State.setLaunch (s : State) (l : Launch) : State :=
  { s with launches := s.launches.map fun (k : Launch) => if k.num = l.num then l else k }
def State.subq (s : State) (q : Nat) : SubQueue := Table.get {} s.subqs q
def State.setSubq (s : State) (q : Nat) (x : SubQueue) : State := { s with subqs := Table.put s.subqs q x }

/-- The module-wide core of a slot-table entry, and its context (R273). -/
def slotCore (cluster entry : Nat) : Nat := numCores * cluster + entry / 4 % numCores
def slotCtx (entry : Nat) : Fin 4 := ctxNo entry

/-- The pair of a core is in service (R229). -/
def State.inService (s : State) (core : Nat) : Bool := !(s.pair (core / 2)).quar

/-! ### The launch record (R259, R260) -/

def lrPrio (r : List Word) : Nat := fld (wordAt r 0) 51 3
def lrClass (r : List Word) : Nat := fld (wordAt r 0) 54 2
def lrNf (r : List Word) : Nat := fld (wordAt r 0) 48 3
def lrW (r : List Word) (f : Nat) : Nat := fld (wordAt r 0) (7 * f) 7
def lrChkn (r : List Word) : Nat := fld (wordAt r 1) 48 16
def lrQuant (r : List Word) : Nat := fld (wordAt r 1) 32 16
def lrAsid (r : List Word) : Nat := fld (wordAt r 1) 0 16
def lrEbud (r : List Word) : Nat := fld (wordAt r 2) 0 48
def lrGraph (r : List Word) : Nat := fld (wordAt r 3) 0 55
def lrCmpl (r : List Word) : Nat := fld (wordAt r 4) 0 55
def lrCode (r : List Word) : Nat := fld (wordAt r 5) 0 55
def lrArgs (r : List Word) : Nat := fld (wordAt r 6) 0 55
def lrExt (r : List Word) (f : Nat) : Nat := (wordAt r (8 + f)).toNat
/-- The cluster set, ascending by module-wide number. -/
def lrSet (r : List Word) : List Nat :=
  (List.range numDies).flatMap fun d =>
    if (fld (wordAt r 7) 56 8).testBit d then (List.range numClusters).filterMap fun c =>
      if (fld (wordAt r 7) 0 24).testBit c then some (numClusters * d + c) else none
    else []
/-- The home cluster (R265). -/
def lrHome (r : List Word) : Nat := (lrSet r).headD 0
/-- The offset of field f in a work identifier. -/
def lrOff (r : List Word) (f : Nat) : Nat := ((List.range f).map (lrW r)).sum

def lrFieldsOk (r : List Word) : Bool :=
  decide (1 ≤ lrNf r ∧ lrNf r ≤ 6) && ((List.range 6).all fun f => if f < lrNf r then decide (1 ≤ lrW r f) else lrW r f == 0)
    && decide (lrOff r 6 ≤ 64)
def lrExtentsOk (r : List Word) : Bool :=
  (List.range 6).all fun f => if f < lrNf r then decide (1 ≤ lrExt r f ∧ lrExt r f ≤ min (2 ^ lrW r f) (2 ^ 63)) else lrExt r f == 0
def lrRsvOk (r : List Word) : Bool :=
  decide (lrClass r ≤ 1) && fld (wordAt r 0) 42 6 == 0 && fld (wordAt r 1) 16 16 == 0 && fld (wordAt r 2) 48 16 == 0
    && ([3, 4, 5, 6].all fun i => fld (wordAt r i) 55 9 == 0) && fld (wordAt r 7) 24 32 == 0 && wordAt r 14 == 0
    && fld (wordAt r 15) 8 16 == 0

/-! ### The graph (R263, R264) -/

/-- Nodes of a graph image. -/
def gCount (g : List Byte) : Nat := leNat (g.take 2)
def gRoot (g : List Byte) : Nat := leNat ((g.drop 2).take 2)
/-- The words of node n. -/
def gNode (g : List Byte) (n : Nat) : List Word := wordsOf 4 ((g.drop (64 + 32 * n)).take 32)

def nKind (w : List Word) : Nat := fld (wordAt w 0) 61 3
def nGang (w : List Word) : Bool := (wordAt w 0).getLsbD 60
def nVbnd (w : List Word) : Bool := (wordAt w 0).getLsbD 59
def nReex (w : List Word) : Bool := (wordAt w 0).getLsbD 58
def nProt (w : List Word) : Bool := (wordAt w 0).getLsbD 57
def nPred (w : List Word) : Nat := fld (wordAt w 0) 32 16
def nSucc1 (w : List Word) : Nat := fld (wordAt w 0) 16 16
def nSucc0 (w : List Word) : Nat := fld (wordAt w 0) 0 16
def nMask (w : List Word) (f : Nat) : Bool := (fld (wordAt w 1) 52 6).testBit f
def nPc (w : List Word) : Nat := fld (wordAt w 1) 0 32
def nCwi (w : List Word) : Nat := fld (wordAt w 1) 32 8
def nTest (w : List Word) : Nat := fld (wordAt w 1) 24 2
def nB (w : List Word) : Nat := fld (wordAt w 1) 16 6
def nBtpl (w : List Word) : Nat := fld (wordAt w 2) 0 32
def nPcw (w : List Word) : Nat := fld (wordAt w 2) 0 55
def nCap (w : List Word) : Nat := fld (wordAt w 2) 0 32
def noNode : Nat := 0xFFFF

/-- Node w obeys R264 in a graph of n nodes whose records are `nf` fields wide. -/
def nodeOk (n nf : Nat) (w : List Word) : Bool :=
  let succ (x : Nat) : Bool := decide (x < n)
  let only (i lo k : Nat) : Bool := fld (wordAt w i) lo k == 0
  wordAt w 3 == 0 && only 0 48 9 &&
    (match nKind w with
     | 0 => only 0 32 16 && only 1 32 20 && only 1 58 6 && only 2 32 32 && succ (nSucc0 w) && (succ (nSucc1 w) || nSucc1 w == noNode)
        && (!nGang w || (decide (2 ≤ nf) && nMask w 0)) && nBtpl w % 512 == 0 && decide (64 + 32 * n ≤ nBtpl w)
     | 1 => only 0 57 4 && only 0 32 16 && only 1 0 16 && only 1 22 2 && only 1 26 6 && only 1 40 24 && succ (nSucc0 w) && succ (nSucc1 w)
        && decide (nTest w ≤ 2) && (if nTest w = 2 then only 2 55 9 && decide (nB w ≤ 48) else wordAt w 2 == 0)
     | 2 => only 0 57 4 && only 0 32 16 && only 1 0 16 && only 1 22 2 && only 1 26 6 && only 1 40 24 && succ (nSucc0 w) && succ (nSucc1 w)
        && decide (nTest w ≤ 1) && only 2 32 32 && decide (1 ≤ nCap w)
     | 3 => only 0 57 4 && only 0 16 16 && wordAt w 1 == 0 && wordAt w 2 == 0 && succ (nSucc0 w) && decide (1 ≤ nPred w)
     | 4 => only 0 57 4 && only 0 0 48 && wordAt w 1 == 0 && wordAt w 2 == 0
     | _ => false)

def graphOk (g : List Byte) (nf : Nat) : Bool :=
  (g.drop 4).take 60 == zeros 60 && decide (gRoot g < gCount g) && (List.range (gCount g)).all fun n => nodeOk (gCount g) nf (gNode g n)

/-- The bytes of a graph image: header, nodes, and the templates that its TASK nodes name. -/
def State.readGraph (s : State) (asid va : Nat) : Except (Nat × Nat) (List Byte) := do
  let h ← s.vread asid va 64
  let g ← s.vread asid va (64 + 32 * gCount h)
  let n := (List.range (gCount g)).foldl (fun m i =>
    let w := gNode g i
    if nKind w = 0 then max m (nBtpl w + 512) else m) (64 + 32 * gCount g)
  s.vread asid va n

/-- Cores of a die on which a gang's members may be: leading cores in protected mode (R271). -/
def State.dieCores (s : State) (d : Nat) (prot : Bool) : Nat :=
  ((List.range 192).map fun p => if (s.pair (192 * d + p)).quar then 0 else if prot then 1 else 2).sum

/-- A gang of the graph is larger than every die of the set allows (reason 8). -/
def State.gangTooBig (s : State) (r : List Word) (g : List Byte) : Bool :=
  (List.range (gCount g)).any fun n =>
    let w := gNode g n
    nKind w == 0 && nGang w && !((List.range numDies).any fun d =>
      (lrSet r).any (fun c => c / numClusters == d) && decide (lrExt r 0 ≤ s.dieCores d (nProt w)))

/-- The checks of R261 on a record and its graph image: 0, or the reason of the first that fails. -/
def State.refusal (s : State) (r : List Word) (issuer : Option Nat) : Nat × List Byte :=
  let asid := lrAsid r
  let g := s.readGraph asid (lrGraph r)
  let gr := match g with
    | .ok g => g
    | .error _ => []
  let bad (r : Right) (va : Nat) : Bool := match s.walk asid va r with
    | .ok _ => false
    | .error _ => true
  let n :=
    if fld (wordAt r 0) 56 8 ≠ 1 then 1
    else if ¬ lrFieldsOk r then 2
    else if ¬ lrExtentsOk r then 3
    else if (match g with
      | .ok g => !graphOk g (lrNf r)
      | .error _ => false) then 4
    else if ¬ lrRsvOk r then 5
    else if ¬ (lrSet r).any (fun c => (List.range 8).any fun p => s.inService (numCores * c + 2 * p)) then 6
    else if (match issuer with
      | some a => a != asid
      | none => false) then 7
    else if s.gangTooBig r gr then 8
    else if lrGraph r % 64 ≠ 0 ∨ lrCmpl r % 64 ≠ 0 ∨ lrCode r % 4096 ≠ 0 ∨ lrArgs r % 2048 ≠ 0 ∨ bad .read (lrGraph r)
        ∨ bad .write (lrCmpl r) ∨ bad .code (lrCode r) ∨ bad .read (lrArgs r) ∨ gr = [] then 9
    else 0
  (n, gr)

/-! ### Completion records (R279, R280, R362) -/

/-- Bound contexts whose task belongs to a launch. -/
def State.boundOf (s : State) (num : Nat) : List (Nat × Fin 4) :=
  s.cores.flatMap fun e => (List.finRange 4).filterMap fun x =>
    let c := e.2.ctx x
    if c.bound ∧ (c.sys.taskid.extractLsb' 32 32).toNat = num then some (e.1, x) else none

/-- Queue entries of a launch. -/
def State.entriesOf (s : State) (num : Nat) : List ((Nat × Nat) × QueueEntry) :=
  s.clusters.flatMap fun e => e.2.queue.filterMap fun q => if q.2.st ≠ .free ∧ q.2.lnum = num then some ((e.1, q.1), q.2) else none

/-- The energy of the save areas of a launch's entries (R279). -/
def State.savedOf (s : State) (num : Nat) : Nat :=
  ((s.entriesOf num).map fun q => if q.2.rsm ∧ (q.2.st = .ready ∨ q.2.st = .held ∨ q.2.st = .claimed) then q.2.saved else 0).sum

/-- A context whose entry is not bound yet counts with its save area. -/
def State.loading (s : State) (core : Nat) (x : Fin 4) : Bool :=
  match (s.slot (clusterIndex core) (entryOf core x)).entry with
  | some q => (s.entry q).st == .claimed
  | none => false

/-- The spent energy of a launch (R279). -/
def State.spentOf (s : State) (l : Launch) : Nat :=
  l.spent + (((s.boundOf l.num).filter fun m => !s.loading m.1 m.2).map fun m => (s.ctx m.1 m.2).sys.ecnt.toNat).sum + s.savedOf l.num

/-- The words of a completion record. -/
def completionWords (num status : Nat) (caphit : Bool) (cause spent wacc wend : Nat) (wid taskid : Word) : List Word :=
  [w64 (num * 2 ^ 32 + status * 2 ^ 24 + bit caphit 16 + cause % 2 ^ 10), w64 (min spent (2 ^ 48 - 1)), w64 wacc, w64 wend, wid, taskid, 0, 0]

/-- The record's one write, as a system-scope release; a record that cannot be written is reported lost (R280). The vector of its queue is
raised (R404). -/
def State.writeCompletion (s : State) (asid cmpl num status : Nat) (queue : Option Nat) (ws : List Word) : State × Option (Nat × Nat) :=
  let s := s.settle.releaseSystem
  match s.vwrite asid cmpl (bytesOf ws) with
  | .ok s => (match queue with
      | some q => { s with msix := s.msix ++ [q] }
      | none => s, none)
  | .error e =>
    (match queue with
     | some q =>
       { s.setSubq q { s.subq q with lost := w64 (num * 2 ^ 32 + status * 2 ^ 24 + 1) } with msix := s.msix ++ [q] }
     | none => s, some e)


/-- The completion record of a launch with a status. -/
def State.record (s : State) (l : Launch) (status : Nat) : State × Option (Nat × Nat) :=
  let f := l.failed.getD (0, 0, 0)
  s.writeCompletion (lrAsid l.recd) (lrCmpl l.recd) l.num status l.queue
    (completionWords l.num status l.caphit (if status = 2 then f.1 else 0) (s.spentOf l) l.wacc s.wcc.toNat
      (if status = 2 then f.2.1 else 0) (if status = 2 then f.2.2 else 0))

/-- The fault records of a launch's tasks that traps have taken leave their buffers (R347). -/
def State.dropRecords (s : State) (num : Nat) : State :=
  { s with cores := s.cores.map fun e => (e.1, { e.2 with faults := e.2.faults.filter fun (r : FaultRec) =>
      !(r.taken && fld r.xf.taskid 32 32 == num) }) }

/-- The final record of a launch: the launch leaves flight, and an XLAUNCH that waits for it completes (R281). -/
def State.finalRecord (s : State) (l : Launch) (status : Nat) : State :=
  let r := s.record l status
  let s := { r.1.dropRecords l.num with launches := r.1.launches.filter fun (k : Launch) => k.num != l.num }
  match l.issuer with
  | some (core, x, true) =>
    (match (s.core core).xfer? x with
     | some t => (match r.2 with
       | some e => s.failXfer t e.1 (lrCmpl l.recd)
       | none => s.finish t)
     | none => s)
  | _ => s

/-- The transfers registered on tiles for the task of a context. -/
def Core.holds (k : Core) (x : Fin 4) (y : Xid) : Bool := k.regn.any fun r => r.ctx == x.val && k.stands r && decide (r.x = y)

/-- What a task leaves of the matrix unit as it goes: its nests are in its save area, and so are its queued units, which their
transfer units still count (R194, R220). -/
def Core.leave (k : Core) (x : Fin 4) : Core :=
  { k with nests := k.nests.filter fun n => n.ctx != x.val
           arrq := k.arrq.filter fun u => !k.holds x u.x
           away := k.away ++ k.arrq.filter fun u => k.holds x u.x }

/-- Registrations are released: the units of their transfers are kept no longer (R361). -/
def Core.dropRegs (k : Core) (gone : Xid → Bool) : Core :=
  { k with
    regn := k.regn.filter fun r => !gone r.x
    arrq := k.arrq.filter fun u => !gone u.x
    retry := k.retry.filter fun u => !gone u.x
    away := k.away.filter fun u => !gone u.x }

/-- A context loses its task: nothing of it issues. -/
def State.unbind (s : State) (core : Nat) (x : Fin 4) (tout : SlotStatus) : State :=
  let k := (s.core core).leave x
  let c := k.ctx x
  let k := (k.setCtx x { c with bound := false, started := false, frozen := .none, wantF := none, ended := none, run := none, report := none
                                region := false, arrived := false, release := none, saveIn := none, tsaveIn := none, resumeIn := none, wait := [] }).release x
  let s := s.setCore core k
  let cl := clusterIndex core
  s.setSlot cl (entryOf core x) { s.slot cl (entryOf core x) with dst := tout, entry := none }

/-- A CLAIMED entry gives up the places its members were being loaded into. -/
def State.unclaim (s : State) (q : Nat × Nat) : State :=
  (s.slotsOf q).foldl (fun s m => s.unbind (slotCore m.1 m.2) (slotCtx m.2) .empty) s

/-- The task has ended or failed: Vizin deletes the HIBLIST entries it keeps for it (R432). -/
def State.dropKept (s : State) (wid taskid : Word) : State :=
  let mine (e : HibKept) : Bool := e.wid == wid && e.taskid == taskid
  { s with hiblist := (s.kept.filter mine).foldl (fun h e => Table.put h e.index {}) s.hiblist
           kept := s.kept.filter fun e => !mine e }

/-- A context whose launch is over gives its task up: its energy stays spent (R279), its registrations are released (R361), and
with the last member its entry is freed. -/
def State.dropTask (s : State) (core : Nat) (x : Fin 4) : State :=
  let k := s.core core
  let c := k.ctx x
  let q := (s.slot (clusterIndex core) (entryOf core x)).entry
  let s := match s.launch? (fld c.sys.taskid 32 32) with
    | some l => s.setLaunch { l with spent := l.spent + c.sys.ecnt.toNat }
    | none => s
  let s := ((s.setCore core (k.dropRegs (k.holds x))).unbind core x .empty).dropKept c.sys.wid c.sys.taskid
  match q with
  | none => s
  | some q => if s.slotsOf q = [] then s.setEntry q { s.entry q with st := .free, live := 0, home := [] } else s

/-- The HIBLIST entries kept for the tasks of a launch that no context holds (R432). -/
def State.dropAway (s : State) (num : Nat) : State :=
  let away (k : HibKept) : Bool := fld k.taskid 32 32 == num
    && !(s.boundOf num).any fun m => (s.ctx m.1 m.2).sys.wid == k.wid && (s.ctx m.1 m.2).sys.taskid == k.taskid
  (s.kept.filter away).foldl (fun s k => s.dropKept k.wid k.taskid) s

/-- A launch is over before its end: entries that no context holds are freed, and its walks end. Its contexts are frozen and saved,
and given up then (R279, R280, R326). -/
def State.clearLaunch (s : State) (num : Nat) : State :=
  let s := match s.launch? num with
    | some l => s.setLaunch { l with spent := l.spent + s.savedOf num }
    | none => s
  let s := ((s.entriesOf num).filter fun q => q.2.st != .bound).foldl (fun s q =>
    (s.unclaim q.1).setEntry q.1 { q.2 with st := .free, live := 0, home := [] }) s
  let s := (s.boundOf num).foldl (fun s m =>
    let c := s.ctx m.1 m.2
    if c.frozen = .none then s.wantFreeze m.1 m.2 .hold else if c.saveIn.isSome then s else s.dropTask m.1 m.2) s
  -- registrations of tasks that have left their contexts
  let s := s.cores.foldl (fun s e => s.setCore e.1 ((s.core e.1).dropRegs fun y => (s.core e.1).xfers.any fun (t : Xfer) =>
    decide (t.x = y) && (t.taskid.extractLsb' 32 32).toNat == num && !(s.boundOf num).any fun m => m.1 == e.1 && m.2.val == t.ctx)) s
  { s.dropAway num with clusters := s.clusters.map fun e => (e.1, { e.2 with walk := e.2.walk.filter fun (w : Walk) => w.lnum != num }) }

/-- A launch fails with status 2 (R280): its record is written once its tasks are saved and its transfers are done. -/
def State.failLaunch (s : State) (num cause : Nat) (wid taskid : Word) : State :=
  match s.launch? num with
  | some l =>
    -- causes of class 6 are RAS failures (R394)
    let s := if l.failed.isNone ∧ cause / 128 = 6 then { s with power := { s.power with ras := s.power.ras ++ [s.wcc.toNat] } } else s
    (s.setLaunch { l with failed := l.failed.or (some (cause, wid, taskid)), pending := [], held := false, due := false }).clearLaunch num
  | none => s

/-! ### Acceptance (R261, R262) -/

/-- Where Vizin copies the graph of a launch in the vault of its home cluster (R264). -/
def State.graphAddr (s : State) (r : List Word) (g : List Byte) (num : Nat) : Nat := s.vaultSpace (lrHome r) (freeVizin 9 num).toNat ((g.length + 63) / 64)

/-- An accepted launch (R261): its graph stands in the vault of its home cluster (R264), and ROOT is to be activated (R265). -/
def State.accepted (s : State) (r : List Word) (g : List Byte) (queue : Option Nat) (issuer : Option (Nat × Xid × Bool)) : State :=
  let pol := match queue with
    | some q => (s.subq q).ckpol
    | none => 0
  let l : Launch :=
    { num := s.lnext, queue := queue, issuer := issuer, recd := r, graph := g, pending := [gRoot g], budget := lrEbud r
      wacc := s.wcc.toNat, ckpt := { pol := pol, last := s.wcc.toNat } }
  { s with launches := s.launches ++ [l], lnext := (s.lnext + 1) % 2 ^ 32, ten := { s.ten with used := true }
           mem := s.mem.write (s.graphAddr r g s.lnext) g }

/-- Word 15 of an accepted or refused record. -/
def word15 (lnum : Nat) (reason : Nat) : Word := w64 (lnum * 2 ^ 32 + (if reason = 0 then 1 else 2) * 2 ^ 24 + reason)

/-- A refused launch writes a record with status 4 (R261). DESIGN CHOICE (log 66): WACC is the WCC of the refusal. -/
def State.refuse (s : State) (r : List Word) (queue : Option Nat) : State :=
  (s.writeCompletion (lrAsid r) (lrCmpl r) (fld (wordAt r 15) 32 32) 4 queue
    (completionWords (fld (wordAt r 15) 32 32) 4 false 0 0 s.wcc.toNat s.wcc.toNat 0 0)).1

/-- The ring lies wholly in the HBM ranges of R337, which follow one another (R262). -/
def SubQueue.inHbm (q : SubQueue) : Bool := decide (128 * q.base + 128 * q.size ≤ 8 * hbmSize)

/-- A record of a ring that Vizin can read and write: it lies in memory of the module or its host. -/
def ringReadable (a : Nat) : Bool :=
  match placeOf a with
  | .nowhere | .peer _ _ => false
  | _ => true

/-- SUBMIT_DOORBELL (R262): indices run modulo 4,096. -/
def execSubmitDoorbell (s : State) : Out :=
  let q := s.subq s.ev.queue
  let tail := s.ev.index % 4096
  .next (if s.ten.go ∨ q.size = 0 ∨ q.size < (tail + 4096 - q.head) % 4096 then s else s.setSubq s.ev.queue { q with tail := tail })

/-- A record's graph image or completion record lies in a die at retention: Vizin waits (R374). -/
def State.recordWaits (s : State) (r : List Word) : Bool :=
  s.vwaits (lrAsid r) (lrGraph r) 64 .read || s.vwaits (lrAsid r) (lrCmpl r) 64 .write

/-- One record of a submission queue is accepted or refused. -/
def State.acceptQueue (s : State) (qn : Nat) : State :=
  let q := s.subq qn
  if q.size = 0 ∨ q.head = q.tail ∨ s.launches.length ≥ 4096 then s
  else
    let next := { q with head := (q.head + 1) % 4096, torn := q.torn && decide ((q.head + 1) % 4096 ≠ q.tail) }
    let s := s.settle.setSubq qn next
    let a := 128 * q.base + 128 * (q.head % q.size)
    if ¬ q.inHbm ∧ ¬ ringReadable a then s
    else if s.asleep (placeOf a) ∨ s.recordWaits (s.mem.words a 16) then s.setSubq qn q
    else
      let r := s.mem.words a 16
      let v := if q.torn ∨ ¬ q.inHbm then (9, []) else s.refusal r none
      let put (s : State) (w : Word) : State := { s with mem := s.mem.putWord (a + 120) w }
      if v.1 = 0 then (put s (word15 s.lnext 0)).accepted r v.2 (some qn) none
      else (put s (word15 (fld (wordAt r 15) 32 32) v.1)).refuse r (some qn)

/-- A record of an XLAUNCH cannot be reached: its token ends with the fault, or waits its retained-wait rounds (R374). -/
def State.xlaunchStop (s : State) (t : Xfer) (e : Nat × Nat) : State := s.stopped t e.2 (mapStop e.1 e.2)

/-- The submission of an XLAUNCH that has started (R281). DESIGN CHOICE (log 66): a record that can be read and not written ends the token
with the write's fault, and the launch is neither accepted nor refused. -/
def State.acceptXlaunch (s : State) (t : Xfer) : State :=
  if s.launches.length ≥ 4096 then s
  else
    let va := (wordAt t.args 0).toNat
    let s := s.settle
    match s.vwords t.asid va 16 with
    | .error e => s.xlaunchStop t e
    | .ok r =>
      if s.recordWaits r then s.xlaunchStop t (0x282, lrGraph r)
      else
      let wait := decide (litOpt t.lit % 2 = 1)
      let v := s.refusal r (some t.asid)
      match s.vwrite t.asid (va + 120) (leBytes 8 (word15 (if v.1 = 0 then s.lnext else fld (wordAt r 15) 32 32) v.1).toNat) with
      | .error e => s.xlaunchStop t e
      | .ok s' =>
        if v.1 ≠ 0 then (s'.refuse r none).finish t
        else
          let s := s'.accepted r v.2 none (some (t.core, t.x, wait))
          if wait then s.pieceDone t 0 else s.finish t

/-- The XLAUNCH transfers that have started and not submitted, by core. -/
def State.xlaunches (s : State) : List Xfer :=
  s.cores.flatMap fun e => e.2.xfers.filter fun (t : Xfer) =>
    (t.op matches .xlaunch _ _ _ _) && t.phase == .started && !t.cut && !t.pieces.contains 0

/-- LAUNCH_ACCEPT (R261): the next record of a submission queue; above the 64 queues, the next XLAUNCH. -/
def execLaunchAccept (s : State) : Out :=
  .next (if s.ten.go then s
    else if s.ev.queue < 64 then s.acceptQueue s.ev.queue
    else match s.xlaunches.head? with
      | some t => s.acceptXlaunch t
      | none => s)

/-! ### Activation (R265, R266) -/

/-- Instances of a launch that have been activated and have not completed. -/
def Launch.liveCount (l : Launch) : Nat := (l.nodes.map fun n => n.2.live).sum

def Launch.node (l : Launch) (n : Nat) : NodeState := Table.get {} l.nodes n
def Launch.setNode (l : Launch) (n : Nat) (x : NodeState) : Launch := { l with nodes := Table.put l.nodes n x }
/-- Node n joins those to activate. -/
def Launch.activate (l : Launch) (n : Nat) : Launch := { l with pending := l.pending ++ [n] }

/-- The sizes of the fields an activation ranges over: field 0 of a gang counts once (R267). -/
def instDims (r : List Word) (w : List Word) : List Nat :=
  (List.range (lrNf r)).map fun f => if nMask w f ∧ ¬ (nGang w ∧ f = 0) then lrExt r f else 1
/-- The queue entries of an activation. -/
def instTotal (r w : List Word) : Nat := (instDims r w).foldl (· * ·) 1

/-- The work identifier of instance j, field 0 counting fastest. -/
def instWid (r w : List Word) (j : Nat) : Word :=
  w64 ((List.range (lrNf r)).foldl (fun (a : Nat × Nat) f =>
    (a.1 + a.2 % (instDims r w).getD f 1 * 2 ^ lrOff r f, a.2 / (instDims r w).getD f 1)) (0, j)).1

/-- A pending node of a kind that an event activates. -/
def State.pendingNode (s : State) (kind : Nat) : Option (Launch × List Word) :=
  match s.launch? s.ev.lnum with
  | some l =>
    let w := gNode l.graph s.ev.node
    if l.pending.contains s.ev.node ∧ nKind w = kind ∧ l.failed.isNone then some ({ l with pending := l.pending.erase s.ev.node }, w) else none
  | none => none

/-- TASK_NODE_ACTIVATE (R265, R267). -/
def execTaskNodeActivate (s : State) : Out :=
  .next (match s.pendingNode 0 with
    | none => s
    | some (l, w) =>
      if (l.node s.ev.node).live ≠ 0 then s.failLaunch l.num 0 0 0
      else
        let set := if nMask w (lrNf l.recd - 1) then lrSet l.recd else [lrHome l.recd]
        let s := s.setLaunch (l.setNode s.ev.node { l.node s.ev.node with opened := true, live := instTotal l.recd w })
        set.foldl (fun s c => s.setCluster c { s.cluster c with walk := (s.cluster c).walk ++ [⟨l.num, s.ev.node, 0⟩] }) s)

/-- The test of a COND or WHILE node (R263, R266): DONE counts as P planes and CUT as the count held. -/
def State.nodeTest (s : State) (l : Launch) (w : List Word) : Except (Nat × Nat) Bool := do
  if nTest w = 2 then
    let c : W32 := BitVec.ofNat 32 (leNat (← s.vread (lrAsid l.recd) (nPcw w) 4))
    return decide (nB w ≤ (if c.getLsbD 31 then counterP c else counterC c))
  else
    let cw ← s.vwords (lrAsid l.recd) (lrArgs l.recd + 8 * nCwi w) 1
    return if nTest w = 0 then wordAt cw 0 != 0 else (wordAt cw 0).getLsbD (nB w)

/-- COND_NODE_ACTIVATE (R265): evaluated once every earlier instance has completed (R266). -/
def execCondNodeActivate (s : State) : Out :=
  .next (match s.pendingNode 1 with
    | none => s
    | some (l, w) =>
      if l.liveCount ≠ 0 then s
      else match s.nodeTest l w with
        | .ok b => s.setLaunch (l.activate (if b then nSucc0 w else nSucc1 w))
        | .error e => s.failLaunch l.num e.1 0 0)

/-- WHILE_NODE_ACTIVATE (R265). -/
def execWhileNodeActivate (s : State) : Out :=
  .next (match s.pendingNode 2 with
    | none => s
    | some (l, w) =>
      let n := l.node s.ev.node
      if l.liveCount ≠ 0 then s
      else match s.nodeTest l w with
        | .ok b =>
          s.setLaunch (if b ∧ n.count < nCap w then (l.setNode s.ev.node { n with count := n.count + 1 }).activate (nSucc0 w)
            else ({ l with caphit := l.caphit || b }.setNode s.ev.node { n with count := 0 }).activate (nSucc1 w))
        | .error e => s.failLaunch l.num e.1 0 0)

/-- JOIN_NODE_ACTIVATE (R265). -/
def execJoinNodeActivate (s : State) : Out :=
  .next (match s.pendingNode 3 with
    | none => s
    | some (l, w) =>
      let n := l.node s.ev.node
      s.setLaunch (if n.count + 1 ≥ nPred w then (l.setNode s.ev.node { n with count := 0 }).activate (nSucc0 w)
        else l.setNode s.ev.node { n with count := n.count + 1 }))

/-- END_NODE_ACTIVATE (R265): a second activation fails the launch. -/
def execEndNodeActivate (s : State) : Out :=
  .next (match s.pendingNode 4 with
    | none => s
    | some (l, _) => if l.ended then s.failLaunch l.num 0 0 0 else s.setLaunch { l with ended := true })

/-- An instance of a node has completed: the last of an activation activates the successors (R265). -/
def State.instanceDone (s : State) (num node : Nat) : State :=
  match s.launch? num with
  | some l =>
    let n := l.node node
    let w := gNode l.graph node
    let l := l.setNode node { n with live := n.live - 1 }
    s.setLaunch (if n.live = 1 then
        let l := l.activate (nSucc0 w)
        if nSucc1 w ≠ noNode then l.activate (nSucc1 w) else l
      else l)
  | none => s

/-! ### Completion and holding (R279, R280) -/

/-- Transfers of a launch's tasks are in flight, or WM has still to pass the identifier of one (R362). -/
def State.launchBusy (s : State) (num : Nat) : Bool :=
  s.cores.any fun e => (e.2.xfers.any fun (t : Xfer) => (t.taskid.extractLsb' 32 32).toNat == num)
    || e.2.chans.toList.any fun c => c.whose.any fun w => fld w.2 32 32 == num

/-- A fault that fails a launch (R349, R364): a transfer fault that has been taken, other than translation-absent at an address that
Vizin manages (`elsewhere` says that it does not), or a freeze for an error that no other rule mends. A mismatch of a re-executable
task is mended by its third run (R228). -/
def State.fatal (s : State) (num : Nat) (elsewhere : Bool) : Option (Nat × Word × Word) :=
  ((s.cores.flatMap fun e => e.2.faults).findSome? fun (r : FaultRec) =>
      if r.taken ∧ (r.code ≠ 0x087 ∨ elsewhere) ∧ (r.xf.taskid.extractLsb' 32 32).toNat = num then some (r.code, r.xf.wid, r.xf.taskid)
      else none).or
  ((s.boundOf num).findSome? fun m =>
    let c := s.ctx m.1 m.2
    let code := (c.sys.cause.extractLsb' 0 10).toNat
    if c.frozen = .trap ∧ c.saveIn.isNone ∧ (c.second.isSome
        ∨ ¬ (code = 0x281 ∨ code = 0x383 ∨ (code = 0x309 ∧ c.bind.reex ∧ (s.pair (m.1 / 2)).watch.isNone))) then
      some (match c.second with
        | some n => n.toNat
        | none => code, c.sys.wid, c.sys.taskid)
    else none)

/-- The record with status 3 of a held launch (R279); its loss fails an XLAUNCH that waits (R280). -/
def State.heldRecord (s : State) (l : Launch) : State :=
  let r := s.record l 3
  let s := r.1.setLaunch { l with due := false }
  match r.2, l.issuer with
  | some e, some (core, x, true) =>
    (match (s.core core).xfer? x with
     | some t => s.failXfer t e.1 (lrCmpl l.recd)
     | none => s)
  | _, _ => s

/-- COMPLETION_RECORD (R280, R362): the launch is held, has failed, was aborted, has completed, or can reach no END. Its record is
written once its tasks are saved and its transfers have performed. -/
def execCompletionRecord (s : State) : Out :=
  .next (match s.launch? s.ev.lnum with
    | none => s
    | some l =>
      let s := match (if l.failed.isNone ∧ ¬ l.aborted then s.fatal l.num s.ev.flag else none) with
        | some f => s.failLaunch l.num f.1 f.2.1 f.2.2
        | none => s
      match s.launch? s.ev.lnum with
      | none => s
      | some l =>
        if s.launchBusy l.num ∨ s.vwaits (lrAsid l.recd) (lrCmpl l.recd) 64 .write then s
        else if l.failed.isSome ∨ l.aborted then
          (if s.boundOf l.num = [] then s.finalRecord l (if l.aborted then 5 else 2) else s)
        else if l.due ∧ (s.boundOf l.num).all (fun m => (s.ctx m.1 m.2).frozen != .none && (s.ctx m.1 m.2).saveIn.isNone) then s.heldRecord l
        else if l.ended ∧ l.liveCount = 0 then s.finalRecord l 1
        else if l.pending = [] ∧ l.liveCount = 0 ∧ ¬ l.ended then (s.setLaunch { l with failed := some (0, 0, 0) }).finalRecord
          { l with failed := some (0, 0, 0) } 2
        else s)

/-- The launch's spent energy has reached its budget, or a task of it froze for its ceiling (R279). -/
def State.overBudget (s : State) (l : Launch) : Bool :=
  decide (0 < l.budget) && (decide (l.budget ≤ s.spentOf l) || (s.boundOf l.num).any fun m =>
    let c := s.ctx m.1 m.2
    c.frozen == .trap && c.sys.cause.extractLsb' 0 10 == 0x281#10)

/-- A frozen context is held as it stands: not one that froze for an error that fails its launch or runs its task again (R228, R364). -/
def Ctx.mayHold (c : Ctx) : Bool :=
  c.frozen != .trap || (c.second.isNone && (c.sys.cause.extractLsb' 0 10 == 0x281#10 || c.sys.cause.extractLsb' 0 10 == 0x383#10))

/-- LAUNCH_HOLD (R279): entries become HELD, those being loaded too; running tasks freeze, and a record with status 3 is to be
written. A task that its ceiling, its gang or a park froze is held as well. -/
def execLaunchHold (s : State) : Out :=
  .next (match s.launch? s.ev.lnum with
    | none => s
    | some l =>
      if l.held ∨ l.failed.isSome ∨ ¬ s.overBudget l then s
      else
        let s := (s.entriesOf l.num).foldl (fun s q =>
          if q.2.st = .ready then s.setEntry q.1 { q.2 with st := .held }
          else if q.2.st = .claimed then (s.unclaim q.1).setEntry q.1 { q.2 with st := .held, live := 0 }
          else s) s
        let s := (s.boundOf l.num).foldl (fun s m =>
          let c := s.ctx m.1 m.2
          if c.frozen = .none then s.wantFreeze m.1 m.2 .hold
          else if c.mayHold then s.setCtx m.1 m.2 { c with frozen := .hold } else s) s
        s.setLaunch { l with held := true, due := true })

/-- The held launch that a write of LCTL names (R262). -/
def State.heldLaunch (s : State) : Option Launch :=
  match s.launch? s.ev.lnum with
  | some l => if l.held then some l else none
  | none => none

/-- A task that was to be held, or is held in its context still, goes back to the queue as a pre-empted one does, or stays frozen
with its parked die. -/
def Ctx.unheld (c : Ctx) (parked : Bool) : Ctx :=
  { c with frozen := if c.frozen = .hold then (if parked then .park else .preempt) else c.frozen
           wantF := if c.wantF = some .hold then some .preempt else c.wantF }

/-- LAUNCH_CONTINUE (R279). -/
def execLaunchContinue (s : State) : Out :=
  .next (match s.heldLaunch with
    | some l =>
      let s := s.setLaunch { l with held := false, budget := l.budget + (s.subq s.ev.queue).lbud }
      let s := (s.boundOf l.num).foldl (fun s m =>
        s.setCtx m.1 m.2 ((s.ctx m.1 m.2).unheld (!(s.die (dieOf m.1)).awake))) s
      (s.entriesOf l.num).foldl (fun s q => if q.2.st = .held then s.setEntry q.1 { q.2 with st := .ready, enq := s.wcc.toNat } else s) s
    | none => s)

/-- A transfer that is discarded: it performs no more of itself, and the tile of an XMVB is restored (R328, R361, R387); it leaves once
what it has sent is answered (R362). -/
def State.discard (s : State) (t : Xfer) : State :=
  let k := s.core t.core
  let k := if (t.op matches .xmvb _ _ _ _) then k.mvRestore t else k
  let s := ((s.setCore t.core (k.dropRegs fun y => decide (y = t.x))).dropStatus t).forget t
  let t := { t with phase := .waiting, err := none, dst := none, out := [], commit := [] }
  if s.awaiting t ∨ s.undelivered t then s.updXfer t else s.completeXfer t

/-- LAUNCH_ABORT (R279): the launch's transfers in flight are discarded (R328), its entries are freed, and a record with status 5 is
to be written. -/
def execLaunchAbort (s : State) : Out :=
  .next (match s.heldLaunch with
    | some l =>
      let ts := s.cores.flatMap fun e => e.2.xfers.filter fun (t : Xfer) => (t.taskid.extractLsb' 32 32).toNat == l.num
      let s := ts.foldl State.discard s
      (s.setLaunch { l with held := false, due := false, aborted := true, pending := [] }).clearLaunch l.num
    | none => s)

/-! ### XLAUNCH (R281) -/

/-- The checks of XLAUNCH over every issue. -/
def xlaunchFault (a : BitVec 5) (s : State) : Option Trap :=
  ((s.basesX a).findSome? fun o => if o ≥ 2 ^ 55 ∨ o % 128 ≠ 0 then xTrap 0x08B 0 else none).or (limitFault s)

/-- XLAUNCH captures its address. -/
def actXlaunch (tg : Tag) (kd : BitVec 6) (a : BitVec 5) (l : BitVec 4) : State → State := xtOp (.xlaunch tg kd a l) tg kd a l
/-- XLAUNCH (R281), issued alone. -/
def execXlaunch (tg : Tag) (kd : BitVec 6) (a : BitVec 5) (l : BitVec 4) (s : State) : Out :=
  .next (s.issueSyl (.xlaunch tg kd a l) 7 (litOk (.xlaunch tg kd a l) l 1) (xlaunchFault a) (actXlaunch tg kd a l))

end Sys2Proof.Machine
end

