-- ==== Sys2Proof/Machine/Sched.lean ====
section
/-! DEFINITION. From the walker to the first issue, and from TEND to the end of an instance: enumeration (R267, R268),
binding (R269 to R271), work stealing (R272), bind records and dispatch (R273 to R276), code pages (R89), pre-emption
(R277) and completion of a task (R121). -/

namespace Sys2Proof.Machine

/-! ### What Vizin chooses (log 4) -/

/-- The next value that Vizin chooses of a kind. -/
def State.vizin (s : State) (kind : Nat) : Word × State := (freeVizin kind s.free, { s with free := s.free + 1 })
/-- TVEC of a launch's tasks: a multiple of 4. -/
def tvecOf (lnum : Nat) : W32 := (freeVizin 1 lnum).truncate 32 &&& 0xFFFFFFFC#32
/-- The save area of member i of an entry: the entry's own for member 0. -/
def memberSave (save i : Nat) : Nat := if i = 0 then save else (freeVizin 5 (512 * save + i)).toNat % 2 ^ 55

/-! ### Enumeration (R267, R268) -/

def queueSize : Nat := 256
/-- The lowest FREE entry of a cluster's queue. -/
def State.freeEntry (s : State) (c : Nat) : Option Nat :=
  (List.range queueSize).find? fun i => (s.entry (c, i)).st == .free

/-- The first instance from `j` on that belongs to place `pos` of `m` clusters: blocks of `low` instances share a value of
the top field. -/
def seekInst (total low m pos j : Nat) : Option Nat :=
  let v := j / low
  let k := if v % m = pos then j else low * (v + (pos + m - v % m) % m)
  if k < total then some k else none

/-- The next instance of a walk at a cluster. -/
def State.walkNext (s : State) (c : Nat) (w : Walk) : Option (Launch × List Word × Nat) :=
  match s.launch? w.lnum with
  | none => none
  | some l =>
    let n := gNode l.graph w.node
    let top := lrNf l.recd - 1
    let set := if nMask n top then lrSet l.recd else [lrHome l.recd]
    let dims := instDims l.recd n
    (seekInst (instTotal l.recd n) ((dims.take top).foldl (· * ·) 1) set.length (set.findIdx (· == c)) w.next).map fun j => (l, n, j)

/-- INSTANCE_ENQUEUE (R267): the first walk of the cluster enqueues its next instance; one with no instance left ends. -/
def execInstanceEnqueue (s : State) : Out :=
  let c := s.ev.cluster
  let cl := s.cluster c
  .next (match cl.walk with
    | [] => s
    | w :: rest =>
      match s.walkNext c w with
      | none => s.setCluster c { cl with walk := rest }
      | some (l, n, j) =>
        match s.freeEntry c with
        | none => s
        | some i =>
          let v := s.vizin 0
          let e : QueueEntry :=
            { st := .ready, wid := instWid l.recd n j, lnum := l.num, node := w.node, prio := lrPrio l.recd, gang := nGang n
              vbnd := nVbnd n, prot := nProt n, enq := s.wcc.toNat, save := v.1.toNat % 2 ^ 55 }
          (v.2.setCluster c { cl with walk := { w with next := j + 1 } :: rest }).setEntry (c, i) e)

/-! ### The bind record (R273, R274) -/

/-- A bind record's eight words. -/
def Bind.recordWords (b : Bind) : List Word :=
  [b.wid, b.taskid, b.startscc, w64 (b.quant.toNat * 2 ^ 48 + b.ebud.toNat),
   w64 (bit b.v 63 + b.prio.toNat * 2 ^ 60 + bit b.priv 59 + bit b.prot 58 + b.cls.toNat * 2 ^ 56 + bit b.reex 55 + bit b.vbnd 54
     + bit b.gang 53 + b.tline.toNat * 2 ^ 48 + b.gangid.toNat * 2 ^ 32 + b.gsize.toNat * 2 ^ 23 + b.gmem.toNat * 2 ^ 14
     + b.ctx.toNat * 2 ^ 12 + b.core.toNat * 2 ^ 8 + bit b.rsm 7),
   w64 (b.chkn.toNat * 2 ^ 48 + b.tiles.toNat * 2 ^ 40 + bit b.mgrant 39 + b.pc.toNat), w64 (b.ext.toNat * 2 ^ 40), 0]

/-- The bind extension's 512 bytes. -/
def Bind.extBytes (b : Bind) : List Byte :=
  bytesOf (b.wins.toList.flatMap fun w => [w.w0, w.w1]) ++ bytesOf b.lres.toList ++ leBytes 8 b.tvec.toNat ++ leBytes 8 b.save.toNat
    ++ leBytes 8 b.asid.toNat ++ zeros 8 ++ (b.map.toList.flatMap fun m => leBytes 4 m.toNat)
    ++ leBytes 8 (bit b.mgrant 8 + b.tiles.toNat) ++ leBytes 8 b.dimg.toNat ++ leBytes 8 (b.dlen.toNat * 2 ^ 32 + b.doff.toNat) ++ zeros 168

/-- A bind record and its extension read by field. -/
def bindOf (r : Vector Word 8) (x : List Byte) : Bind :=
  let at_ (o : Nat) : Word := w64 (leNat ((x.drop o).take 8))
  let w (i : Fin 8) : Word := r[i]
  { wid := w 0, taskid := w 1, startscc := w 2, quant := BitVec.ofNat 16 (fld (w 3) 48 16), ebud := BitVec.ofNat 48 (fld (w 3) 0 48)
    v := (w 4).getLsbD 63, prio := BitVec.ofNat 3 (fld (w 4) 60 3), priv := (w 4).getLsbD 59, prot := (w 4).getLsbD 58
    cls := BitVec.ofNat 2 (fld (w 4) 56 2), reex := (w 4).getLsbD 55, vbnd := (w 4).getLsbD 54, gang := (w 4).getLsbD 53
    tline := BitVec.ofNat 5 (fld (w 4) 48 5), gangid := BitVec.ofNat 16 (fld (w 4) 32 16), gsize := BitVec.ofNat 9 (fld (w 4) 23 9)
    gmem := BitVec.ofNat 9 (fld (w 4) 14 9), ctx := BitVec.ofNat 2 (fld (w 4) 12 2), core := BitVec.ofNat 4 (fld (w 4) 8 4)
    rsm := (w 4).getLsbD 7, rsv4 := BitVec.ofNat 7 (fld (w 4) 0 7), chkn := BitVec.ofNat 16 (fld (w 5) 48 16)
    tiles := BitVec.ofNat 8 (fld (w 5) 40 8), mgrant := (w 5).getLsbD 39, rsv5 := BitVec.ofNat 7 (fld (w 5) 32 7)
    pc := BitVec.ofNat 32 (fld (w 5) 0 32), ext := BitVec.ofNat 24 (fld (w 6) 40 24), rsv6 := BitVec.ofNat 40 (fld (w 6) 0 40)
    rsv7 := w 7, wins := Vector.ofFn fun i => ⟨at_ (16 * i.val), at_ (16 * i.val + 8)⟩
    lres := Vector.ofFn fun i => at_ (0x80 + 8 * i.val), tvec := BitVec.ofNat 32 (fld (at_ 0xA0) 0 32)
    save := BitVec.ofNat 55 (fld (at_ 0xA8) 0 55), asid := BitVec.ofNat 16 (fld (at_ 0xB0) 0 16)
    map := Vector.ofFn fun i => BitVec.ofNat 32 (leNat ((x.drop (0xC0 + 4 * i.val)).take 4))
    dimg := BitVec.ofNat 55 (fld (at_ 0x148) 0 55), dlen := BitVec.ofNat 19 (fld (at_ 0x150) 32 19)
    doff := BitVec.ofNat 18 (fld (at_ 0x150) 0 18)
    rsvx := fld (at_ 0xA0) 32 32 != 0 || fld (at_ 0xA8) 55 9 != 0 || fld (at_ 0xB0) 16 48 != 0 || at_ 0xB8 != 0
      || ((List.range 32).any fun i => (leNat ((x.drop (0xC0 + 4 * i)).take 4)) / 2 ^ 20 % 64 != 0)
      || fld (at_ 0x140) 9 55 != 0 || fld (at_ 0x148) 55 9 != 0 || fld (at_ 0x150) 51 13 != 0 || fld (at_ 0x150) 18 14 != 0
      || (x.drop 0x158).any fun b => b != 0 }

/-- The bind record of a slot-table entry, its extension read from the cluster's vault. -/
def State.slotBind (s : State) (c e : Nat) : Bind :=
  let r := (s.slot c e).recd
  bindOf r (s.mem.bytes (vaultAddr (c / numClusters) (c % numClusters) + fld r[(6 : Fin 8)] 40 24) 512)

/-! ### Code pages (R89) -/

def mapValid (m : W32) : Bool := m.getLsbD 31
def mapFrame (m : W32) : Nat := (m.extractLsb' 26 5).toNat
def mapPage (m : W32) : Nat := (m.extractLsb' 0 20).toNat
def mapWord (frame page : Nat) : W32 := BitVec.ofNat 32 (2 ^ 31 + frame * 2 ^ 26 + page)

/-- The frame that holds a code page for a context. -/
def Bind.frameOf (b : Bind) (page : Nat) : Option Nat :=
  (b.map.toList.find? fun m => mapValid m && mapPage m == page).map mapFrame

/-- The bytes of a code page, through a mapping with CD and RD. -/
def State.codePage (s : State) (asid code page : Nat) : Except (Nat × Nat) (List Byte) := do
  let va := code + 4096 * page
  let ps ← s.pieces asid va 4096 .code
  match ps.find? fun p => s.flaws.any fun l => decide (p.1 < 64 * l + 64 ∧ 64 * l < p.1 + p.2) with
  | some p => throw ((placeOf p.1).flawCode, va)
  | none => return ps.flatMap fun p => s.mem.bytes p.1 p.2

/-- The bind records of a core's other contexts, bound or being dispatched. -/
def State.otherBinds (s : State) (core : Nat) (x : Fin 4) : List Bind :=
  (List.finRange 4).filterMap fun y =>
    let sl := s.slot (clusterIndex core) (entryOf core y)
    if y = x then none
    else if (s.ctx core y).bound then some (s.ctx core y).bind
    else if sl.entry.isSome then some (s.slotBind (clusterIndex core) (entryOf core y))
    else none

/-- Launch number of a bind record. -/
def Bind.lnum (b : Bind) : Nat := fld b.taskid 32 32

/-- A code page is placed for a context whose map so far is given: in a frame of the core that holds it for the same launch,
else loaded into the lowest free frame. -/
def State.placePage (s : State) (core : Nat) (x : Fin 4) (lnum asid code : Nat) (map : List W32) (page : Nat) :
    Except (Nat × Nat) (State × List W32) :=
  let others := s.otherBinds core x
  if map.any fun m => mapPage m == page then .ok (s, map)
  else
    match others.findSome? fun b => if b.lnum = lnum then b.frameOf page else none with
    | some f => .ok (s, map ++ [mapWord f page])
    | none =>
      let used := (map ++ (others.flatMap fun b => b.map.toList.filter mapValid)).map mapFrame
      match (List.range 32).find? fun f => !used.contains f with
      | none => .ok (s, map)
      | some f =>
        match s.codePage asid code page with
        | .error e => .error e
        | .ok bs =>
          let k := s.core core
          .ok (s.setCore core { k with istore := k.istore.write (4096 * f) bs }, map ++ [mapWord f page])

/-- The code map Vizin gives a task: its first page must load; of the others, those that load. -/
def State.codeMap (s : State) (core : Nat) (x : Fin 4) (lnum asid code : Nat) (pages : List Nat) : Except (Nat × Nat) (State × List W32) :=
  match pages with
  | [] => .ok (s, [])
  | p :: ps =>
    match s.placePage core x lnum asid code [] p with
    | .error e => .error e
    | .ok r =>
      .ok (ps.foldl (fun r p => match s.placePage core x lnum asid code r.2 p with
        | .error _ => r
        | .ok _ => match r.1.placePage core x lnum asid code r.2 p with
          | .ok q => q
          | .error _ => r) r)

/-- The frames that no eviction takes: those of the bundles at the program counter and LSA of every bound context of the core
and at its TVEC, and the page named; a bundle spans at most two pages. -/
def State.keptFrames (s : State) (core : Nat) (x : Fin 4) (page : Nat) : List Nat :=
  (List.finRange 4).flatMap fun y =>
    let c := s.ctx core y
    if ¬ c.bound then []
    else
      ([c.pc, c.lsa, c.bind.tvec, c.sys.epc].flatMap fun a => [a.toNat / 4096, a.toNat / 4096 + 1]).filterMap c.bind.frameOf
        ++ (if y = x then (c.bind.frameOf (page - 1)).toList else [])

/-- An evicted frame leaves every map of the core. -/
def Core.evictFrame (k : Core) (f : Nat) : Core :=
  (List.finRange 4).foldl (fun k y =>
    let c := k.ctx y
    k.setCtx y { c with bind := { c.bind with map := c.bind.map.map fun m => if mapValid m && mapFrame m == f then 0 else m } }) k

/-- Vizin maps the code page of a code-page fault (R89): in a free frame, else in one that it evicts. A page that cannot be
loaded fails the launch; one that a retained die turns away is tried again (R374). -/
def State.mapCodePage (s : State) (core : Nat) (x : Fin 4) (addr : Nat) : State :=
  let b := (s.ctx core x).bind
  let page := addr / 4096
  match if (b.frameOf page).isSome then none else s.launch? b.lnum with
  | none => s
  | some l =>
    let cur := b.map.toList.filter mapValid
    let others := s.otherBinds core x
    let share := others.findSome? fun o => if o.lnum = l.num then o.frameOf page else none
    let used := (cur ++ (others.flatMap fun o => o.map.toList.filter mapValid)).map mapFrame
    let full := (List.range 32).all used.contains
    let cand := (List.range 32).filter fun f => !(s.keptFrames core x page).contains f
    let v := s.vizin 3
    let victim := cand.getD (v.1.toNat % cand.length) 0
    let s1 := if full ∧ share.isNone then v.2.setCore core ((s.core core).evictFrame victim) else s
    let cur := ((s1.ctx core x).bind.map.toList.filter mapValid)
    match s1.placePage core x l.num (lrAsid l.recd) (lrCode l.recd) cur page with
    | .error e => if e.1 = 0x282 then s else s.failLaunch l.num e.1 (s.ctx core x).sys.wid (s.ctx core x).sys.taskid
    | .ok r =>
      let c := r.1.ctx core x
      r.1.setCtx core x { c with bind := { c.bind with map := Vector.ofFn fun i => r.2.getD i.val 0 } }

/-! ### Placement (R270, R271, R221 to R224) -/

/-- EPRI of an entry. -/
def State.epri (s : State) (e : QueueEntry) : Nat := min 7 (e.prio + (s.wcc.toNat - e.enq) / 600000)

/-- Entry a is taken before entry b. -/
def State.takenBefore (s : State) (a b : Nat × QueueEntry) : Bool :=
  let x := s.epri a.2
  let y := s.epri b.2
  decide (y < x ∨ (x = y ∧ (a.2.enq < b.2.enq ∨ (a.2.enq = b.2.enq ∧ a.1 ≤ b.1))))

/-- The READY entries of a cluster in the order of R270, those of launches that are held, over or being checkpointed apart. -/
def State.bindOrder (s : State) (c : Nat) : List (Nat × QueueEntry) :=
  ((s.cluster c).queue.filter fun q => q.2.st == .ready && (match s.launch? q.2.lnum with
      | some l => !l.held && !l.waiting && l.failed.isNone && !l.aborted && l.ckpt.busy.isNone
      | none => false)).foldl
    (fun acc a => (acc.takeWhile fun b => s.takenBefore b a) ++ a :: acc.dropWhile fun b => s.takenBefore b a) []

/-- A context that nothing is bound to or being dispatched to. -/
def State.ctxFree (s : State) (core : Nat) (x : Fin 4) : Bool :=
  let sl := s.slot (clusterIndex core) (entryOf core x)
  !(s.ctx core x).bound && sl.entry.isNone && (sl.dst == .empty || sl.dst == .ended || sl.dst == .refused)

/-- The context of a pair's leading core whose re-executable task its mismatch froze. -/
def State.mismatched (s : State) (p : Nat) : Option (Fin 4) :=
  (List.finRange 4).find? fun x =>
    let c := s.ctx (2 * p) x
    c.bound && c.frozen == .trap && c.sys.cause.extractLsb' 0 10 == 0x309#10 && c.bind.reex

/-- A core that an entry of a protection mode may bind to: in service, its die not parked, no S3 sequence under way (R375), and the
leading core when protected. A pair on which a third run stands, or a task waits to
run again, takes no other task (log 28). -/
def State.coreFits (s : State) (core : Nat) (prot : Bool) : Bool :=
  s.inService core && (s.pair (core / 2)).prot == prot && (!prot || core % 2 == 0) && (s.die (dieOf core)).awake
    && s.power.s3 == .none && (s.pair (core / 2)).watch.isNone && (s.mismatched (core / 2)).isNone

/-- A core that an entry may bind to: a third run is on another pair than the first (R228), and no reservation holds the die for
another gang (R271). -/
def QueueEntry.elsewhere (e : QueueEntry) (core : Nat) : Bool :=
  match e.third with
  | some t => core / 2 != t.pair
  | none => true

/-- The lowest free context of a core. -/
def State.freeCtx (s : State) (core : Nat) : Option (Fin 4) := (List.finRange 4).find? (s.ctxFree core)

/-- A reservation of another gang holds the contexts of a die (R271). -/
def State.heldFor (s : State) (d : Nat) (q : Nat × Nat) : Bool :=
  match (s.die d).reserved with
  | some g => g != q
  | none => false

/-- The transfers and untaken records of a task keep it in place (R287). -/
def State.taskBusy (s : State) (core : Nat) (wid : Word) (taskid : Word) : Bool :=
  ((s.core core).xfers.any fun (t : Xfer) => decide (t.wid = wid ∧ t.taskid = taskid))
    || (s.core core).faults.any fun (r : FaultRec) => !r.taken && decide (r.xf.wid = wid ∧ r.xf.taskid = taskid)

/-- TASKID of an entry. -/
def QueueEntry.taskid (e : QueueEntry) : Word := w64 (e.lnum * 2 ^ 32 + e.node)

/-- A context whose first issue after a freeze has its own clk: of a gang, or with a reservation (R218, R248). -/
def Ctx.pinned (c : Ctx) : Bool := c.region || c.bind.gang || c.bind.lres.toList.any fun w => w.getLsbD 63

/-- A core of a free die that fits an entry. DESIGN CHOICE (log 30): a gang's member shares no core with another gang's. -/
def State.coreOpen (s : State) (q : Nat × Nat) (e : QueueEntry) (core : Nat) : Bool :=
  s.coreFits core e.prot && e.elsewhere core && !s.heldFor (dieOf core) q
    && !(e.gang && (List.finRange 4).any fun x => (s.ctx core x).bound && (s.ctx core x).bind.gang)

/-- The place of a single entry: a frozen task that may not move takes its own place. -/
def State.placeSingle (s : State) (c : Nat) (q : Nat × Nat) (e : QueueEntry) : Option (Nat × Fin 4) :=
  let ok : Nat → Bool := s.coreOpen q e
  match e.home with
  | h :: _ =>
    let own := if ok h.core ∧ s.ctxFree h.core (ctxNo h.ctx) ∧ clusterIndex h.core = c then some (h.core, ctxNo h.ctx) else none
    if ¬ e.mig ∨ s.taskBusy h.core e.wid e.taskid then own
    else own.or ((List.range numCores).findSome? fun i =>
      let core := numCores * c + i
      if ok core then (s.freeCtx core).map fun x => (core, x) else none)
  | [] => (List.range numCores).findSome? fun i =>
      let core := numCores * c + i
      if ok core then (s.freeCtx core).map fun x => (core, x) else none

/-- The places of a gang's members on a die: distinct cores, by number. -/
def State.gangOn (s : State) (d : Nat) (q : Nat × Nat) (e : QueueEntry) (g : Nat) : Option (List (Nat × Fin 4)) :=
  let l := (List.range (numClusters * numCores)).filterMap fun i =>
    let core := numClusters * numCores * d + i
    if s.coreOpen q e core then (s.freeCtx core).map fun x => (core, x) else none
  if g ≤ l.length then some (l.take g) else none

/-- Trestle lines held on a die, and gang identifiers in use. -/
def State.dieBinds (s : State) (d : Nat) : List Bind :=
  (s.cores.flatMap fun e => (List.finRange 4).filterMap fun x =>
      if dieOf e.1 = d ∧ (e.2.ctx x).bound then some (e.2.ctx x).bind else none)
  ++ s.clusters.flatMap fun c => c.2.slots.filterMap fun sl =>
      if c.1 / numClusters = d ∧ sl.2.entry.isSome ∧ ¬ (s.ctx (slotCore c.1 sl.1) (slotCtx sl.1)).bound then some (s.slotBind c.1 sl.1) else none

def State.freeLine (s : State) (d : Nat) : Option Nat :=
  (List.range 32).find? fun t => !((s.dieBinds d).any fun b => b.gang && b.tline.toNat == t)
def State.freeGangid (s : State) (d : Nat) : Nat :=
  ((List.range 65536).find? fun t => !((s.dieBinds d).any fun b => b.gang && b.gangid.toNat == t)).getD 0

/-- A reservation word obeys R246 in a core of cluster `cl` of its die, among the die's bound records. -/
def lresOk (cl : Nat) (others : List Bind) (w : Word) : Bool :=
  fld w 56 2 == 0 && fld w 32 21 == 0 &&
    (!w.getLsbD 63 || (decide (fld w 58 5 ≤ 23) && fld w 58 5 != cl &&
      !(others.any fun b => b.lres.toList.any fun o =>
        o.getLsbD 63 && fld o 58 5 == fld w 58 5 && fld o 53 3 == fld w 53 3 && (o &&& w &&& 0xFFFFFFFF#64) != 0)))

/-- PHASE turned toward higher bits (R248). -/
def turnPhase (w : Word) (n : Nat) : Word := (w &&& 0xFFFFFFFF00000000#64) ||| ((w.truncate 32 : W32).rotateLeft (n % 32)).zeroExtend 64

/-- The reservations of frozen members, each turned by the clk from its boundary to its first issue, obey R246 with the die's
other contexts and each other (R248). `first` is the common resume clk; a member that froze later starts later (R218). -/
def turnedOk (others : List Bind) (ms : List (Nat × Home)) (least first : Nat) : Bool :=
  (ms.foldl (fun (a : Bool × List Bind) m =>
    let ws := m.2.lres.map fun w => turnPhase w ((first + (m.2.bound - least) + 2 ^ 64 - m.2.bound) % 32)
    (a.1 && ws.all (lresOk (clusterOf m.1) a.2), { lres := Vector.ofFn fun i => ws.getD i.val 0 } :: a.2)) (true, others)).1

/-- The least boundary of frozen members. -/
def leastBound (hs : List Home) : Nat := (hs.map Home.bound).foldl min ((hs.map Home.bound).headD 0)

/-- The start of members that resume with reservations: the first of 32 consecutive clk at which they obey R246 (R248). -/
def State.resumeStart (s : State) (ps : List (Nat × Fin 4)) (hs : List Home) : Option Nat :=
  let d := dieOf ((ps.headD (0, 0)).1)
  let scc := (s.die d).scc.toNat + 256
  ((List.range 32).find? fun k => turnedOk (s.dieBinds d) ((ps.zip hs).map fun p => (p.1.1, p.2)) (leastBound hs) (scc + k)).map (scc + ·)

/-- The size of an entry's gang. -/
def State.gangSize (s : State) (e : QueueEntry) : Nat :=
  match s.launch? e.lnum with
  | some l => lrExt l.recd 0
  | none => 1

/-- A cluster of the grid of 6 columns by 4 rows moved by a translation (R222). -/
def moveCluster (dx dy : Int) (c : Nat) : Option Nat :=
  let x : Int := ((c % 6 : Nat) : Int) + dx
  let y : Int := ((c / 6 : Nat) : Int) + dy
  if 0 ≤ x ∧ x < 6 ∧ 0 ≤ y ∧ y < 4 then some (6 * y.toNat + x.toNat) else none

/-- The translations of the grid, none first. -/
def translations : List (Int × Int) :=
  (0, 0) :: ((List.range 7).flatMap fun (j : Nat) => (List.range 11).map fun (i : Nat) => ((i : Int) - 5, (j : Int) - 3)).filter fun t => t != (0, 0)

/-- The clusters that a frozen member's vault windows and reservations name. -/
def Home.reach (h : Home) : List Nat :=
  ((h.wins.filter fun w => w.kind == 2).map Win.vcl) ++ (h.lres.filter fun w => w.getLsbD 63).map fun w => fld w 58 5

/-- The open core of a cluster for a member: its own core number, else the lowest that no member takes. -/
def State.memberCore (s : State) (q : Nat × Nat) (e : QueueEntry) (base own : Nat) (taken : List Nat) : Option Nat :=
  let ok (core : Nat) : Bool := s.coreOpen q e core && (s.freeCtx core).isSome && !taken.contains core
  if ok (base + own) then some (base + own) else ((List.range numCores).map (base + ·)).find? ok

/-- The members of a gang under one translation onto a die (R222): every one on a core of its own, those whose core number is open
first. -/
def State.congruent (s : State) (q : Nat × Nat) (e : QueueEntry) (d : Nat) (t : Int × Int) : Option (List (Nat × Fin 4)) :=
  let base (h : Home) : Option Nat := (moveCluster t.1 t.2 (clusterOf h.core)).map fun c => numCores * (numClusters * d + c)
  if ¬ e.home.all (fun h => (base h).isSome && h.reach.all fun c => (moveCluster t.1 t.2 c).isSome) ∨ (s.freeLine d).isNone then none
  else
    let open_ (h : Home) : Bool := s.coreOpen q e ((base h).getD 0 + coreInCluster h.core)
      && (s.freeCtx ((base h).getD 0 + coreInCluster h.core)).isSome
    let kept := (e.home.filter open_).map fun h => (base h).getD 0 + coreInCluster h.core
    let r := e.home.foldl (fun (a : Option (List Nat × List Nat)) h => a.bind fun (l : List Nat × List Nat) =>
      if open_ h then some (l.1, l.2 ++ [(base h).getD 0 + coreInCluster h.core])
      else (s.memberCore q e ((base h).getD 0) (coreInCluster h.core) l.1).map fun c => (c :: l.1, l.2 ++ [c])) (some (kept, []))
    r.map fun l => l.2.map fun c => (c, (s.freeCtx c).getD 0)

/-- The members of a frozen gang that cannot leave their places: transfers and untaken records (R287), registrations (R223). -/
def State.rooted (s : State) (e : QueueEntry) : Bool :=
  e.home.any fun (h : Home) => s.taskBusy h.core (e.wid + w64 h.gmem) e.taskid
    || (s.core h.core).regn.any fun (r : Registration) => r.ctx == h.ctx

/-- The places of a frozen gang: its own, else a congruent placement (R222) on a die of the launch's set (R271); a vault-bound gang stays on its clusters (R263). -/
def State.gangPlaces (s : State) (q : Nat × Nat) (e : QueueEntry) : Option (List (Nat × Fin 4)) :=
  let own := e.home.map fun (h : Home) => (h.core, ctxNo h.ctx)
  let d0 := dieOf ((own.headD (0, 0)).1)
  if own.all (fun p => s.ctxFree p.1 p.2 && s.coreOpen q e p.1) ∧ (s.freeLine d0).isSome then some own
  else if s.rooted e then none
  else if e.vbnd then s.congruent q e d0 (0, 0)
  else (d0 :: ((match s.launch? e.lnum with
      | some l => distinct ((lrSet l.recd).map fun k => k / numClusters)
      | none => []).filter fun d => d != d0)).findSome? fun d => translations.findSome? fun t => s.congruent q e d t

/-- The places an entry's members could take, base first. -/
def State.openPlaces (s : State) (c : Nat) (q : Nat × Nat) (e : QueueEntry) : Option (List (Nat × Fin 4)) :=
  if ¬ e.gang then (s.placeSingle c q e).map fun p => [p]
  else if e.home ≠ [] then s.gangPlaces q e
  else
    match s.launch? e.lnum with
    | none => none
    | some l =>
      let dies := distinct ((lrSet l.recd).map fun k => k / numClusters)
      let d0 := c / numClusters
      (d0 :: dies.filter fun d => d != d0).findSome? fun d =>
        if (s.freeLine d).isSome then s.gangOn d q e (s.gangSize e) else none

/-- A vault's number moved as a member's cluster is (R222). -/
def shiftVcl (from_ tout c : Nat) : Nat := (c + tout - from_) % 32

/-- A frozen gang member at a new place: the vaults of its windows and reservations move with its cluster (R222). -/
def Home.shifted (h : Home) (core : Nat) : Home :=
  let vcl : Nat → Nat := shiftVcl (clusterOf h.core) (clusterOf core)
  { h with
    wins := h.wins.map fun w => if w.kind = 2 then { w with w0 := (w.w0 &&& 0xC1FFFFFFFFFFFFFF#64) ||| w64 (vcl w.vcl * 2 ^ 57) } else w
    lres := h.lres.map fun w => if w.getLsbD 63 then (w &&& 0x83FFFFFFFFFFFFFF#64) ||| w64 (vcl (fld w 58 5) * 2 ^ 58) else w }

/-- The members of an entry as they resume at places: a gang's move with their clusters. -/
def QueueEntry.homesAt (e : QueueEntry) (ps : List (Nat × Fin 4)) : List Home :=
  if e.gang then (e.home.zip ps).map fun p => p.1.shifted p.2.1 else e.home

/-- The places of an entry's members; frozen members wait for their reservations (R248). -/
def State.places (s : State) (c : Nat) (q : Nat × Nat) (e : QueueEntry) : Option (List (Nat × Fin 4)) :=
  match s.openPlaces c q e with
  | none => none
  | some l => if e.home = [] ∨ (s.resumeStart l (e.homesAt l)).isSome then some l else none

/-- The signatures of a pair start afresh (R226). -/
def Pair.restart (z : Pair) : Pair :=
  { z with csig := 0xFFFFFFFF#32, csigT := 0xFFFFFFFF#32, csigL := 0xFFFFFFFF#32, lag := [], nc := 0, vote := none, watch := none, seen := none, trail := none }

/-- A pair of the cluster whose contexts are all unbound changes to the mode wanted (R224, R270). -/
def State.switchPair (s : State) (c : Nat) (prot : Bool) : State :=
  match (List.range 8).find? fun i =>
      let p := numCores * c / 2 + i
      let z := s.pair p
      z.prot != prot && !z.quar && (List.finRange 4).all fun x => s.ctxFree (2 * p) x && s.ctxFree (2 * p + 1) x with
  | some i =>
    let p := numCores * c / 2 + i
    s.setPair p { (s.pair p).restart with prot := prot }
  | none => s

/-! ### Forming the bind record (R269, R270) -/

/-- The four reservations that Vizin gives a task: of those it chooses, the ones that R246 allows. -/
def State.chooseLres (s : State) (core : Nat) : List Word × State :=
  (List.range 4).foldl (fun (a : List Word × State) _ =>
    let v := a.2.vizin 2
    (a.1 ++ [if lresOk (clusterOf core) (s.dieBinds (dieOf core)) v.1 then v.1 else 0], v.2)) ([], s)

/-- A vault window that reaches into the park area. -/
def Win.overPark (w : Win) : Bool :=
  w.kind == 2 && (decide (parkBase < w.base + w.len)
    || (blockFmt w.fmt && decide (parkBase ≤ w.shadow + lastScale w.geo w.pitch (regionElems w.fmt w.len))))

/-- Vizin grants no window over the park area (R372). -/
def Win.granted (w : Win) : Win := if w.overPark then {} else w

/-- Windows on the vault of a cluster moved as one to another cluster's vault (R33, R221): the displacement is Vizin's. -/
def moveWins (wins : List Win) (cl : Nat) (choice : Nat) : List Win :=
  let vs := wins.filter fun w => w.kind == 2
  let lo := (vs.map fun w => min w.base (if blockFmt w.fmt then w.shadow else w.base)).foldl min vaultSize / 64 * 64
  let hi := (vs.map fun w => max (w.base + w.len) (if blockFmt w.fmt then w.shadow + lastScale w.geo w.pitch (regionElems w.fmt w.len) + 1 else 0)).foldl max 0
  let tout := 64 * (choice % ((parkBase - (hi - lo)) / 64 + 1))
  wins.map fun w =>
    if w.kind = 2 then
      { w0 := (w.w0 &&& 0xC1FFFFFFFF000000#64) ||| w64 (cl * 2 ^ 57 + (w.base - lo + tout))
        w1 := if blockFmt w.fmt then (w.w1 &&& 0x000000FFFFFFFFFF#64) ||| w64 ((w.shadow - lo + tout) * 2 ^ 40) else w.w1 }
    else w

/-- The bytes of vault windows copied from where one core reaches them to where another does, as a memory holds them (R33). -/
def State.copyWins (s : State) (m : Memory) (from_ tout : Nat) (old new : List Win) : State :=
  { s with mem := (old.zip new).foldl (fun (a : Memory) p =>
      if p.1.kind = 2 then
        let a := a.write (p.2.addr tout) (m.bytes (p.1.addr from_) p.1.len)
        if blockFmt p.1.fmt then
          let n := lastScale p.1.geo p.1.pitch (regionElems p.1.fmt p.1.len) + 1
          a.write (p.2.scaleAddr tout) (m.bytes (p.1.scaleAddr from_) n)
        else a
      else a) s.mem }

/-- An address in one of a task's windows as it is after the windows have moved. -/
def movedAddr (from_ tout : Nat) (old new : List Win) (a : Nat) : Nat :=
  ((old.zip new).findSome? fun p =>
    let b := p.1.addr from_
    if p.1.kind ≠ 0 ∧ b ≤ a ∧ a < b + p.1.len then some (p.2.addr tout + (a - b)) else none).getD a

/-- A HIBLIST entry with its BASE rewritten. -/
def HibEntry.rebased (h : HibEntry) (a : Nat) : HibEntry := { h with w0 := (h.w0 &&& 0xFF80000000000000#64) ||| w64 (a % 2 ^ 55) }

/-- A task's windows move: Vizin rewrites BASE of the entries it keeps for it (R432). -/
def State.rebase (s : State) (wid taskid : Word) (from_ tout : Nat) (old new : List Win) : State :=
  let move (h : HibEntry) : HibEntry := h.rebased (movedAddr from_ tout old new (fld h.w0 0 55))
  let kept := s.kept.map fun (e : HibKept) => if e.wid = wid ∧ e.taskid = taskid then { e with entry := move e.entry } else e
  let mine := kept.filter fun e => e.wid == wid && e.taskid == taskid
  { s with kept := kept, hiblist := mine.foldl (fun h e => Table.put h e.index e.entry) s.hiblist }

/-- VAL := 0 in every token register of a save area (R287). -/
def State.clearTokens (s : State) (asid save : Nat) : State :=
  match s.vwords asid (save + 0x150) 64 with
  | .error _ => s
  | .ok ws =>
    match s.vwrite asid (save + 0x150) (bytesOf (ws.map fun w => w &&& 0x7FFFFFFFFFFFFFFF#64)) with
    | .error _ => s
    | .ok s => s

/-- The bind record of one member is formed and written into its slot-table entry and vault; `m` is the memory before any member's
regions moved. -/
def State.writeBind (s : State) (m : Memory) (q : Nat × Nat) (e : QueueEntry) (l : Launch) (tline gangid start : Nat) (core : Nat) (x : Fin 4)
    (h : Option Home) (gmem : Nat) : Except (Nat × Nat) State :=
  let n := gNode l.graph e.node
  let r := l.recd
  let t := (l.graph.drop (nBtpl n)).take 512
  let tw (o : Nat) : Word := w64 (leNat ((t.drop o).take 8))
  let cl := clusterIndex core
  let v := s.vizin 4
  let ext := v.1.toNat % (parkBase / 512) * 512
  let s := v.2
  let twins := (List.range 8).map fun i => (⟨tw (16 * i), tw (16 * i + 8)⟩ : Win).granted
  let away (h : Home) : Bool := decide (clusterIndex h.core ≠ cl)
  let wv := s.vizin 6
  let wins := match h with
    | some h => if e.gang then (h.shifted core).wins else if away h then moveWins h.wins (clusterOf core) wv.1.toNat else h.wins
    | none => twins
  let s := match h with
    | some h => (if away h then wv.2.copyWins m h.core core h.wins wins else s).rebase (e.wid + w64 gmem) e.taskid h.core core h.wins wins
    | none => s
  let save := memberSave e.save gmem
  let s := match h with
    | some h => if h.core ≠ core then s.clearTokens (lrAsid r) save else s
    | none => s
  let start := match h with
    | some h => if start = 0 then 0 else start + (h.bound - leastBound e.home)
    | none => start
  let lr := match h with
    | some h => ((if e.gang then h.shifted core else h).lres.map fun w => turnPhase w ((start + 2 ^ 32 - h.bound % 32) % 32), s)
    | none => s.chooseLres core
  let s := lr.2
  let pc := match h with
    | some h => h.pages.headD 0
    | none => nPc n / 4096
  let pages := [pc, (tvecOf l.num).toNat / 4096] ++ (match h with
    | some h => h.pages.drop 1
    | none => [])
  match s.codeMap core x l.num (lrAsid r) (lrCode r) pages with
  | .error er => .error er
  | .ok (s, map) =>
    let ecnt := match h with
      | some h => h.ecnt
      | none => 0
    let dlen := fld (tw 0x150) 32 19
    let b : Bind :=
      { wid := e.wid + w64 gmem, taskid := e.taskid, startscc := w64 start
        quant := BitVec.ofNat 16 (if lrQuant r = 0 then 0x100 else lrQuant r)
        ebud := BitVec.ofNat 48 (if l.budget = 0 then 0 else min (2 ^ 48 - 1) (ecnt + (l.budget - s.spentOf l)))
        v := true, prio := BitVec.ofNat 3 e.prio, prot := e.prot, cls := BitVec.ofNat 2 (lrClass r), reex := nReex n, vbnd := e.vbnd
        gang := e.gang, tline := BitVec.ofNat 5 tline, gangid := BitVec.ofNat 16 gangid
        gsize := BitVec.ofNat 9 (if e.gang then s.gangSize e else 1), gmem := BitVec.ofNat 9 gmem
        ctx := BitVec.ofNat 2 x.val, core := BitVec.ofNat 4 (coreInCluster core), rsm := h.isSome
        chkn := BitVec.ofNat 16 (if lrClass r = 1 then (if lrChkn r = 0 then 64 else lrChkn r) else 0)
        tiles := BitVec.ofNat 8 (fld (tw 0x140) 0 8), mgrant := (tw 0x140).getLsbD 8, pc := BitVec.ofNat 32 (nPc n)
        ext := BitVec.ofNat 24 ext, wins := Vector.ofFn fun i => wins.getD i.val {}, lres := Vector.ofFn fun i => lr.1.getD i.val 0
        tvec := tvecOf l.num, save := BitVec.ofNat 55 save, asid := BitVec.ofNat 16 (lrAsid r)
        map := Vector.ofFn fun i => map.getD i.val 0
        dimg := if dlen = 0 then 0 else BitVec.ofNat 55 (lrCode r + fld (tw 0x148) 0 55), dlen := BitVec.ofNat 19 dlen
        doff := BitVec.ofNat 18 (fld (tw 0x150) 0 18) }
    let s := { s with mem := s.mem.write (vaultAddr (cl / numClusters) (cl % numClusters) + ext) b.extBytes }
    .ok (s.setSlot cl (entryOf core x) { s.slot cl (entryOf core x) with
      recd := Vector.ofFn fun i => b.recordWords.getD i.val 0, entry := some q })

/-- The records of all members; any that cannot be formed fails the launch (R89), unless a retained die turns Vizin away (R374). -/
def State.bindEntry (s : State) (q : Nat × Nat) (e : QueueEntry) (ps : List (Nat × Fin 4)) : State :=
  match s.launch? e.lnum, ps.head? with
  | some l, some p0 =>
    let d := dieOf p0.1
    let line := (s.freeLine d).getD 0
    let gid := s.freeGangid d
    let scc := (s.die d).scc.toNat
    let start := if e.gang ∨ (e.home.any fun (h : Home) => h.lres.any fun w => w.getLsbD 63) then
        (if e.home = [] then scc + 256 else (s.resumeStart ps (e.homesAt ps)).getD (scc + 256))
      else 0
    let s0 := s.settle
    let r := ps.zipIdx.foldl (fun (a : Except (Nat × Nat) State) p =>
        a.bind fun s =>
          let h := e.home[p.2]?
          s.writeBind s0.mem q e l line gid start p.1.1 p.1.2 h (match h with
            | some h => h.gmem
            | none => p.2)) (.ok s0)
    (match r with
     | .error er => if er.1 = 0x282 then s else s.failLaunch l.num er.1 e.wid e.taskid
     | .ok s => s.setEntry q { e with st := .claimed, owner := q.1 % numClusters, live := 0, head := none })
  | _, _ => s

/-- Vizin notes since when the first entry of a cluster's order has been its first (R271). -/
def State.noteHead (s : State) (c : Nat) : State :=
  let first := ((s.bindOrder c).head?).map Prod.fst
  let cl := s.cluster c
  s.setCluster c { cl with queue := cl.queue.map fun p =>
    (p.1, { p.2 with head := if some p.1 = first then p.2.head.or (some s.wcc.toNat) else none }) }

/-- No die of the launch's set can hold the gang any longer (R271). -/
def State.gangLost (s : State) (e : QueueEntry) : Bool :=
  match s.launch? e.lnum with
  | some l => e.gang && !((lrSet l.recd).any fun c => decide (s.gangSize e ≤ s.dieCores (c / numClusters) e.prot))
  | none => false

/-- The first entry of the order that can bind, and its places. -/
def State.bindable (s : State) (c : Nat) : Option (Nat × QueueEntry × List (Nat × Fin 4)) :=
  (s.bindOrder c).findSome? fun p => (s.places c (c, p.1) p.2).map fun l => (p.1, p.2, l)

/-- INSTANCE_BIND (R270): the first entry that can bind is claimed; when the one at the head cannot for want of a pair of its
mode, an unbound pair changes mode. -/
def execInstanceBind (s : State) : Out :=
  let c := s.ev.cluster
  let s := s.noteHead c
  .next (match (s.bindOrder c).find? fun p => s.gangLost p.2 with
    | some p => s.failLaunch p.2.lnum 0 p.2.wid p.2.taskid
    | none =>
      let s := match (s.bindOrder c).head? with
        | some p =>
          if (s.places c (c, p.1) p.2).isNone ∧ ¬ (List.range numCores).any (fun i =>
              s.coreFits (numCores * c + i) p.2.prot && (s.freeCtx (numCores * c + i)).isSome) then s.switchPair c p.2.prot else s
        | none => s
      match s.bindable c with
      | some (i, e, l) => s.bindEntry (c, i) e l
      | none => s)

/-- The gang of a cluster that asks for a reservation, and the die it asks for: at the head of its order for 1 ms without a place. -/
def State.wantsDie (s : State) (c : Nat) : Option (Nat × Nat × QueueEntry) :=
  match (s.bindOrder c).head? with
  | none => none
  | some p =>
    match s.launch? p.2.lnum, p.2.head with
    | some l, some since =>
      if p.2.gang ∧ since + 600000 ≤ s.wcc.toNat ∧ (s.places c (c, p.1) p.2).isNone then some (lrHome l.recd / numClusters, p.1, p.2) else none
    | _, _ => none

/-- GANG_RESERVE (R271): a gang that has stood at the head of its order for 1 ms without binding reserves its home die. Of several
that ask for one die, the first in the order of R270 across the queues has it. -/
def execGangReserve (s : State) : Out :=
  let c := s.ev.cluster
  let s := s.noteHead c
  .next (match s.wantsDie c with
    | none => s
    | some w =>
      let first := !(s.clusters.any fun k => k.1 != c && (match s.wantsDie k.1 with
        | some v => v.1 == w.1 && s.takenBefore v.2 w.2 && !(s.takenBefore w.2 v.2 && decide (c < k.1))
        | none => false))
      if (s.die w.1).reserved.isNone ∧ first then s.setDie w.1 { s.die w.1 with reserved := some (c, w.2.1) } else s)

/-! ### Work stealing (R272) -/

/-- The stealable entries of a cluster; a frozen task that has transfers in flight may not move (R287). -/
def State.stealable (s : State) (c : Nat) : List (Nat × QueueEntry) :=
  match s.bindOrder c with
  | [] => []
  | n :: rest => rest.filter fun p => !p.2.vbnd && decide (s.epri p.2 ≤ s.epri n.2)
      && (!p.2.rsm || (p.2.mig && !(p.2.home.any fun (h : Home) => s.taskBusy h.core p.2.wid p.2.taskid)))

/-- A CMC is idle: no entry of its queue can bind and a context of its cluster is free. -/
def State.cmcIdle (s : State) (c : Nat) : Bool :=
  (s.bindable c).isNone && (List.range numCores).any fun i =>
    s.inService (numCores * c + i) && (s.freeCtx (numCores * c + i)).isSome

/-- Entries by ascending ENQ. -/
def byEnq (l : List (Nat × QueueEntry)) : List (Nat × QueueEntry) :=
  l.foldl (fun acc a => (acc.takeWhile fun b => decide (b.2.enq ≤ a.2.enq)) ++ a :: acc.dropWhile fun b => decide (b.2.enq ≤ a.2.enq)) []

/-- WORK_STEAL (R272): the thief takes half of the stealable entries of the peer with the most, each copy written before its
original is freed. -/
def execWorkSteal (s : State) : Out :=
  let c := s.ev.cluster
  let d := c / numClusters
  .next (if ¬ s.cmcIdle c then s
    else
      let peers := ((List.range numClusters).map fun i => numClusters * d + i).filter fun k => k != c
      let best := peers.foldl (fun (b : Nat × Nat) k => let n := (s.stealable k).length; if b.2 < n then (k, n) else b) (0, 0)
      if best.2 = 0 then s
      else ((byEnq (s.stealable best.1)).take ((best.2 + 1) / 2)).foldl (fun s p =>
        match s.freeEntry c with
        | none => s
        | some i =>
          let s := s.setEntry (best.1, p.1) { p.2 with st := .stealing, owner := c % numClusters }
          let s := s.setEntry (c, i) { p.2 with gen := 0, owner := 0, head := none }
          s.setEntry (best.1, p.1) { p.2 with st := .free, owner := c % numClusters }) s)

/-! ### Dispatch (R276) -/

/-- DISPATCH_GO (R276). An S3 sequence accepts nothing new (R375). -/
def execDispatchGo (s : State) : Out :=
  let sl := s.slot s.ev.cluster s.ev.entry
  .next (if s.power.s3 ≠ .none then s
    else if sl.dst = .empty ∨ sl.dst = .ended ∨ sl.dst = .refused then
      s.setSlot s.ev.cluster s.ev.entry { sl with dst := .loading, reason := 0, goScc := (s.die (s.ev.cluster / numClusters)).scc.toNat }
    else s)

/-- The map rule of R274, among the entries of the record and those of the core's other contexts. -/
def mapOk (b : Bind) (others : List Bind) : Bool :=
  let mine := b.map.toList.filter mapValid
  (mine.all fun m => mine.all fun n => mapFrame m != mapFrame n || mapPage m == mapPage n)
    && mine.all fun m => others.all fun o => (o.map.toList.filter mapValid).all fun n =>
        mapFrame m != mapFrame n || (mapPage m == mapPage n && o.lnum == b.lnum)

/-- The context as dispatch leaves it, before its save area or image (R31, R196, R276). -/
def freshCtx (b : Bind) (wcc : Nat) : Ctx :=
  { sys := { priv := b.priv, prot := b.prot, gang := b.gang, wid := b.wid, taskid := b.taskid, wins := b.wins.map Win.stored }
    pc := b.pc, bound := true, mirror := b.cls == 0, chkn := b.chkn, bind := b, boundAt := wcc }

/-- The records of the contexts bound on a die. -/
def State.boundBinds (s : State) (d : Nat) : List Bind :=
  s.cores.flatMap fun e => (List.finRange 4).filterMap fun x => if dieOf e.1 = d ∧ (e.2.ctx x).bound then some (e.2.ctx x).bind else none

/-- The scratchpad image of a record (R276); none when it cannot be loaded. -/
def State.loadImage (s : State) (core : Nat) (b : Bind) : Option State :=
  if b.rsm ∨ b.dlen = 0 then some s
  else if 262144 < b.doff.toNat + b.dlen.toNat then none
  else
    match s.vread b.asid.toNat b.dimg.toNat b.dlen.toNat with
    | .error _ => none
    | .ok bs => some { s with mem := s.mem.write (padAddr core + b.doff.toNat) bs }

/-- The checks of dispatch at the end of loading: the reason of the first that fails, in the order of their numbers, or the
state with the context bound. -/
def State.dispatch (s : State) (c e : Nat) : Nat ⊕ State :=
  let core := slotCore c e
  let x := slotCtx e
  let d := c / numClusters
  let b := s.slotBind c e
  let scc := (s.die d).scc.toNat
  if ¬ b.wins.toList.all Win.ok then .inl 1
  else if ¬ b.lres.toList.all (lresOk (c % numClusters) (s.boundBinds d)) then .inl 2
  else if b.gang ∧ (s.boundBinds d).any (fun o => o.gang && o.tline == b.tline && o.gangid != b.gangid) then .inl 3
  else if ¬ mapOk b ((List.finRange 4).filterMap fun y => if (s.ctx core y).bound then some (s.ctx core y).bind else none) then .inl 4
  else if ¬ b.v ∨ b.ctx.toNat ≠ x.val ∨ b.core.toNat ≠ coreInCluster core ∨ b.rsv4 ≠ 0 ∨ b.rsv5 ≠ 0 ∨ b.rsv6 ≠ 0 ∨ b.rsv7 ≠ 0 ∨ b.rsvx then .inl 5
  else if b.startscc ≠ 0 ∧ b.startscc.toNat < scc then .inl 6
  else if ¬ s.inService core ∨ (s.pair (core / 2)).prot ≠ b.prot ∨ (b.prot ∧ core % 2 = 1) then .inl 7
  else
    let k := (s.core core).setCtx x (freshCtx b s.wcc.toNat)
    let s1 := s.setCore core (if b.mgrant ∧ ¬ b.rsm then { k with shadow := {} } else k)
    match (if b.rsm then s1.loadSave core x else some s1) with
    | none => .inl 8
    | some s2 =>
      if ¬ (s.die d).awake then .inl 9
      else
        match s2.loadImage core b with
        | none => .inl 10
        | some s3 => .inr s3

/-- A refusal (R272, R276): every member of a gang returns to EMPTY, and the entry is tried again or its launch fails. -/
def State.refuseBind (s : State) (c e reason : Nat) : State :=
  let sl := s.slot c e
  let b := s.slotBind c e
  let s := s.setSlot c e { sl with dst := .refused, reason := reason, entry := none }
  match sl.entry with
  | none => s
  | some q =>
    let qe := s.entry q
    let s := s.unclaim q
    let s := if qe.gang then s.setSlot c e { s.slot c e with dst := .empty } else s
    if reason = 3 ∨ reason = 6 ∨ reason = 7 ∨ reason = 9 then s.setEntry q { qe with st := .ready, live := 0 }
    else s.failLaunch qe.lnum 0 b.wid b.taskid

/-- The members an entry binds. -/
def State.members (s : State) (e : QueueEntry) : Nat :=
  if e.home ≠ [] then e.home.length else if e.gang then s.gangSize e else 1

/-- A member of an entry has been accepted; with the last the entry is BOUND. -/
def State.memberBound (s : State) (q : Nat × Nat) (core : Nat) (x : Fin 4) : State :=
  let e := s.entry q
  let c := s.ctx core x
  let h := e.home.find? fun (h : Home) => h.gmem == c.bind.gmem.toNat
  let y := match e.mark.find? fun m => m.1 == c.bind.gmem.toNat with
    | some m => if c.bind.rsm then c.sys
      else { c.sys with stream := m.2.1.extractLsb' 32 32, seed := m.2.1.truncate 8, rcnt := m.2.2 }
    | none => c.sys
  let s := s.setCtx core x { c with sys := y, region := (h.map Home.region).getD false, stepBk := c.bind.rsm
                                    ended := h.bind Home.ended }
  -- the signatures of a protected pair start at a dispatch (R226), and a third run is watched (R228)
  let s := if c.bind.prot then s.setPair (core / 2) { (s.pair (core / 2)).restart with
      watch := e.third.bind fun t => if t.gmem = c.bind.gmem.toNat then some t else none } else s
  let e := { e with live := e.live + 1 }
  if e.live = s.members e then s.setEntry q { e with st := .bound, home := [], rsm := false, mark := [], third := none }
  else s.setCluster q.1 { s.cluster q.1 with queue := Table.put (s.cluster q.1).queue q.2 e }

/-- What a record loads lies in a die at retention: the loading goes on until it can be read (R374). -/
def State.loadWaits (s : State) (b : Bind) : Bool :=
  (b.rsm && s.vwaits b.asid.toNat b.save.toNat (saveLen b.tileList.length) .read)
    || (!b.rsm && b.dlen != 0 && s.vwaits b.asid.toNat b.dimg.toNat b.dlen.toNat .read)

/-- LOADING_END (R276). A task of a launch that is being checkpointed freezes as it is bound (R395). -/
def State.loadingEnd (s : State) (c e : Nat) : State :=
  let sl := s.slot c e
  let s := s.settle
  if s.power.s3 ≠ .none ∨ sl.dst ≠ .loading ∨ (s.die (c / numClusters)).scc.toNat < sl.goScc + 24 then s
  else if (sl.entry.any fun q => (s.entry q).st != .claimed) then s.setSlot c e { sl with dst := .empty, entry := none }
  else if s.loadWaits (s.slotBind c e) then s
  else
    match s.dispatch c e with
    | .inl n => s.refuseBind c e n
    | .inr s1 =>
      let s1 := s1.setSlot c e { sl with dst := .waitstart }
      match sl.entry with
      | some q =>
        let s2 := s1.memberBound q (slotCore c e) (slotCtx e)
        (match s2.launch? (s2.ctx (slotCore c e) (slotCtx e)).bind.lnum with
         | some l => if l.ckpt.busy.isSome then s2.wantFreeze (slotCore c e) (slotCtx e) .park else s2
         | none => s2)
      | none => s1

def execLoadingEnd (s : State) : Out := .next (s.loadingEnd s.ev.cluster s.ev.entry)

/-- A context that starts or resumes at a clk of its own takes its core in that clk, without switch clk (R255, R218): from another
context too, whose bundle goes on when it holds issue again, but not from one inside a gang-timed region (R256). -/
def Core.claim (k : Core) (x : Fin 4) : Core :=
  if k.holder.any fun y => y == x || (k.ctx y).region then k
  else { (k.setCtx x { k.ctx x with wait := [], dead := 0 }) with holder := some x, ran := true, wait := 0 }

/-- From its start SCC on a context may issue (R276). -/
def State.firstIssue (s : State) (c e : Nat) : State :=
  let sl := s.slot c e
  let core := slotCore c e
  let c1 := s.ctx core (slotCtx e)
  let scc := (s.die (c / numClusters)).scc
  if sl.dst = .waitstart ∧ c1.bound ∧ c1.bind.startscc.toNat ≤ scc.toNat then
    let k := (s.core core).setCtx (slotCtx e) { c1 with started := true, boundAt := s.wcc.toNat }
    (s.setCore core (if c1.bind.startscc ≠ 0 ∧ c1.bind.startscc = scc then k.claim (slotCtx e) else k)).setSlot c e { sl with dst := .running }
  else s

/-- A die that runs in this clk: neither in a hold clk nor at retention (R254, R371). -/
def State.runs (s : State) (d : Nat) : Bool := !(s.die d).held && (s.die d).park != .retained && s.power.s3 != .closed

/-- A slot-table entry in the clk in hand: loading that has no token-domain part ends 24 clk after GO, and a context whose start SCC
has come starts (R276). -/
def State.slotStep (s : State) (c e : Nat) : State :=
  let d := c / numClusters
  if ¬ s.runs d then s
  else
    let sl := s.slot c e
    let b := s.slotBind c e
    let s := if sl.dst = .loading ∧ sl.goScc + 24 ≤ (s.die d).scc.toNat ∧ ¬ b.rsm ∧ b.dlen = 0 then s.loadingEnd c e else s
    if (s.slot c e).dst = .waitstart then s.firstIssue c e else s

/-- FIRST_ISSUE (R276): at the start of a clk, before the core has issued in it. -/
def execFirstIssue (s : State) : Out :=
  .next (if s.runs (s.ev.cluster / numClusters) ∧ ¬ (s.core (slotCore s.ev.cluster s.ev.entry)).did.getLsbD 0 then
      s.firstIssue s.ev.cluster s.ev.entry
    else s)

/-! ### Ends of tasks -/

/-- The four conditions of R121. -/
def State.taskDone (s : State) (core : Nat) (x : Fin 4) : Bool :=
  let k := s.core core
  let c := k.ctx x
  c.land.isEmpty && c.chest.isEmpty && !((s.die (dieOf core)).acc.any fun (a : Access) => a.core == core && a.ctx == x.val)
    && !(k.nests.any fun n => n.ctx == x.val) && !(k.twr.any fun (t : TileWrite) => t.ctx == x.val)
    && !(k.xfers.any fun (t : Xfer) => t.ofTask x.val c.sys.wid c.sys.taskid)

/-- One member of an entry has ended. -/
def State.memberEnded (s : State) (q : Nat × Nat) (num node : Nat) : State :=
  let e := s.entry q
  let e1 := { e with live := e.live - 1 }
  if e1.live = 0 then ((s.setEntry q { e1 with st := .done }).setEntry q { e1 with st := .free }).instanceDone num node
  else s.setCluster q.1 { s.cluster q.1 with queue := Table.put (s.cluster q.1).queue q.2 e1 }

/-- TASK_COMPLETE (R121): the task has ended, or has the fault of a transfer that no KWAIT has taken to take at its TEND before
it issues again (R209). -/
def State.taskComplete (s : State) (core : Nat) (x : Fin 4) : State :=
  let k := s.core core
  let c := k.ctx x
  match c.ended with
  | none => s
  | some slot =>
    if ¬ c.bound ∨ c.frozen ≠ .none ∨ c.report.isSome ∨ ¬ s.taskDone core x then s
    else
      match k.taskError x.val c.sys.wid c.sys.taskid with
      | some r => s.setCtx core x { c with ended := none, report := some { r.trap with slot := some slot } }
      | none =>
        let q := (s.slot (clusterIndex core) (entryOf core x)).entry
        let num := fld c.sys.taskid 32 32
        let s := match s.launch? num with
          | some l => s.setLaunch { l with spent := l.spent + c.sys.ecnt.toNat }
          | none => s
        let s := (s.unbind core x .ended).dropKept c.sys.wid c.sys.taskid
        match q with
        | some q => s.memberEnded q num (fld c.sys.taskid 0 32)
        | none => s

def execTaskComplete (s : State) : Out := .next (s.taskComplete s.ev.core (ctxNo s.ev.ctx))

/-! ### Leaving a context (R272, R277) -/

/-- What Vizin keeps of a frozen task. -/
def State.homeOf (s : State) (core : Nat) (x : Fin 4) : Home :=
  let c := s.ctx core x
  ⟨core, x.val, c.bind.gmem.toNat, c.boundary, c.sys.ecnt.toNat, c.region, c.bind.lres.toList, c.bind.wins.toList,
    distinct ([c.pc.toNat / 4096, c.sys.epc.toNat / 4096, c.lsa.toNat / 4096]
      ++ (c.bind.map.toList.filter mapValid).map mapPage), c.ended⟩

/-- A task may move (R221, R223): a single task whose windows lie in its own vault and scratchpad, that holds no reservation
and no registration. -/
def State.mayMove (s : State) (core : Nat) (x : Fin 4) : Bool :=
  let c := s.ctx core x
  !c.bind.gang && !c.bind.vbnd && (c.bind.wins.toList.all fun w => w.kind != 2 || w.vcl == clusterOf core)
    && !(c.bind.lres.toList.any fun w => w.getLsbD 63)
    && !(c.bind.mgrant && (s.core core).regn.any fun (r : Registration) => r.ctx == x.val)

/-- Every bound member of a context's task. -/
def State.membersOf (s : State) (core : Nat) (x : Fin 4) : List (Nat × Fin 4) :=
  let c := s.ctx core x
  if c.bind.gang then s.gangOf core x else [(core, x)]

/-- A saved task may leave its context: no task switch is made while its index sequence is open (R300) or an XMVB holds a registration
on its tiles (R361), none while a transfer holds a range of its windows pending (R292), and none on a parked die. -/
def State.canLeave (s : State) (core : Nat) (x : Fin 4) : Bool :=
  let k := s.core core
  let c := k.ctx x
  c.frozen != .none && c.saveIn.isNone && c.seq.isNone && (s.die (dieOf core)).awake && s.power.s3 == .none
    && !(k.xfers.any fun (t : Xfer) => t.ofTask x.val c.sys.wid c.sys.taskid
      && ((k.pend.any fun p => decide (p.x = t.x)) || ((t.op matches .xmvb _ _ _ _) && k.regn.any fun r => decide (r.x = t.x))))

/-- A saved task leaves its context, its save area written anew (R220): its entry becomes READY or HELD once every member that runs has
left (R272). -/
def State.leaveFrozen (s : State) (core : Nat) (x : Fin 4) (tout : EntryState) : State :=
  let h := s.homeOf core x
  let mig := s.mayMove core x
  let q := (s.slot (clusterIndex core) (entryOf core x)).entry
  let s := (s.settle.writeSave core x).unbind core x .empty
  match q with
  | none => s
  | some q =>
    let e := s.entry q
    let e1 := { e with home := e.home ++ [h], saved := (if e.home = [] then 0 else e.saved) + h.ecnt, rsm := true, mig := mig }
    if e1.home.length = e.live then s.setEntry q { e1 with st := tout, live := 0, enq := if tout = .ready then s.wcc.toNat else e1.enq }
    else s.setCluster q.1 { s.cluster q.1 with queue := Table.put (s.cluster q.1).queue q.2 e1 }

/-- A task, or its whole gang, leaves once every member may. -/
def State.leaveAll (s : State) (core : Nat) (x : Fin 4) (tout : EntryState) : State :=
  let ms := s.membersOf core x
  if ms.all fun m => s.canLeave m.1 m.2 then ms.foldl (fun s m => s.leaveFrozen m.1 m.2 tout) s else s

/-- The launch of a context is over. -/
def State.taskOver (s : State) (core : Nat) (x : Fin 4) : Bool :=
  match s.launch? (s.ctx core x).bind.lnum with
  | some l => l.failed.isSome || l.aborted
  | none => false

/-- What follows the save of a frozen context: of a launch that is over it gives its task up (R280, R326). -/
def State.afterSave (s : State) (core : Nat) (x : Fin 4) : State :=
  if s.taskOver core x then s.dropTask core x
  else
    match (s.ctx core x).frozen with
    | .preempt => s.leaveAll core x .ready
    | .hold => s.leaveAll core x .held
    | _ => s

/-! ### Resuming in place (R217, R218, R248) -/

/-- One member resumes: its first issue is `off` clk after the common resume clk, the next of the die (R217, R218). -/
def State.resumeCtx (s : State) (core : Nat) (x : Fin 4) (off : Nat) (lres : List Word) : State :=
  let c := s.ctx core x
  let cl := clusterIndex core
  let s := s.setCtx core x { c with frozen := .none, resumeIn := some (1 + off), stepBk := true
                                    bind := { c.bind with lres := Vector.ofFn fun i => lres.getD i.val 0 } }
  s.setSlot cl (entryOf core x) { s.slot cl (entryOf core x) with dst := if c.started then .running else .waitstart }

/-- Frozen contexts by gang. -/
def State.gangsOf (s : State) (ms : List (Nat × Fin 4)) : List (List (Nat × Fin 4)) :=
  let key (m : Nat × Fin 4) : Nat × Nat :=
    let b := (s.ctx m.1 m.2).bind
    if b.gang then (65536, b.gangid.toNat) else (m.1, m.2.val)
  (distinct (ms.map key)).map fun k => ms.filter fun m => key m == k

/-- The bound contexts of a die. -/
def State.boundOn (s : State) (d : Nat) : List (Nat × Fin 4) :=
  s.cores.flatMap fun e =>
    if dieOf e.1 = d then (List.finRange 4).filterMap fun x => if (e.2.ctx x).bound then some (e.1, x) else none else []

/-- Every pinned member of a group can take its core in its clk: no other pinned context resumes there, and the holder is in no
gang-timed region (R218, R248, R256). -/
def State.coresFree (s : State) (g : List (Nat × Fin 4)) (taken : List Nat) : Bool :=
  g.all fun m => !(s.ctx m.1 m.2).pinned || (!taken.contains m.1 && !((s.core m.1).holder.any fun y => y != m.2 && (s.ctx m.1 y).region))

/-- Frozen contexts of a die resume at one common clk. A task whose turned reservations another context holds, or whose core another
takes in its clk, waits, frozen as a pre-empted one is (R248). -/
def State.resumeDie (s : State) (d : Nat) (ms : List (Nat × Fin 4)) : State :=
  let r := (s.die d).scc.toNat + 1
  let rest := ((s.boundOn d).filter fun m => !ms.contains m).map fun m => (s.ctx m.1 m.2).bind
  ((s.gangsOf ms).foldl (fun (a : State × List Bind × List Nat) g =>
    let hs := g.map fun m => (m.1, a.1.homeOf m.1 m.2)
    let least := leastBound (hs.map Prod.snd)
    if turnedOk a.2.1 hs least r ∧ a.1.coresFree g a.2.2 then
      g.foldl (fun (a : State × List Bind × List Nat) m =>
        let c := a.1.ctx m.1 m.2
        let off := c.boundary - least
        let ws := c.bind.lres.toList.map fun w => turnPhase w ((r + off + 2 ^ 64 - c.boundary) % 32)
        (a.1.resumeCtx m.1 m.2 off ws, { lres := Vector.ofFn fun i => ws.getD i.val 0 } :: a.2.1,
          if c.pinned then m.1 :: a.2.2 else a.2.2)) a
    else (g.foldl (fun s m => s.setCtx m.1 m.2 { s.ctx m.1 m.2 with frozen := .preempt }) a.1, a.2)) (s, rest, [])).1

/-! ### Pre-emption (R277) -/

/-- Vizin freezes a context, or its whole gang (R218). -/
def State.freezeTask (s : State) (core : Nat) (x : Fin 4) (why : Freeze) : State :=
  (s.membersOf core x).foldl (fun s m => s.wantFreeze m.1 m.2 why) s

/-- A saved context that Vizin returns to its queue: one that was pre-empted, or that a breakpoint or a request froze (log 9). -/
def Ctx.returns (c : Ctx) : Bool :=
  c.saveIn.isNone && (c.frozen == .preempt || c.frozen == .request
    || (c.frozen == .trap && c.second.isNone && (c.sys.cause.extractLsb' 0 10).toNat == 0x383))

/-- A task whose members are all frozen and saved, and that no task switch may take from its context, resumes in place (R300), but not
while its launch is being checkpointed (R395). -/
def State.resumesHere (s : State) (core : Nat) (x : Fin 4) : Bool :=
  let ms := s.membersOf core x
  ms.all (fun m => (s.ctx m.1 m.2).frozen != .none && (s.ctx m.1 m.2).saveIn.isNone) && ms.any (fun m => (s.ctx m.1 m.2).seq.isSome)
    && (s.die (dieOf core)).awake && s.power.s3 == .none
    && !((s.launch? (s.ctx core x).bind.lnum).any fun l => l.ckpt.busy.isSome)

/-- PREEMPT_EXAMINE (R277): a context past its quantum that an entry or a reservation waits for is pre-empted, unless its index
sequence is open (R300). A context that waits frozen to leave does so, with its gang; one that may not be switched resumes in
place. -/
def State.preemptExamine (s : State) (core : Nat) (x : Fin 4) : State :=
  let c := s.ctx core x
  let cl := clusterIndex core
  let ms := s.membersOf core x
  if ¬ c.bound then s
  else if c.frozen = .hold ∧ c.saveIn.isNone then s.leaveAll core x .held
  else if c.returns then
    if ms.any fun m => (s.ctx m.1 m.2).frozen == .none then s.freezeTask core x .preempt
    else if s.resumesHere core x then (s.rereadAll ms).resumeDie (dieOf core) ms
    else s.leaveAll core x .ready
  else if c.frozen = .none ∧ c.started ∧ c.bind.quant.toNat * 1024 ≤ s.wcc.toNat - c.boundAt
      ∧ ms.all (fun m => (s.ctx m.1 m.2).seq.isNone)
      ∧ ((s.bindOrder cl).any (fun p => decide (c.bind.prio.toNat ≤ s.epri p.2)) ∨ (s.die (dieOf core)).reserved.isSome) then
    s.freezeTask core x .preempt
  else s

def execPreemptExamine (s : State) : Out := .next (s.preemptExamine s.ev.core (ctxNo s.ev.ctx))

end Sys2Proof.Machine
end

