-- ==== Sys2Proof/Machine/Collect.lean ====
section
/-! DEFINITION. Collectives (R407 to R417): the ring's segments and steps, digit planes and online addition, tiles as
deliveries write them, streams, and the issue of XALLR, XRDSC, XALLG, XBCST, XPCNT and XPCAN. -/

namespace Sys2Proof.Machine

/-! ### Segments and steps (R408) -/

def Coll.nt (c : Coll) : Nat := (c.ne + 63) / 64
/-- The tiles of a segment. -/
def Coll.segment (c : Coll) (k : Nat) : List Nat :=
  let lo := k * c.nt / c.n
  (List.range ((k + 1) * c.nt / c.n - lo)).map fun i => lo + i
/-- Planes of a tile: OP 1 to 3 move a tile's words as one. -/
def Coll.planes (c : Coll) : Nat := if c.op = 0 then c.p else 1
def Coll.reduces (c : Coll) : Bool := c.kind == .allReduce || c.kind == .reduceScatter
/-- The reduce-scatter steps, and all steps. -/
def Coll.rsSteps (c : Coll) : Nat := if c.reduces then c.n - 1 else 0
def Coll.steps (c : Coll) : Nat := c.rsSteps + (if c.kind = .reduceScatter then 0 else c.n - 1)

/-- The tiles that member r sends at step i, steps from 1. -/
def Coll.tilesSent (c : Coll) (r i : Nat) : List Nat :=
  if i = 0 ∨ c.steps < i then []
  else if c.kind = .broadcast then (if (c.root + (i - 1)) % c.n = r then List.range c.nt else [])
  else if i ≤ c.rsSteps then c.segment ((r + c.n - i) % c.n)
  else c.segment ((r + c.n - (i - c.rsSteps - 1)) % c.n)

/-- The member before and the member after. -/
def Coll.pred (c : Coll) : Nat := (c.rank + c.n - 1) % c.n
def Coll.succ (c : Coll) : Nat := (c.rank + 1) % c.n
def Coll.sends (c : Coll) (i : Nat) : List Nat := c.tilesSent c.rank i
def Coll.takes (c : Coll) (i : Nat) : List Nat := c.tilesSent c.pred i

/-- The owner of a tile (R418). -/
def Coll.owner (c : Coll) (t : Nat) : Nat :=
  if c.kind = .broadcast then c.root else ((List.range c.n).find? fun k => (c.segment k).contains t).getD 0

/-- Where a stream's planes come from: the own contribution, the sum of an arriving stream with it, or an arriving stream
as it stands. -/
inductive PlaneSource where
  | own
  | add (i : Nat)
  | fwd (i : Nat)
deriving DecidableEq, Repr

/-- The source of what a member sends at step i. -/
def Coll.source (c : Coll) (i : Nat) : PlaneSource :=
  if i ≤ 1 then .own
  else if i ≤ c.rsSteps + 1 ∧ c.reduces then .add (i - 1)
  else .fwd (i - 1)

/-- The source of a destination tile, if the member has that tile (R415). -/
def Coll.destSource (c : Coll) (t : Nat) : Option PlaneSource :=
  if c.owner t = c.rank then some (c.source (c.rsSteps + 1))
  else ((List.range (c.steps + 1)).find? fun i => decide (c.rsSteps < i) && (c.takes i).contains t).map .fwd

/-- The destination tiles of this member (R415). -/
def Coll.destTiles (c : Coll) : List Nat := (List.range c.nt).filter fun t => (c.destSource t).isSome

/-- A stream's key. -/
def streamKey (i t : Nat) : Nat := i * 65536 + t

/-! ### Digits (R410, R411) -/

/-- ⌈log2 N⌉ + 1 guard planes for a sum, else 1. -/
def guardPlanes (sum : Bool) (n : Nat) : Nat := if sum then (if n ≤ 1 then 1 else (n - 1).log2 + 2) else 1
def Coll.guard (c : Coll) : Nat := guardPlanes (c.reduces && c.op == 0) c.n

/-- The source elements of a tile. -/
def Coll.elems (c : Coll) (t : Nat) : List Fp := (Table.get [] c.own t).map (fpDecode fmtF32)

/-- e_t of R410. -/
def localExp (xs : List Fp) : Int :=
  (xs.filter fun x => x.isFin && !x.isZero).foldl (fun e x => max e x.dy.log2) (-150)

/-- A contribution clamped to ±2^lim, and whether it was. -/
def clampAt (lim : Int) (x : Fp) : Fp × Bool :=
  match x with
  | .nan => (.fin false 0 0, true)
  | .inf n => (.fin n 1 lim, true)
  | .fin n m e => if Dy.lt ⟨1, lim⟩ ⟨(m : Int), e⟩ then (.fin n 1 lim, true) else (.fin n m e, false)

/-- 64 digits as a plane, and a plane's digits: the code 0b10 reads as 0 (R409). -/
def planeOf (ds : List Int) : Nat := (ds.zipIdx.map fun d => encInt d.1 2 * 4 ^ d.2).sum
def planeDigits (p : Nat) : List Int :=
  (List.range 64).map fun k => match p / 4 ^ k % 4 with
    | 1 => 1
    | 3 => -1
    | _ => 0
/-- A plane holds the code of a link error. -/
def planeBad (p : Nat) : Bool := (List.range 64).any fun k => p / 4 ^ k % 4 == 2

/-- 64 words as one value, and back. -/
def packWords (ws : List Nat) : Nat := (ws.zipIdx.map fun w => w.1 * 2 ^ (32 * w.2)).sum
def unpackWords (p : Nat) : List Nat := (List.range 64).map fun k => p / 2 ^ (32 * k) % 2 ^ 32

/-- The own planes of a tile, once T is known, and whether a contribution was clamped. -/
def Coll.ownPlanes (c : Coll) (t : Nat) : List Nat × Bool :=
  if ¬ c.started ∨ ¬ Table.has c.ts t then ([], false)
  else if c.op ≠ 0 then ([packWords (Table.get [] c.own t)], false)
  else
    let T := Table.get 0 c.ts t
    let xs := (c.elems t).map (clampAt (T - c.guard + 1))
    let qs := xs.map fun x => (digitsInt x.1 T c.p).1
    ((List.range c.p).map fun j => planeOf (qs.map fun q => digitOf q c.p j), xs.any Prod.snd)

/-- One step of OnlineAdd over 64 elements: the residues and the digits emitted, if any (R411). -/
def onlineStep (j : Nat) (r a b : List Int) : List Int × Option (List Int) :=
  let r := List.zipWith (fun (r : Int) s => 2 * r + s) r (List.zipWith (fun x y => x + y) a b)
  if j < 2 then (r, none)
  else
    let z := r.map fun (x : Int) => if x ≥ 2 then 1 else if x ≤ -2 then -1 else 0
    (List.zipWith (fun (x : Int) d => x - 4 * d) r z, some z)

/-- OnlineAdd of R411 over the planes landed so far: max(0, c − 2) planes, or all P when the input is complete. -/
def onlineAdd (P : Nat) (a b : List (List Int)) : List (List Int) :=
  let zero := List.replicate 64 (0 : Int)
  let n := if a.length < P then a.length else P + 2
  ((List.range n).foldl (fun (acc : List Int × List (List Int)) j =>
    let r := onlineStep j acc.1 (a.getD j zero) (if j < P then b.getD j zero else zero)
    (r.1, match r.2 with
      | some z => acc.2 ++ [z]
      | none => acc.2)) (zero, [])).2

/-- The exact Max or Min of R38 for OP 1 and 2. -/
def combineWords (op : Nat) (a b : Nat) : Nat :=
  packWords (List.zipWith (fun x y => (fpMinMax fmtF32 (op == 1) 0 x y).1) (unpackWords a) (unpackWords b))

/-- The planes of a source for a tile, and their SAT. -/
def Coll.planesOf (c : Coll) (src : PlaneSource) (t : Nat) : List Nat × Bool :=
  match src with
  | .own => c.ownPlanes t
  | .fwd i => (Table.get [] c.inp (streamKey i t), c.sat.contains (streamKey i t))
  | .add i =>
    let a := Table.get [] c.inp (streamKey i t)
    let b := c.ownPlanes t
    (if b.1 = [] then []
     else if c.op ≠ 0 then List.zipWith (combineWords c.op) a b.1
     else (onlineAdd c.p (a.map planeDigits) (b.1.map planeDigits)).map planeOf,
     b.2 || c.sat.contains (streamKey i t))

/-- What the owner of a tile has emitted, as far as its cut allows (R418). -/
def Coll.emitted (c : Coll) (src : PlaneSource) (t : Nat) : List Nat × Bool :=
  let p := c.planesOf src t
  if Table.has c.cutAt t then (p.1.take (Table.get 0 c.cutAt t), p.2) else p

/-- What step i sends of a tile: the planes there are, their SAT, and the C of its cut, if it is cut. -/
def Coll.stream (c : Coll) (i t : Nat) : List Nat × Bool × Option Nat :=
  let src := c.source i
  if i = c.rsSteps + 1 then
    let p := c.emitted src t
    (p.1, p.2, if Table.has c.cutAt t then some (Table.get 0 c.cutAt t) else none)
  else
    let p := c.planesOf src t
    (p.1, p.2, match src with
      | .fwd j => if Table.has c.cutIn (streamKey j t) then some (Table.get 0 c.cutIn (streamKey j t)) else none
      | _ => none)

/-- What stands in a destination tile: its planes, SAT and whether it is cut. -/
def Coll.dest (c : Coll) (t : Nat) : List Nat × Bool × Bool :=
  match c.destSource t with
  | none => ([], false, false)
  | some (.fwd i) =>
    if c.owner t = c.rank then let p := c.emitted (.fwd i) t; (p.1, p.2, Table.has c.cutAt t)
    else let p := c.planesOf (.fwd i) t; (p.1, p.2, Table.has c.cutIn (streamKey i t))
  | some src => let p := c.emitted src t; (p.1, p.2, Table.has c.cutAt t)

/-- A destination tile is DONE or CUT. -/
def Coll.destFinal (c : Coll) (t : Nat) : Bool :=
  let d := c.dest t
  decide (d.1.length = c.planes) || d.2.2

/-- The step at which a tile's partial sum arrives for staging. -/
def Coll.stageStep (c : Coll) (t : Nat) : Option Nat :=
  (List.range (c.rsSteps + 1)).find? fun i => (c.takes i).contains t

/-! ### The counter word (R409) -/

/-- The counter word of given fields. -/
def counterWord (cut err sat : Bool) (P : Nat) (T : Int) (C : Nat) : Nat :=
  let b (x : Bool) (n : Nat) : Nat := if x then 2 ^ n else 0
  b (C == P) 31 + b (cut && decide (C < P)) 30 + b err 29 + b sat 28 + P * 2 ^ 22 + encInt T 10 * 2 ^ 12 + C

/-- The counter word a destination tile is to show. -/
def Coll.destWord (c : Coll) (t : Nat) : Nat :=
  let d := c.dest t
  let err := match c.destSource t with
    | some (.fwd i) => c.err.contains (streamKey i t)
    | some (.add i) => c.err.contains (streamKey i t)
    | _ => false
  counterWord d.2.2 err d.2.1 c.p (Table.get 0 c.ts t) d.1.length

/-- The counter word a staging tile is to show. -/
def Coll.stageWord (c : Coll) (i t : Nat) : Nat :=
  counterWord false (c.err.contains (streamKey i t)) (c.sat.contains (streamKey i t)) c.p (Table.get 0 c.ts t)
    (Table.get [] c.inp (streamKey i t)).length

/-- The summary word of a status entry (R417). -/
def Coll.summary (c : Coll) : Nat :=
  if c.op ≠ 0 then (if c.complete then 2 ^ 31 else 0)
  else
    let ds := c.destTiles.map fun t => (c.dest t, t)
    let b (x : Bool) (n : Nat) : Nat := if x then 2 ^ n else 0
    let full (d : List Nat × Bool × Bool) : Bool := d.1.length == c.p
    b (ds.all fun d => full d.1) 31 + b ((ds.all fun d => full d.1 || d.1.2.2) && ds.any fun d => !full d.1) 30
      + b (ds.any fun d => BitVec.getLsbD (BitVec.ofNat 32 (c.destWord d.2)) 29) 29 + b (ds.any fun d => d.1.2.1) 28
      + c.p * 2 ^ 22 + ds.foldl (fun m d => Nat.min m d.1.1.length) c.p

/-! ### Tiles in memory -/

/-- The tiles at a copy address: a window of FMT 13, or pages of format 13 (R409). -/
def State.tileArea (s : State) (t : Xfer) (a : Word) : Except Stop Area :=
  if addrWindow a then .ok (windowArea t.wins t.core a 0)
  else
    match s.mapping (clusterIndex t.core) t.asid (addrVirt a) .write with
    | .error c => .error (mapStop c (addrVirt a))
    | .ok p =>
      if p.fmt ≠ 13 then .error (.fault 0x08A (addrVirt a))
      else .ok { virt := true, base := addrVirt a, off := 0, bits := 8, fmt := 13, geo := 3, pitch := 0, shadow := 0, len := 2 ^ 55 }

/-- The places of a collective's cells: host memory is none of its ends (R423). -/
def State.collSpots (s : State) (t : Xfer) (d : Area) (cs : List Cell) : Except Stop (List Spot) := do
  let sp ← s.spots t d cs
  if sp.any fun p => decide (placeOf p.pa = .host) then throw (.fault 0x08A ((cs.headD ⟨none, false, 0, 0, 0⟩).addr % 2 ^ 55))
  return sp

/-- One delivery of a collective. -/
def State.collWrite (s : State) (t : Xfer) (d : Area) (cs : List Cell) : Except Stop State := do
  let sp ← s.collSpots t d cs
  match s.writeSpots t 0 sp with
  | .ok s => return s
  | .error va => throw (.fault 0x187 va)

/-- A tile comes to show a counter word and planes (R413): the initialising delivery, the planes with their count, and a
cut in a delivery of its own. -/
def State.landTile (s : State) (t : Xfer) (d : Area) (n old new : Nat) (ps : List Nat) : Except Stop State := do
  let at_ := d.tileAt n
  let C := old % 64
  let init := new / 2 ^ 12 % 2 ^ 16 * 2 ^ 12
  let planes (w : Nat) : List Cell :=
    byteCells at_ (leBytes 4 w) ++ ((List.range (ps.length - C)).flatMap fun k =>
      byteCells (at_ + 64 + 16 * (C + k)) (leBytes 16 (ps.getD (C + k) 0)))
  let s ← (if old = 0 then s.collWrite t d (byteCells at_ (leBytes 4 init ++ List.replicate 60 0)) else .ok s)
  let uncut := if new.testBit 30 then new - 2 ^ 30 else new
  let s ← (if C < ps.length ∨ ¬ new.testBit 30 then s.collWrite t d (planes uncut) else .ok s)
  if new.testBit 30 then s.collWrite t d (byteCells at_ (leBytes 4 new)) else .ok s

/-- The words of a destination tile for OP 1 to 3. -/
def State.landWords (s : State) (c : Coll) (t : Xfer) (n : Nat) (p : Nat) : Except Stop State := do
  let d ← s.area t c.dst 0 .write
  if d.fmt ≠ 1 then throw (.fault 0x08A (addrVirt c.dst))
  let ws := (unpackWords p).zipIdx.filter fun w => decide (64 * n + w.2 < c.ne)
  s.collWrite t d (ws.flatMap fun w => d.cells none ((64 * n + w.2 : Nat) : Int) 32 w.1)

/-- Everything that has arrived is written: destination tiles, then staging tiles. -/
def State.landAll (s : State) (c : Coll) (t : Xfer) : Except Stop (State × Coll) := do
  let one (p : State × Coll) (stage : Bool) (n : Nat) (a : Word) (new : Nat) (ps : List Nat) : Except Stop (State × Coll) := do
    let key := (if stage then 65536 else 0) + n
    let old := Table.get 0 p.2.landed key
    if old = new then return p
    let d ← p.1.tileArea t a
    let s ← p.1.landTile t d n old new ps
    return (s, { p.2 with landed := Table.put p.2.landed key new })
  let p ← c.destTiles.foldlM (fun (p : State × Coll) n =>
    let d := c.dest n
    if c.op ≠ 0 then
      (if d.1 = [] ∨ Table.has p.2.landed n then Except.ok p
       else do
         let s ← p.1.landWords c t n (d.1.headD 0)
         return (s, { p.2 with landed := Table.put p.2.landed n 1 }))
    else if d.1 = [] ∧ ¬ d.2.2 then Except.ok p
    else one p false n c.dst (c.destWord n) d.1) (s, c)
  if c.op ≠ 0 then return p
  (List.range c.nt).foldlM (fun (p : State × Coll) n =>
    match c.stageStep n with
    | none => Except.ok p
    | some i =>
      let ps := Table.get [] c.inp (streamKey i n)
      if ps = [] then Except.ok p else one p true n c.stage (c.stageWord i n) ps) p

/-! ### Streams -/

/-- The group entry of a GROUP value (R407). -/
def State.group (s : State) (group : Nat) : Group := Table.get ({} : Group) s.groups (group % 4096)
/-- The module of a rank (R407): byte i of the member list. -/
def State.memberOf (s : State) (group r : Nat) : Nat :=
  (s.mem.read ((s.group group).mlist + r)).toNat

/-- A packet of a collective (R399). -/
def State.collPacket (s : State) (c : Coll) (rank type : Nat) (ops : List Word) (data : List Byte) : Packet :=
  { dmod := s.memberOf c.group rank, smod := 0, type := type, asid := (s.group c.group).asid
    pseq := 0, core := c.core, x := c.x, ops := BitVec.ofNat 64 (c.group + c.coln * 2 ^ 32) :: ops, data := data }

/-- What the members of a collective must agree on (R408), as its plane and exponent packets carry it (log 41). -/
def Coll.desc (c : Coll) : Word :=
  BitVec.ofNat 64 (c.ne + c.p * 2 ^ 23 + (match c.kind with
      | .allReduce => 0
      | .reduceScatter => 1
      | .allGather => 2
      | .broadcast => 3) * 2 ^ 29 + (if c.fixe then 2 ^ 31 else 0) + c.op * 2 ^ 38 + encInt c.tfix 10 * 2 ^ 40 + c.root * 2 ^ 50)

/-- A plane packet of step i: first plane, count, SAT, or a cut marker; bits [63:44] of its third word are left to the round (R374). -/
def State.planePacket (s : State) (c : Coll) (i t first : Nat) (ps : List Nat) (sat cut : Bool) : Packet :=
  s.collPacket c c.succ 4
    [BitVec.ofNat 64 ((c.base + i) % 2 ^ 32 + t * 2 ^ 32),
     BitVec.ofNat 64 (first + ps.length * 2 ^ 8 + (if sat then 2 ^ 16 else 0) + (if cut then 2 ^ 17 else 0)),
     BitVec.ofInt 64 (Table.get 0 c.ts t), c.desc]
    (ps.flatMap fun p => leBytes (if c.op = 0 then 16 else 256) p)

/-- What a stream has beyond what was sent goes out (R411); a stream that no port takes pauses (R421). -/
def State.sendStream (s : State) (c : Coll) (i t : Nat) : State × Coll :=
  if c.paused.isSome then (s, c)
  else
    let key := streamKey i t
    let st := c.stream i t
    let out := Table.get 0 c.out key
    let ps := (st.1.drop out).take 48
    let r := if ps = [] then some (s, c)
      else (s.request (s.planePacket c i t out ps st.2.1 false) 0 0).map fun s =>
        (s, { c with out := Table.put c.out key (out + ps.length) })
    match r with
    | none => (s, { c with paused := some s.wcc.toNat })
    | some (s, c) =>
      if st.2.2.isSome ∧ Table.get 0 c.out key = st.1.length ∧ ¬ c.marked.contains key ∧ Table.has c.ts t then
        match s.request (s.planePacket c i t st.1.length [] st.2.1 true) 0 0 with
        | none => (s, { c with paused := some s.wcc.toNat })
        | some s => (s, { c with marked := key :: c.marked })
      else (s, c)

/-- Every stream of the member sends what it can. -/
def State.sendStreams (s : State) (c : Coll) : State × Coll :=
  (List.range (c.steps + 1)).foldl (fun (p : State × Coll) i =>
    (c.sends i).foldl (fun (p : State × Coll) t => p.1.sendStream p.2 i t) p) (s, c)

/-- A stream has been sent whole and acknowledged. -/
def Coll.streamAcked (c : Coll) (i t : Nat) : Bool :=
  let key := streamKey i t
  match (c.stream i t).2.2 with
  | some e => decide (Nat.min e c.planes ≤ Table.get 0 c.acked key) && c.markAcked.contains key
  | none => decide (Table.get 0 c.acked key = c.planes)

/-- A stream has arrived whole, or is cut. -/
def Coll.streamIn (c : Coll) (i t : Nat) : Bool :=
  let key := streamKey i t
  decide ((Table.get [] c.inp key).length = c.planes) || Table.has c.cutIn key || (i == c.rsSteps && Table.has c.cutAt t)

/-- Step i is complete at this member (R408). -/
def Coll.stepDone (c : Coll) (i : Nat) : Bool :=
  c.started && ((c.takes i).all fun t => c.streamIn i t) && (c.sends i).all fun t => c.streamAcked i t

/-- Leading complete steps. -/
def Coll.stepsDone (c : Coll) : Nat → Nat → Nat
  | 0, i => i
  | n + 1, i => if c.stepDone (i + 1) then c.stepsDone n (i + 1) else i

/-- The collective is complete at this member (R415). -/
def Coll.isComplete (c : Coll) : Bool :=
  c.started && (c.destTiles.all c.destFinal)
    && ((List.range (c.steps + 1)).all fun i => (c.sends i).all fun t => c.streamAcked i t)
    && (c.destTiles != [] || c.stepsDone c.steps 0 == c.steps)

/-- STEP and PLANE of the group (R408): those of the first of its collectives at work; with none, every step issued is complete. -/
def Group.follow (g : Group) (cs : List Coll) : Group :=
  let work := cs.filter fun c => !c.complete
  match work.find? fun c => work.all fun d => decide (c.base ≤ d.base) with
  | none => { g with step := g.steps % 2 ^ 32, plane := 0 }
  | some c =>
    let k := c.stepsDone c.steps 0
    let ps := (c.takes (k + 1)).map fun t => (Table.get [] c.inp (streamKey (k + 1) t)).length
    { g with step := (c.base + k) % 2 ^ 32, plane := ps.foldl Nat.min (ps.headD 0) }

def State.setColl (s : State) (c : Coll) : State :=
  { s with colls := s.colls.map fun (d : Coll) => if d.core = c.core ∧ d.x = c.x then c else d }
def State.coll? (s : State) (core : Nat) (x : Xid) : Option Coll :=
  s.colls.find? fun (c : Coll) => c.core == core && decide (c.x = x)

/-- The status entry of a collective (R417). -/
def State.setCst (s : State) (c : Coll) (live : Bool) (word : Nat) : State :=
  let k := s.core c.core
  let e : Cst := ⟨BitVec.ofNat 64 (c.x.id.toNat * 2 ^ 32 + word), live, c.x.ch⟩
  s.setCore c.core { k with cst := k.cst.set (⟨c.sent % 16, Nat.mod_lt _ (by omega)⟩ : Fin 16) e }

/-- The next arrival unit of R416, while there is one: tile ascending, then plane ascending. A cut tile's missing units
leave its registration. -/
def State.makeUnits : Nat → State → Coll → State × Coll
  | 0, s, c => (s, c)
  | n + 1, s, c =>
      let t := c.destTiles.getD c.unitTile c.nt
      if c.destTiles.length ≤ c.unitTile then (s, c)
      else
        let d := c.dest t
        if c.unitPlane < d.1.length then
          let u : ArrUnit := { tile := c.acct, row := c.row0 + t, src := 2, x := c.x, seq := c.units
                               e := Table.get 0 c.ts t - c.unitPlane, q := planeDigits (d.1.getD c.unitPlane 0) }
          State.makeUnits n (s.setCore c.core ((s.core c.core).arrive u)) { c with units := c.units + 1, unitPlane := c.unitPlane + 1 }
        else if c.destFinal t then
          let k := s.core c.core
          let regn := (k.regn.map fun (r : Registration) =>
              if r.x = c.x ∧ r.tile = c.acct then { r with total := r.total - (c.p - d.1.length) } else r).filter
                fun (r : Registration) => !(decide (r.x = c.x) && decide (r.total ≤ r.done))
          State.makeUnits n (s.setCore c.core { k with regn := regn }) { c with unitTile := c.unitTile + 1, unitPlane := 0 }
        else (s, c)

/-- A collective ends with an error at this member (R415): its status entry shows ERR and its transfer fails. -/
def State.dropColl (s : State) (c : Coll) (t : Xfer) (code faddr : Nat) : State :=
  let s := s.setCst c false (if c.op = 0 then c.summary % 2 ^ 29 + 2 ^ 29 + c.summary / 2 ^ 30 * 2 ^ 30 else 2 ^ 29)
  let s := { s with
    colls := s.colls.filter fun (d : Coll) => !(d.core == c.core && decide (d.x = c.x))
    sents := s.sents.filter fun (e : Sent) => !(e.pkt.core == c.core && decide (e.pkt.x = c.x) && e.pkt.type == 4) }
  s.failFrom t 0 code faddr

/-- The error notices of R421: one to every other member. -/
def State.notify (s : State) (c : Coll) (cause : Nat) : State :=
  ((List.range c.n).filter fun r => r != c.rank).foldl (fun s r =>
    s.sendOr (s.collPacket c r 35 [BitVec.ofNat 64 cause] [])) s

/-- ERR set in the counter word of a tile, whose C stands; a tile that nothing has reached shows C = 0 (R415). -/
def State.markErr (s : State) (c : Coll) (t : Xfer) (a : Word) (key n : Nat) : State :=
  let old := Table.get 0 c.landed key
  let new := if old = 0 then counterWord false true false c.p (Table.get 0 c.ts n) 0 else if old.testBit 29 then old else old + 2 ^ 29
  match (do let d ← s.tileArea t a
            s.collWrite t d (byteCells (d.tileAt n) (leBytes 4 new ++ if old = 0 then List.replicate 60 0 else []))) with
  | .ok s => s
  | .error _ => s

/-- Collective-error at this member (R415): the destination and staging tiles keep C, with ERR set; FADDR is the descriptor's offset. -/
def State.collError (s : State) (c : Coll) : State :=
  match (s.core c.core).xfer? c.x with
  | none => { s with colls := s.colls.filter fun (d : Coll) => !(d.core == c.core && decide (d.x = c.x)) }
  | some t =>
    let s := if c.op ≠ 0 then s
      else
        let s := c.destTiles.foldl (fun s n => s.markErr c t c.dst n n) s
        if c.reduces then (List.range c.nt).foldl (fun s n => s.markErr c t c.stage (65536 + n) n) s else s
    s.dropColl c t 0x188 (4 * (wordAt t.args 0).toNat % 2 ^ 55)

/-- The collective fails at every member (R408, R415, R421). -/
def State.collFail (s : State) (c : Coll) : State := (s.notify c 0x188).collError c

/-- A stop of the collective's own accesses. An absent translation leaves it to be resumed (R349); any other fault ends it at
every member. -/
def State.collStop (s : State) (c : Coll) (t : Xfer) (va : Nat) (st : Stop) : State :=
  match st with
  | .fault code f =>
    if code = 0x087 then (s.setCst c false c.summary).failFrom t 0 code f
    else (s.notify c code).dropColl c t code f
  | st => s.stopped t va st

/-- The collective goes on as far as it can: what has arrived is written, what can be sent is sent, and the group, the
status entry and completion follow. -/
def State.pump (s : State) (core : Nat) (x : Xid) : State :=
  match s.coll? core x, (s.core core).xfer? x with
  | some c, some t =>
    if ¬ c.started ∨ c.complete ∨ t.cut ∨ t.phase ≠ .started then s
    else
      match s.settle.landAll c t with
      | .error st => s.collStop c t (addrVirt c.dst) st
      | .ok (s, c) =>
        let (s, c) := s.sendStreams c
        let (s, c) := if c.acc then s.makeUnits (c.destTiles.length * (c.p + 1) + 1) c else (s, c)
        let c := { c with complete := c.isComplete }
        let s := s.setColl c
        let s := { s with groups := Table.put s.groups (c.group % 4096) ((s.group c.group).follow (s.colls.filter fun (d : Coll) => d.group == c.group)) }
        s.setCst c true c.summary
  | _, _ => s

/-! ### Beginning (R415 step 2) -/

/-- The source tiles this member reads (R415). -/
def Coll.sourceTiles (c : Coll) : List Nat :=
  match c.kind with
  | .allGather => c.segment c.rank
  | .broadcast => if c.rank = c.root then List.range c.nt else []
  | _ => List.range c.nt

/-- The FP32 source elements of a tile; those at or beyond NE read as +0. -/
def State.readTile (s : State) (c : Coll) (t : Xfer) (d : Area) (n : Nat) : Except Stop (List Nat) :=
  (List.range 64).mapM fun k =>
    if 64 * n + k < c.ne then do
      let pa ← s.phys t d.virt .read d.need (d.base + (byteLo 32 (d.off + ((64 * n + k : Nat) : Int))).toNat)
      if placeOf pa = .host then throw (.fault 0x08A ((d.base + (byteLo 32 (d.off + ((64 * n + k : Nat) : Int))).toNat) % 2 ^ 55))
      s.readElem t d .read ((64 * n + k : Nat) : Int)
    else return 0

/-- The source, tile by tile. -/
def State.readSource (s : State) (c : Coll) (t : Xfer) : Except Stop (Table (List Nat)) := do
  if c.sourceTiles = [] then return []
  let d ← s.area t c.src 0 .read
  if d.fmt ≠ 1 then throw (.fault 0x08A (addrVirt c.src))
  c.sourceTiles.mapM fun n => do return (n, ← s.readTile c t d n)

/-- An exponent round is made (R410). -/
def Coll.round (c : Coll) : Bool := c.op == 0 && c.reduces && !c.fixe

/-- T of the tiles for which every member's e_t is known. -/
def Coll.agree (c : Coll) : Coll :=
  if ¬ c.round then c
  else { c with ts := (List.range c.nt).foldl (fun (ts : Table Int) t =>
    if Table.has ts t then ts
    else
      let es := (List.range c.n).filterMap fun r => if Table.has c.exps (streamKey r t) then some (Table.get 0 c.exps (streamKey r t)) else none
      if es.length < c.n then ts else Table.put ts t (es.foldl max (es.headD 0) + c.guard)) c.ts }

/-- A member's vector of e_t goes on to the successor, at most 384 exponents a packet. -/
def State.sendExps (s : State) (c : Coll) (origin : Nat) : State :=
  (List.range ((c.nt + 383) / 384)).foldl (fun s k =>
    let lo := 384 * k
    let cnt := Nat.min 384 (c.nt - lo)
    s.sendOr (s.collPacket c c.succ 33 [BitVec.ofNat 64 (lo + cnt * 2 ^ 32), BitVec.ofNat 64 origin, 0, c.desc]
      ((List.range cnt).flatMap fun i => leBytes 2 (encInt (Table.get 0 c.exps (streamKey origin (lo + i))) 16)))) s

/-- The collective has read its source. -/
def Coll.begun (c : Coll) (own : Table (List Nat)) : Coll :=
  let c := { c with own := own, started := true }
  let es := own.map fun p => (p.1, localExp (c.elems p.1))
  let ts : Table Int :=
    if c.op ≠ 0 then (List.range c.nt).map fun t => (t, 0)
    else if c.fixe then (List.range c.nt).map fun t => (t, c.tfix)
    else if c.reduces then c.ts
    else es.foldl (fun ts p => if Table.has ts p.1 then ts else Table.put ts p.1 (p.2 + 1)) c.ts
  { c with ts := ts
           exps := if c.round then es.foldl (fun x p => Table.put x (streamKey c.rank p.1) p.2) c.exps else c.exps }

/-- A packet for a collective: its GROUP and number. -/
def packetColl (p : Packet) : Nat × Nat := (fld (wordAt p.ops 0) 0 32, fld (wordAt p.ops 0) 32 16)

/-- A collective reads its source, sends its exponents, and takes up the packets that came early. -/
def State.beginColl (s : State) (c : Coll) (t : Xfer) : State :=
  let s := s.settle
  match s.readSource c t with
  | .error st => s.collStop c t (addrVirt c.src) st
  | .ok own =>
    let c := (c.begun own).agree
    let s := s.setColl c
    -- a rejoined member has T from its restored counter words and runs no exponent round (R436)
    let s := if c.round && !((List.range c.nt).all fun n => Table.has c.ts n) then s.sendExps c c.rank else s
    let mine (p : Packet) : Bool := packetColl p == (c.group, c.coln)
    let s := (s.early.filter mine).foldl (fun s p => s.deliver p 18) { s with early := s.early.filter fun p => !mine p }
    s.pump c.core c.x

/-! ### Issue (R414, R415) -/

/-- The descriptor as a collective of the issuing core. -/
def collOf (kind : CollKind) (core : Nat) (x : Xid) (g : Group) (r : List Word) : Coll :=
  let w := wordAt r 4
  { core := core, x := x, kind := kind, group := fld (wordAt r 0) 32 32, coln := (g.coln + 1) % 2 ^ 16, base := g.steps
    n := g.n, rank := g.rank, ne := fld (wordAt r 0) 0 32, p := if fld w 0 6 = 0 then 32 else fld w 0 6, op := fld w 6 2
    fixe := w.getLsbD 8, acc := w.getLsbD 9, tfix := fldS w 16 10, sent := fld w 26 4, acct := fld w 30 3, row0 := fld w 33 6
    root := fld w 40 8, src := wordAt r 1, dst := wordAt r 2, stage := wordAt r 3 }

/-- The group entry a descriptor names. -/
def State.groupOf (s : State) (r : List Word) : Group := s.group (fld (wordAt r 0) 32 32)

/-- OP is one the instruction allows (R415). -/
def CollKind.allows (k : CollKind) (op : Nat) : Bool :=
  match k with
  | .allReduce | .reduceScatter => decide (op ≤ 2)
  | .allGather | .broadcast => decide (op = 0 ∨ op = 3)

/-- Check 2 of R414. -/
def State.descOk (s : State) (k : CollKind) (r : List Word) : Bool :=
  let w := wordAt r 4
  let g := s.groupOf r
  let c := collOf k 0 ⟨0, 0⟩ g r
  fld w 10 6 == 0 && fld w 39 1 == 0 && fld w 48 16 == 0 && ([5, 6, 7].all fun i => wordAt r i == 0)
    && (c.stage == 0 || (c.reduces && c.op == 0)) && decide (fld w 0 6 ≤ 48) && decide (1 ≤ c.ne ∧ c.ne ≤ 4194304)
    && g.v && decide (g.gen = fld (wordAt r 0) 44 20 ∧ g.asid = s.me.bind.asid.toNat) && k.allows c.op
    && (c.op != 0 || decide (c.guard ≤ c.p)) && decide (c.root < g.n)

/-- The ends of a collective: its copy addresses, formats, whether written, and sizes in bytes. -/
def Coll.ends (c : Coll) : List (Word × Nat × Bool × Nat) :=
  if c.op ≠ 0 then [(c.src, 1, false, 4 * c.ne), (c.dst, 1, true, 4 * c.ne)]
  else [(c.src, 1, false, 4 * c.ne), (c.dst, 13, true, tileBytes * c.nt)]
    ++ (if c.reduces then [(c.stage, 13, true, tileBytes * c.nt)] else [])

/-- The byte offset in its window of an end's first element or tile. -/
def endByte (a : Word) (fmt : Nat) : Nat := addrElem a * (if fmt = 13 then tileBytes else 4)

/-- Check 5 of R414: R298 checks 3, 4 and 6. -/
def collEndFault (wins : Vector Win 8) (c : Coll) : Option Trap :=
  let w (a : Word) : Win := winOf wins (addrWin a)
  (c.ends.findSome? fun e => if addrOk e.1 false then none else xTrap 0x08B 0).or
  ((c.ends.findSome? fun e =>
      if ¬ addrWindow e.1 then none
      else if (w e.1).kind = 0 ∨ (if e.2.2.1 then ¬ (w e.1).wr else ¬ (w e.1).rd) then xTrap 0x081 0
      else if (w e.1).fmt ≠ e.2.1 then xTrap 0x082 0
      else none).or
   (c.ends.findSome? fun e =>
      if addrWindow e.1 then
        (if endByte e.1 e.2.1 + e.2.2.2 > (w e.1).len then xTrap 0x084 (faddrOf (max (endByte e.1 e.2.1 : Nat) (w e.1).len)) else none)
      else if addrVirt e.1 + e.2.2.2 > 2 ^ 55 then xTrap 0x08B 0 else none))

/-- The pending ranges of a collective: one for each on-die SRAM destination or staging range (R414 check 6). -/
def State.collPend (s : State) (c : Coll) (wins : Vector Win 8) (asid : Nat) : List (Nat × Nat) :=
  (c.ends.drop 1).flatMap fun e =>
    if addrWindow e.1 then
      let lo := (winOf wins (addrWin e.1)).addr c.core + endByte e.1 e.2.1
      [(lo, lo + e.2.2.2)]
    else s.pendVirt c.core asid (addrVirt e.1, addrVirt e.1 + e.2.2.2)

/-- The checks of R414 for one issue. -/
def State.collCheck (s : State) (k : CollKind) (w : Win) (off : Nat) : Option Trap :=
  let r := s.readRecord w off 8
  let c := collOf k s.fr.core ⟨0, 0⟩ (s.groupOf r) r
  let bad : Option Trap := xTrap 0x189 (faddrOf (4 * off : Nat))
  (recordFault w 16 8 off).or
  ((if s.descOk k r then none else bad).or
  ((if (s.myCore.cst[(⟨c.sent % 16, Nat.mod_lt _ (by omega)⟩ : Fin 16)]).live then bad else none).or
  ((if ¬ c.acc then none
    else (grantFault s).or
      ((if s.tileGranted c.acct then none else xTrap 0x086 c.acct).or (if c.op ≠ 0 ∨ 64 < c.row0 + c.nt then bad else none))).or
  ((collEndFault s.me.sys.wins c).or
  ((limitFault s).or
   (if s.myCore.pend.length + (s.collPend c s.me.sys.wins s.me.bind.asid.toNat).length > 32 then xTrap 0x186 0 else none))))))

/-- The checks of a collective (R414). -/
def collFault (k : CollKind) (a : BitVec 5) (l : BitVec 4) (s : State) : Option Trap :=
  (s.basesX a).findSome? (s.collCheck k (s.recordWin (s.tokenLit l)))

/-- The issue of a collective (R415 step 1): its identifier, its status entry, the group's COLN, its pending ranges and its
registration (R416). -/
def collOp (i : Instr) (kind : CollKind) (tg : Tag) (kd : BitVec 6) (a : BitVec 5) (l : BitVec 4) (s : State) : State :=
  (s.enter 14).gate (s.cond tg) fun s =>
    let lit := s.tokenLit l
    let r := s.readRecord (s.recordWin lit) (s.baseS a).toNat 8
    let t := s.mkXfer i (litCh lit) lit [s.baseS a, s.nowS (a + 1), s.nowS (a + 2)] r
    let g := s.groupOf r
    let c := collOf kind s.fr.core t.x g r
    let s := (s.addXfer t (litCh lit)).putK 7 1 kd (tokenOf t.x)
    let k := s.myCore
    let k := if c.acc ∧ c.destTiles ≠ [] then k.register c.acct t.x t.ctx (c.destTiles.length * c.p) else k
    let s := s.setMyCore { k with pend := k.pend ++ (s.collPend c t.wins t.asid).map fun p => ⟨p.1, p.2, t.x⟩ }
    let s := { s with
      colls := s.colls ++ [c]
      groups := Table.put s.groups (c.group % 4096) { g with coln := c.coln, steps := g.steps + c.steps } }
    s.setCst c true c.summary

/-- XALLR takes up its descriptor. -/
def actXallr (tg : Tag) (kd : BitVec 6) (a : BitVec 5) (l : BitVec 4) : State → State :=
  collOp (.xallr tg kd a l) .allReduce tg kd a l
/-- XALLR (R415), issued alone. -/
def execXallr (tg : Tag) (kd : BitVec 6) (a : BitVec 5) (l : BitVec 4) (s : State) : Out :=
  .next (s.issueSyl (.xallr tg kd a l) 7 (litOk (.xallr tg kd a l) l 3) (collFault .allReduce a l) (actXallr tg kd a l))

/-- XRDSC takes up its descriptor. -/
def actXrdsc (tg : Tag) (kd : BitVec 6) (a : BitVec 5) (l : BitVec 4) : State → State :=
  collOp (.xrdsc tg kd a l) .reduceScatter tg kd a l
/-- XRDSC (R415), issued alone. -/
def execXrdsc (tg : Tag) (kd : BitVec 6) (a : BitVec 5) (l : BitVec 4) (s : State) : Out :=
  .next (s.issueSyl (.xrdsc tg kd a l) 7 (litOk (.xrdsc tg kd a l) l 3) (collFault .reduceScatter a l) (actXrdsc tg kd a l))

/-- XALLG takes up its descriptor. -/
def actXallg (tg : Tag) (kd : BitVec 6) (a : BitVec 5) (l : BitVec 4) : State → State :=
  collOp (.xallg tg kd a l) .allGather tg kd a l
/-- XALLG (R415), issued alone. -/
def execXallg (tg : Tag) (kd : BitVec 6) (a : BitVec 5) (l : BitVec 4) (s : State) : Out :=
  .next (s.issueSyl (.xallg tg kd a l) 7 (litOk (.xallg tg kd a l) l 3) (collFault .allGather a l) (actXallg tg kd a l))

/-- XBCST takes up its descriptor. -/
def actXbcst (tg : Tag) (kd : BitVec 6) (a : BitVec 5) (l : BitVec 4) : State → State :=
  collOp (.xbcst tg kd a l) .broadcast tg kd a l
/-- XBCST (R415), issued alone. -/
def execXbcst (tg : Tag) (kd : BitVec 6) (a : BitVec 5) (l : BitVec 4) (s : State) : Out :=
  .next (s.issueSyl (.xbcst tg kd a l) 7 (litOk (.xbcst tg kd a l) l 3) (collFault .broadcast a l) (actXbcst tg kd a l))

/-- XPCNT reads the entry that s(a) names at the end of its issue clk (R417). -/
def actXpcnt (tg : Tag) (d a : BitVec 5) (s : State) : State :=
  (s.enter 14).gate (s.cond tg) fun s =>
    let die := s.myDie
    s.setMyDie { die with acc := die.acc ++
      [{ kind := .xpcnt, core := s.fr.core, ctx := s.fr.ctx.val, slot := 7, ord := s.me.ord, left := 1, land := 2, keep := .live
         port := 8 * (s.fr.core % 384) + 3, win := {}, elem := ((s.nowS a).toNat % 16 : Nat), step := 0, index := [], data := []
         arg := 0, arg2 := 0, mask := 0, rm := 0, fm := 0, dest := s.destS d, dest2 := noDest, x := ⟨0, 0⟩, msmx := [] }] }
/-- XPCNT (R417), issued alone. -/
def execXpcnt (tg : Tag) (d a : BitVec 5) (s : State) : Out :=
  .next (s.issueSyl (.xpcnt tg d a) 7 (fieldsOnly (.xpcnt tg d a)) noFault (actXpcnt tg d a))

/-- XPCAN takes the channel and identifier that its entry holds (R418). -/
def actXpcan (tg : Tag) (kd : BitVec 6) (a : BitVec 5) (l : BitVec 4) (s : State) : State :=
  (s.enter 14).gate (s.cond tg) fun s =>
    let lit := s.tokenLit l
    let e := s.myCore.cst[(⟨(s.nowS a).toNat % 16, Nat.mod_lt _ (by omega)⟩ : Fin 16)]
    let t := { s.mkXfer (.xpcan tg kd a l) (litCh lit) lit (s.argsX a) [] with found := BitVec.ofNat 64 (e.ch * 2 ^ 32 + fld e.word 32 32) }
    (s.addXfer t (litCh lit)).putK 7 1 kd (tokenOf t.x)
/-- XPCAN (R418), issued alone. -/
def execXpcan (tg : Tag) (kd : BitVec 6) (a : BitVec 5) (l : BitVec 4) (s : State) : Out :=
  .next (s.issueSyl (.xpcan tg kd a l) 7 (litOk (.xpcan tg kd a l) l 0) limitFault (actXpcan tg kd a l))

/-- An XPCAN asks the owner of every non-empty segment to cut (R418). -/
def State.askCut (s : State) (t : Xfer) : State :=
  let e := (s.core t.core).cst[(⟨(wordAt t.args 0).toNat % 16, Nat.mod_lt _ (by omega)⟩ : Fin 16)]
  match s.coll? t.core ⟨e.ch, BitVec.ofNat 32 (fld e.word 32 32)⟩ with
  | some c =>
    if e.settled ∨ c.op ≠ 0 ∨ c.sent ≠ (wordAt t.args 0).toNat % 16 ∨ e.ch * 2 ^ 32 + fld e.word 32 32 ≠ t.found.toNat then s.pieceDone t 0
    else
      let owners := if c.kind = .broadcast then [c.root] else (List.range c.n).filter fun k => c.segment k != []
      (owners.foldl (fun s k => s.sendOr (s.collPacket c k 34 [BitVec.ofNat 64 k] [])) s).pieceDone t 0
  | none => s.pieceDone t 0

end Sys2Proof.Machine
end

