-- ==== Sys2Proof/Machine/Control.lean ====
section
/-! DEFINITION. Branches, calls and returns, loops, token waits, traps and the end of a task (R86, R87, R109 to
R121): slots S0 and S1. -/

namespace Sys2Proof.Machine

/-- The target of BR and CALL: a word offset from the bundle's first byte (R109). -/
def State.relTarget (s : State) (off : BitVec 16) : W32 := s.me.pc + 4 * off.signExtend 32
/-- The target of JR, CALLR and RET: bits [31:2] of the register (R109). -/
def regTarget (w : Word) : W32 := w.truncate 32 &&& 0xFFFFFFFC#32
/-- The link of CALL and CALLR (R109). -/
def State.link (s : State) (slot : Nat) : State := s.putS slot 1 15 (s.fr.next.zeroExtend 64)

/-- A branch, taken when its condition is 1 (R109). -/
def branchOp (tg : Tag2) (target : State → W32) (link : Bool) (s : State) : State :=
  (s.enter 2).gate (s.condS tg) fun t =>
    t.branchTo (target s) fun u => if link then u.link (slotOf tg 0) else u

/-- Loop of R111: its writes land at latency 1. -/
def loopOp (slot S : Nat) (T : Word) (s : State) : State :=
  let s := s.setFr { s.fr with loop := true }
  let s := s.setMe { s.me with lsa := s.fr.next, lsk := s.me.lsk || T == 0 }
  let s := ((s.putP slot 1 5 false).putP slot 1 6 false).putP slot 1 7 false
  if T = 0 then ((s.putSr slot 1 0x10 0).putSr slot 1 0x11 0).putP slot 1 4 false
  else
    ((s.putSr slot 1 0x10 (T + BitVec.ofNat 64 (S - 1))).putSr slot 1 0x11 (BitVec.ofNat 64 S)).putP slot 1 4 true

/-- The loop-count fault of R111. -/
def loopFault (a : BitVec 5) (ns : BitVec 2) (s : State) : Option Trap :=
  if (s.rdS a).toNat > 2 ^ 32 - (ns.toNat + 1) then some ⟨0x102, 0, none, none⟩ else none

/-- A SYNC outside a sync bundle makes the bundle illegal (R78, R115). -/
def syncFault (s : State) : Option Trap := if s.fr.tmpl = 1 then none else some ⟨0x001, 0, none, none⟩

/-- The tokens a KWAIT names (R116). -/
def State.kwaitTokens (s : State) (ka kb : BitVec 6) : List Word := [s.me.regs.kGet ka, s.me.regs.kGet kb]

/-- The KWAIT that consumes an errored token raises the transfer's fault, k(ka)'s first (R117). -/
def kwaitFault (tg : Tag2) (ka kb : BitVec 6) (s : State) : Option Trap :=
  if s.condS tg then ((s.kwaitTokens ka kb).findSome? s.myCore.errorOf).map FaultRec.trap else none

/-- The privilege fault of ERET (R119). -/
def eretFault (s : State) : Option Trap :=
  if s.me.sys.priv && s.me.sys.intrap then none else some ⟨0x381, 0, none, none⟩

/-- A TEND that acts finds an untaken error of its task (R121). -/
def tendFault (tg : Tag2) (s : State) : Option Trap :=
  if s.condS tg then (s.myCore.taskError s.fr.ctx.val s.me.sys.wid s.me.sys.taskid).map FaultRec.trap else none

/-- A context that can issue: bound, started, not frozen, not ended, and every token it blocks on ready (R87). -/
def Core.canIssue (k : Core) (x : Fin 4) : Bool :=
  let c := k.ctx x
  c.bound && c.started && c.frozen == .none && c.ended.isNone && c.resumeIn.isNone && c.wait.all k.ready

/-- The first context that can issue, in the order after the one that held issue last, that one last of all
(R87). -/
def Core.nextHolder (k : Core) : Option (Fin 4) :=
  [k.last + 1, k.last + 2, k.last + 3, k.last].find? k.canIssue

/-- Issue passes to a context (R87): one that did not hold it last issues after two switch clk, this clk being the
first, and one that did after the dead clk it owes. A core in which nothing has issued since reset or a freeze has no context to
switch from. -/
def Core.passTo (k : Core) (x : Fin 4) : Core :=
  let c := k.ctx x
  let w := if x = k.last ∨ ¬ k.ran then c.dead else 2
  { (k.setCtx x { c with wait := [], dead := 0 }) with holder := some x, ran := true, wait := w }

/-- The issuing context blocks on its tokens and the core looks for another (R87). -/
def State.block (s : State) (core : Nat) (x : Fin 4) (ts : List Word) : State :=
  let k := s.core core
  let c := k.ctx x
  let k := (k.setCtx x { c with wait := ts }).release x
  s.setCore core (match k.nextHolder with
    | some y => let k := k.passTo y; { k with wait := k.wait - 1, payer := some y }
    | none => { k with payer := none })

/-- Branch by a signed word offset. -/
def actBr (tg : Tag2) (off : BitVec 16) : State → State :=
  branchOp tg (fun s => s.relTarget off) false
/-- BR (R109), issued alone. -/
def execBr (tg : Tag2) (off : BitVec 16) (s : State) : Out :=
  .next (s.issueSyl (.br tg off) (slotOf tg 0) (fieldsOnly (.br tg off)) noFault (actBr tg off))

/-- Branch by offset and link to s15. -/
def actCall (tg : Tag2) (off : BitVec 16) : State → State :=
  branchOp tg (fun s => s.relTarget off) true
/-- CALL (R109), issued alone. -/
def execCall (tg : Tag2) (off : BitVec 16) (s : State) : Out :=
  .next (s.issueSyl (.call tg off) (slotOf tg 0) (fieldsOnly (.call tg off)) noFault (actCall tg off))

/-- Jump to s(a)[31:2] × 4. -/
def actJr (tg : Tag2) (a : BitVec 5) : State → State :=
  branchOp tg (fun s => regTarget (s.rdS a)) false
/-- JR (R109), issued alone. -/
def execJr (tg : Tag2) (a : BitVec 5) (s : State) : Out :=
  .next (s.issueSyl (.jr tg a) (slotOf tg 0) (fieldsOnly (.jr tg a)) noFault (actJr tg a))

/-- Jump to s(a) and link to s15. -/
def actCallr (tg : Tag2) (a : BitVec 5) : State → State :=
  branchOp tg (fun s => regTarget (s.rdS a)) true
/-- CALLR (R109), issued alone. -/
def execCallr (tg : Tag2) (a : BitVec 5) (s : State) : Out :=
  .next (s.issueSyl (.callr tg a) (slotOf tg 0) (fieldsOnly (.callr tg a)) noFault (actCallr tg a))

/-- Jump to s15[31:2] × 4. -/
def actRet (tg : Tag2) : State → State :=
  branchOp tg (fun s => regTarget (s.rdS 15)) false
/-- RET (R109), issued alone. -/
def execRet (tg : Tag2) (s : State) : Out :=
  .next (s.issueSyl (.ret tg) (slotOf tg 0) (fieldsOnly (.ret tg)) noFault (actRet tg))

/-- Branch to the absolute literal address. -/
def actBrl (tg : Tag2) (l : BitVec 4) : State → State :=
  branchOp tg (fun s => s.literal l.toNat) false
/-- BRL (R109), issued alone. -/
def execBrl (tg : Tag2) (l : BitVec 4) (s : State) : Out :=
  .next (s.issueSyl (.brl tg l) (slotOf tg 0) (fun s => (s.literal l.toNat).extractLsb' 0 2 == 0) noFault (actBrl tg l))

/-- Open a software-pipelined loop of S stages over s(a) trips, or set the skip flag for zero trips. -/
def actLoop (tg : Tag2) (ns : BitVec 2) (a : BitVec 5) : State → State :=
  fun s => (s.enter 2).gate (s.condS tg) (loopOp (slotOf tg 0) (ns.toNat + 1) (s.rdS a))
/-- LOOP (R111), issued alone. -/
def execLoop (tg : Tag2) (ns : BitVec 2) (a : BitVec 5) (s : State) : Out :=
  .next (s.issueSyl (.loop tg ns a) (slotOf tg 0) (fieldsOnly (.loop tg ns a)) (loopFault a ns) (actLoop tg ns a))

/-- Marks the trestle wait of a sync bundle; no architectural effect. -/
def actSync (_tg : Tag2) : State → State :=
  fun s => s.enter 2
/-- SYNC (R115), issued alone. -/
def execSync (tg : Tag2) (s : State) : Out :=
  .next (s.issueSyl (.sync tg) (slotOf tg 0) (fieldsOnly (.sync tg)) syncFault (actSync tg))

/-- Raise a software trap with a class-7 code after the bundle's final issue. -/
def actTrap (tg : Tag2) (code : BitVec 10) : State → State :=
  fun s =>
    (s.enter 2).gate (s.condS tg) fun t =>
      if t.fr.trap.isNone then t.setFr { t.fr with trap := some (slotOf tg 0, code.toNat) } else t
/-- TRAP (R118), issued alone. -/
def execTrap (tg : Tag2) (code : BitVec 10) (s : State) : Out :=
  .next (s.issueSyl (.trap tg code) (slotOf tg 0) (fieldsOnly (.trap tg code)) noFault (actTrap tg code))

/-- Return from a trap, restoring privilege, loop skip, current operations and the trap chest. -/
def actEret (tg : Tag2) : State → State :=
  fun s =>
    (s.enter 2).gate (s.condS tg) fun t => t.branchTo s.me.sys.epc fun u => u.setFr { u.fr with eret := true }
/-- ERET (R119), issued alone. -/
def execEret (tg : Tag2) (s : State) : Out :=
  .next (s.issueSyl (.eret tg) (slotOf tg 0) (fieldsOnly (.eret tg)) eretFault (actEret tg))

/-- End the context's hold on issue while staying ready. -/
def actYield (tg : Tag2) : State → State :=
  fun s => (s.enter 2).gate (s.condS tg) fun t => t.setFr { t.fr with yield := true }
/-- YIELD (R120), issued alone. -/
def execYield (tg : Tag2) (s : State) : Out :=
  .next (s.issueSyl (.yield tg) (slotOf tg 0) (fieldsOnly (.yield tg)) noFault (actYield tg))

/-- End the task; it completes once all its work has landed and performed. DESIGN CHOICE (notes/assumptions/51.md): of two TENDs
that act in one bundle the one in S1 gives CAUSE.SLOT of an error found at completion. -/
def actTend (tg : Tag2) : State → State :=
  fun s => (s.enter 2).gate (s.condS tg) fun t => t.setFr { t.fr with tend := some (slotOf tg 0) }
/-- TEND (R121), issued alone. -/
def execTend (tg : Tag2) (s : State) : Out :=
  .next (s.issueSyl (.tend tg) (slotOf tg 0) (fieldsOnly (.tend tg)) (tendFault tg) (actTend tg))

/-- Consume two tokens as an acquire, blocking the bundle until both are ready. -/
def actKwait (_tg : Tag2) (_ka _kb : BitVec 6) : State → State :=
  fun s => s.enter 2

/-- The bundle at the program counter is a gang-entry bundle, with which a gang-timed region starts (R88, R256). -/
def State.opensRegion (s : State) : Bool := s.fr.tmpl == 4 && s.me.sys.gang

/-- The issuing context inside a gang-timed region. -/
def State.inRegion (s : State) : State := s.setMe { s.me with region := true }

/-- KWAIT (R116), issued alone: a token that is not ready blocks the bundle, or, inside a gang-timed region and
outside a sync bundle, raises the gang-block fault (R87, R88). -/
def execKwait (tg : Tag2) (ka kb : BitVec 6) (s : State) : Out :=
  let ts := (s.kwaitTokens ka kb).filter fun w => !s.myCore.ready w
  if s.condS tg && !ts.isEmpty then
    if (s.me.region || s.opensRegion) && s.fr.tmpl != 1 then
      .next (s.inRegion.takeTrap s.fr.core s.fr.ctx 0 ⟨0x101, 0, some (slotOf tg 0), none⟩ s.me.pc)
    else if s.me.region then .next s
    else .next (s.block s.fr.core s.fr.ctx ts)
  else
    .next (s.issueSyl (.kwait tg ka kb) (slotOf tg 0) (fieldsOnly (.kwait tg ka kb)) (kwaitFault tg ka kb)
      (actKwait tg ka kb))

end Sys2Proof.Machine
end

