-- ==== Sys2Proof/Machine/Fabric.lean ====
section
/-! DEFINITION. The fabric endpoint: requests performed at their target (R399 to R401), answers, plane and control packets of
collectives (R408 to R422), messages and signals (R419, R420), dead links (R403), and the host port (R405, R406). -/

namespace Sys2Proof.Machine

/-! ### At most once (R401) -/

/-- The reply that a repeated request gets, whether it lies before the window, else none. -/
def State.seen (s : State) (p : Packet) : Option (Option Packet) :=
  let key := 4 * p.smod + classOf p.type
  let mine := s.served.filter fun (e : Nat × Nat × Packet) => e.1 == key
  match mine.find? fun e => e.2.1 == p.pseq with
  | some e => some (some e.2.2)
  | none =>
    -- before the window: at least 4,096 behind a value that has been performed
    if mine.any fun e => (let d := (e.2.1 + 2 ^ 32 - p.pseq) % 2 ^ 32; decide (4096 ≤ d ∧ d < 2 ^ 31)) then some none else none

/-- A performed request and its reply are kept: the last 4,096 for each source and class. -/
def State.keep (s : State) (q r : Packet) : State :=
  let key := 4 * q.smod + classOf q.type
  let n := (s.served.filter fun (e : Nat × Nat × Packet) => e.1 == key).length
  let old := if n < 4096 then s.served
    else match s.served.findIdx? fun (e : Nat × Nat × Packet) => e.1 == key with
      | some i => s.served.eraseIdx i
      | none => s.served
  { s with served := old ++ [(key, q.pseq, r)] }

/-- A core of a peer among the writers of a clk: its number follows those of this module's cores. -/
def peerCore (p : Packet) : Nat := moduleCores * (1 + p.smod) + p.core

/-- A reply leaves once the deliveries of a core's transfer have performed (log 39). -/
def State.replyAfter (s : State) (core : Nat) (x : Xid) (r : Packet) : State :=
  if s.delivering core x then { s with owed := s.owed ++ [((core, x), r)] } else s.reply r

/-- The reply of the first performance leaves again, if it has left. -/
def State.again (s : State) (r : Packet) : State := if s.owed.any fun o => decide (o.2 = r) then s else s.reply r

/-- A request is performed at most once: a repeated one gets the reply of the first performance. -/
def State.once (s : State) (p : Packet) (f : State → State × Packet) : State :=
  match s.seen p with
  | some (some r) => s.again r
  | some none => s
  | none => let r := f s; (r.1.keep p r.2).replyAfter (peerCore p) p.x r.2

/-- The answer of a performed request, or of one that is refused with a cause. -/
def doneReply (p : Packet) (code : Nat) : Packet := replyTo p 17 [BitVec.ofNat 64 code] []

/-- The operand word that carries a request's round, in its bits [63:44] (R374; log 33). -/
def roundWord (p : Packet) : Nat := if p.type = 4 then 2 else 0
/-- The round a request carries; 0 reads as 1. -/
def packetRound (p : Packet) : Nat := Nat.max 1 (fld (wordAt p.ops (roundWord p)) 44 20)
/-- The request of another round. -/
def withRound (p : Packet) (n : Nat) : Packet :=
  { p with ops := p.ops.set (roundWord p) (BitVec.ofNat 64 (fld (wordAt p.ops (roundWord p)) 0 44 + n * 2 ^ 44)) }

/-- A request whose target does not accept it now is answered retained-wait with its round (R374). -/
def State.waitReply (s : State) (p : Packet) : State := s.reply (replyTo p 19 [BitVec.ofNat 64 (packetRound p)] [])

/-! ### Requests at their target (R399, R400) -/

/-- A place of this module that requests reach. -/
def Place.here : Place → Bool
  | .hbm _ => true
  | .scm => true
  | .vault _ _ => true
  | .pad _ => true
  | _ => false

/-- A request to memory of this module: page-format outside it, retained-wait where it is not accepted, else performed. -/
def State.serve (s : State) (p : Packet) (f : State → Place → Nat → State × Packet) : State :=
  let a := packetOffset p
  let pl := placeOf a
  if ¬ pl.here then s.once p fun s => (s, doneReply p 0x08A)
  else if s.retained pl false ∧ (s.seen p).isNone then s.waitReply p
  else s.once p fun s => f s pl a

def Place.isPad : Place → Bool
  | .pad _ => true
  | _ => false

/-- The lines that hold bytes [a, a + n) contain an uncorrectable error (R363). -/
def State.flawed (s : State) (a n : Nat) : Bool := s.flaws.any fun l => decide (64 * l < a + n ∧ a < 64 * l + 64)

/-- A request that meets an uncorrectable error is answered with its code, and an HBM row that gave one counts it (R363, R364). -/
def State.flawReply (s : State) (p : Packet) (a n : Nat) : State × Packet :=
  let pl := placeOf a
  (match pl with
   | .hbm _ => s.rowErrors (a / hbmSize) (s.flaws.filter fun l => decide (64 * l < a + n ∧ a < 64 * l + 64))
   | _ => s, doneReply p pl.flawCode)

/-- READ_REQUEST: the bytes as the home ports give them. -/
def State.readAt (s : State) (p : Packet) : State :=
  s.settle.serve p fun s _ a =>
    let n := fld (wordAt p.ops 1) 0 32
    if s.flawed a n then s.flawReply p a n else (s, replyTo p 16 [] (s.mem.bytes a n))

/-- The host's copies of the lines of bytes [a, a + n) are back-invalidated. -/
def State.backLines (s : State) (a n : Nat) : State :=
  (List.range ((a + n + 63) / 64 - a / 64)).foldl (fun s k => s.backInvalidate (a / 64 + k)) s

/-- A peer's bytes written here: at once, or by a delivery into on-die SRAM. The host's copies of the lines go first (R405). -/
def State.writeAt (s : State) (p : Packet) : State :=
  s.settle.serve p fun s pl a =>
    let cells := p.data.zipIdx.map fun b => (a + b.2, 255, b.1.toNat)
    let s := if pl.onDie then
        s.addDelivery (pl.die.getD 0) (.bytes p.x ⟨pl.unitPort, peerCore p, 0, none, cells⟩)
      else { s.backLines a p.data.length with mem := s.mem.write a p.data }
    (s, doneReply p 0)

/-- A peer's arrival at a barrier of this module, in HBM or a vault (R307, R356). -/
def State.peerArrival (s : State) (p : Packet) (b : Nat) : State :=
  match placeOf b with
  | .hbm _ => let s := s.settle.backLines b 16; { s with mem := (s.mem.arriveAt b).1 }
  | .vault d c => s.addDelivery d (.arrive p.x (Place.vault d c).unitPort (peerCore p) 0 b none)
  | _ => s

/-- A reduction or atomic of a peer (R352 to R357), or the addition of an XSIG POST (R419), then the arrival at its barrier, or that arrival
alone (log 39); while the barrier's die is parked the request is not taken (R356, R374). -/
def State.reduceRequest (s : State) (p : Packet) : State :=
  let w := (wordAt p.ops 1).toNat
  let op := w % 16
  let v := (wordAt p.ops 2).toNat
  let b := (wordAt p.ops 4).toNat
  if w.testBit 4 ∧ s.retained (placeOf b) false ∧ (s.seen p).isNone then s.waitReply p
  else s.settle.serve p fun s pl a =>
    let n := if pl.onDie then 8 else redBytes op
    if w.testBit 7 then
      match pl with
      | .hbm _ | .vault _ _ => if s.flawed a 16 then s.flawReply p a 16 else (s.peerArrival p a, doneReply p 0)
      | _ => (s, doneReply p 0x08A)
    else if pl = .scm ∨ pl.isPad ∨ (pl.onDie ∧ ¬ w.testBit 6) then (s, doneReply p 0x08A)
    else if s.flawed a n then s.flawReply p a n
    else if w.testBit 4 ∧ s.flawed b 16 then s.flawReply p b 16
    else
      let s := s.backInvalidate (a / 64)
      let r := if w.testBit 5 then s.atomicAt op a v (wordAt p.ops 3).toNat
        else if pl.onDie then (s.addDelivery (pl.die.getD 0) (.arrive p.x pl.unitPort (peerCore p) 0 a (some (BitVec.ofNat 64 v))), 0)
        else (s.reduceAt op a v, 0)
      let s := if w.testBit 4 then r.1.peerArrival p b else r.1
      (s, if w.testBit 5 then replyTo p 20 [BitVec.ofNat 64 r.2] [] else doneReply p 0)

/-- READ_REQUEST (R399). -/
def execReadRequest (s : State) : Out := .next (s.readAt s.ev.packet)
/-- WRITE_REQUEST (R399, R401). -/
def execWriteRequest (s : State) : Out := .next (s.writeAt s.ev.packet)
/-- REDUCTION_REQUEST (R352, R399). -/
def execReductionRequest (s : State) : Out := .next (s.reduceRequest s.ev.packet)

/-! ### Messages (R420) -/

/-- Destination, tag and length of an XSEND; source and capacity of an XRECV. -/
def msgTag (t : Xfer) : Nat := fld (wordAt t.args 1) 32 32
def msgMod (t : Xfer) : Nat := fld (wordAt t.args 1) 0 8
def msgLen (t : Xfer) : Nat := fld (wordAt t.args 2) 0 32

/-- The raw bytes of an end. -/
def msgArea (t : Xfer) : Area :=
  let a := wordAt t.args 0
  if addrWindow a then
    let d := windowArea t.wins t.core a 0
    { d with base := d.objAt, off := 0, bits := 8, fmt := 16, geo := 3 }
  else { virt := true, base := addrVirt a, off := 0, bits := 8, fmt := 16, geo := 3, pitch := 0, shadow := 0, len := 2 ^ 55 }

/-- An XSEND to the same module and tag that has not been announced. -/
def unannounced (t u : Xfer) : Bool :=
  (u.op matches .xsend _ _ _ _) && msgTag u == msgTag t && msgMod u == msgMod t && u.sent == [] && u.phase != .waiting

/-- Messages of one module and tag go out in issue order: no earlier XSEND of any core to the same module and tag waits. Of two issued in
one clk that of the lesser core number is the earlier (log 40). -/
def State.sendTurn (s : State) (t : Xfer) : Bool :=
  s.cores.all fun k =>
    if k.1 = t.core then (k.2.xfers.takeWhile fun u => !decide (u.x = t.x)).all fun u => !unannounced t u
    else k.2.xfers.all fun u => !(unannounced t u && (decide (u.issued < t.issued) || (u.issued == t.issued && decide (k.1 < t.core))))

/-- The address that a message's undelivered bytes report: its copy address and the byte's offset in it (R400). -/
def msgAt (t : Xfer) (off : Nat) : Nat := addrVirt (wordAt t.args 0) + off

/-- An XSEND reads its bytes and announces its message. -/
def State.announce (s : State) (t : Xfer) : State :=
  if t.sent ≠ [] ∨ ¬ s.sendTurn t then s
  else
    let s := s.settle
    let d := msgArea t
    match s.readBytes t d.virt none .read d.base (msgLen t) with
    | .error st => s.stopped t d.base st
    | .ok bs =>
      match s.request { dmod := msgMod t, smod := 0, type := 37, asid := t.asid, pseq := 0, core := t.core, x := t.x
                        ops := [BitVec.ofNat 64 (msgTag t), BitVec.ofNat 64 (msgLen t)], data := [] } 0 (msgAt t 0) with
      | some s => s.updXfer { t with buf := bs, sent := [0], round := 0 }
      | none => s.failAt t 0x187 (msgAt t 0)

/-- Message data leaves in pieces of at most 768 bytes, no more than 4,096 unanswered (R401). -/
def State.sendMessage : Nat → State → Xfer → State
  | 0, s, _ => s
  | n + 1, s, t =>
    if msgLen t ≤ t.nblk then s
    else
      let bs := (t.buf.drop t.nblk).take 768
      match s.request { dmod := msgMod t, smod := 0, type := 5, asid := t.asid, pseq := 0, core := t.core, x := t.x
                        ops := [BitVec.ofNat 64 (msgTag t), BitVec.ofNat 64 bs.length, BitVec.ofNat 64 t.nblk], data := bs }
          0 (msgAt t t.nblk) with
      | none => s.failAt t 0x187 (msgAt t t.nblk)
      | some s =>
        let t := { t with nblk := t.nblk + bs.length }
        State.sendMessage n (s.updXfer t) t

/-- The requests of a transfer that stand unanswered. -/
def State.outstanding (s : State) (t : Xfer) : Nat :=
  (s.sents.filter fun (e : Sent) => e.pkt.core == t.core && decide (e.pkt.x = t.x)).length

/-- More of a message whose receive is matched leaves; an XSEND with every byte answered has performed. -/
def State.sendMore (s : State) (t : Xfer) : State :=
  if t.cut ∨ t.phase ≠ .started then s
  else if t.nblk < msgLen t then State.sendMessage (4096 - s.outstanding t) s t
  else if s.awaiting t then s
  else s.pieceDone t 0

/-- A receive and the message of a ready-to-send match (R420). -/
def Recv.matches (r : Recv) (p : Packet) : Bool :=
  r.mate.isNone && decide (r.tag = fld (wordAt p.ops 0) 0 32 ∧ r.asid = p.asid) && (r.src == 0xFF || r.src == p.smod)

/-- The packet that a clear-to-send answers. -/
def clearPacket (p : Packet) : Packet := replyTo p 37 [BitVec.ofNat 64 (fld (wordAt p.ops 0) 0 32), wordAt p.ops 1, 0, 1] []

/-- A request has been performed: its reply is kept, and leaves. -/
def State.answer (s : State) (p r : Packet) : State := (s.keep p r).reply r

/-- A receive takes its message: a message longer than the capacity ends both transfers with collective-error. -/
def State.takeMessage (s : State) (r : Recv) (p : Packet) : State :=
  let len := fld (wordAt p.ops 1) 0 32
  let others := s.recvs.filter fun (q : Recv) => !(q.core == r.core && decide (q.x = r.x))
  match (s.core r.core).xfer? r.x with
  | none => { s with recvs := others }
  | some t =>
    if r.cap < len then
      (({ s with recvs := others }).failFrom t 0 0x188 0).answer p (doneReply p 0x188)
    else if len = 0 then
      (({ s with recvs := others }).pieceDone { t with found := BitVec.ofNat 64 (p.smod * 2 ^ 32) } 0).answer p (clearPacket p)
    else
      ({ s with recvs := s.recvs.map fun (q : Recv) =>
        if q.core = r.core ∧ q.x = r.x then { q with mate := some (p.smod, p.core, p.x), len := len } else q }).answer p (clearPacket p)

/-- READY_TO_SEND (R420): the oldest receive that matches, else it waits; with 4,096 waiting it waits in its engine. A repeated one that
is already held is not taken again, and one that was matched gets its answer again (R401). -/
def State.readyToSend (s : State) (p : Packet) : State :=
  match s.seen p with
  | some (some r) => s.reply r
  | some none => s
  | none =>
    if s.rts.any fun q => q.smod == p.smod && q.pseq == p.pseq then s
    else match s.recvs.find? fun (r : Recv) => r.matches p with
    | some r => s.takeMessage r p
    | none => if s.rts.length < 4096 then { s with rts := s.rts ++ [p] } else s.waitReply p

def execReadyToSend (s : State) : Out := .next (s.readyToSend s.ev.packet)

/-- An XRECV is posted, 1,024 at most in the module, and takes the oldest message that waits for it. -/
def State.postRecv (s : State) (t : Xfer) : State :=
  if s.recvs.length ≥ 1024 ∨ s.recvs.any (fun (r : Recv) => r.core == t.core && decide (r.x = t.x)) then s
  else
    let r : Recv := { core := t.core, x := t.x, asid := t.asid, tag := msgTag t, src := msgMod t, cap := msgLen t }
    let s := { s with recvs := s.recvs ++ [r] }
    match s.rts.find? fun p => r.matches p with
    | some p => ({ s with rts := s.rts.filter fun q => !decide (q = p) }).takeMessage r p
    | none => s

/-- CLEAR_TO_SEND (R420): the XSEND it names moves its bytes. -/
def execClearToSend (s : State) : Out :=
  let p := s.ev.packet
  .next (match s.sentFor p (fun t => t == 37), (s.core p.core).xfer? p.x with
    | some e, some t => (s.answered e).sendMore t
    | _, _ => s)

/-- Message data lands at its receive (R420). -/
def State.messageAt (s : State) (p : Packet) : State :=
  let data := p.data.take (fld (wordAt p.ops 1) 0 32)
  let n := data.length
  let off := fld (wordAt p.ops 2) 0 32
  match s.seen p with
  | some (some r) => s.again r
  | some none => s
  | none =>
    match s.recvs.find? fun (r : Recv) => decide (r.mate = some (p.smod, p.core, p.x)) with
    | none => s.once p fun s => (s, doneReply p 0x188)
    | some r =>
      match (s.core r.core).xfer? r.x with
      | none => s.once p fun s => (s, doneReply p 0x188)
      | some t =>
        if t.cut then s.waitReply p else
        let others := s.recvs.filter fun (q : Recv) => !decide (q = r)
        let s := s.settle
        let d := msgArea t
        match s.spots t d (byteCells (d.base + off) data) with
        | .error (.fault c f) => (({ s with recvs := others }).once p fun s => (s, doneReply p c)).failFrom t 0 c f
        | .error _ => s.waitReply p
        | .ok sp =>
          match s.writeSpots t 0 sp with
          | .error va => (({ s with recvs := others }).once p fun s => (s, doneReply p 0x187)).failFrom t 0 0x187 va
          | .ok s =>
            let s := (s.keep p (doneReply p 0)).replyAfter t.core t.x (doneReply p 0)
            if r.landed + n ≥ r.len then
              ({ s with recvs := others }).pieceDone { t with found := BitVec.ofNat 64 (p.smod * 2 ^ 32 + r.len) } 0
            else { s with recvs := s.recvs.map fun (q : Recv) => if q = r then { r with landed := r.landed + n } else q }

/-- MESSAGE_DATA (R420). -/
def execMessageData (s : State) : Out := .next (s.messageAt s.ev.packet)

/-! ### Answers -/

/-- READ_DATA: the line a transfer asked for. -/
def execReadData (s : State) : Out :=
  let p := s.ev.packet
  .next (match s.sentFor p (fun t => t == 1) with
    | none => s
    | some e =>
      let s := s.answered e
      match (s.core p.core).xfer? p.x with
      | some t => s.updXfer { t with got := t.got ++ [(e.piece / 64, p.data.take (fld (wordAt e.pkt.ops 1) 0 32))], round := 0 }
      | none => s)

/-- The transfer without the piece whose write request failed. -/
def Xfer.unsent (t : Xfer) (e : Sent) : Xfer :=
  let row : Bool := match t.op with
    | .xgath _ _ _ _ | .xscat _ _ _ _ => true
    | _ => false
  if e.pkt.type = 2 then { t with pieces := t.pieces.filter fun n => n != e.piece && !(row && n == e.piece % 64) } else t

/-- The element, row or lane that a refused request of a transfer serves (R348): of a line to be written the first that lies in it, of a line
to be read the first that waits for it. -/
def State.refusedAt (s : State) (t : Xfer) (e : Sent) : Nat :=
  let asks (src dst : Area) (ms : List Move) : Bool := match s.moveCells t src dst ms with
    | .error (.fetch pa _) => pa == e.piece
    | _ => false
  match t.op, s.copyEnds t with
  | .xcopy _ _ _ _, .ok (src, dst) | .xlin _ _ _ _, .ok (src, dst) =>
    if recCmp t.recd then 0
    else
      let ms := copyMoves (copyKind t.op) t.recd t.rp
      let line := (dst.pieceLines ms).getD e.piece 0
      ((ms.find? fun m => if e.pkt.type = 1 then asks src dst (blockMates dst ms [m]) else (dst.linesOf m.dst).contains line).map
        Move.at_).getD (s.cutRp t)
  | .xgath _ _ _ _, .ok (src, dst) | .xscat _ _ _ _, .ok (src, dst) =>
    if e.pkt.type = 1 then ((List.range t.index.length).find? fun r => asks src dst (t.row r)).getD (s.cutRp t) else e.piece % 64
  | _, _ => s.cutRp t

/-- An undelivered or refused request ends its transfer with the cause, once every element before it has performed; FADDR is the virtual
address it serves. Of several the first element's stands (R348). What a cut transfer wrote in vain it writes again when it re-runs. -/
def State.refused (s : State) (e : Sent) (code : Nat) : State :=
  match (s.core e.pkt.core).xfer? e.pkt.x with
  | none => s
  | some t =>
    let f := if code = 0x188 then 0 else e.va
    let u := t.unsent e
    if t.phase = .waiting then
      if t.err.isSome ∧ s.refusedAt t e < t.failRp then s.updXfer { t with err := some (code, f), failRp := s.refusedAt t e } else s
    else if t.cut ∧ e.pkt.type ≤ 2 then s.updXfer u
    else match t.op, s.copyEnds u with
    | .xcopy _ _ _ _, .ok (src, dst) | .xlin _ _ _ _, .ok (src, dst) =>
      if recCmp t.recd then s.failAt u code f
      else s.copyStop u src dst (copyMoves (copyKind u.op) u.recd u.rp) (s.refusedAt t e) code f
    | .xgath _ _ _ _, .ok _ | .xscat _ _ _ _, .ok _ => s.rowsFail u (s.refusedAt t e) code f
    | _, _ => s.failAt u code f

/-- DONE (R399): a request performed, or a cause. -/
def execDone (s : State) : Out :=
  let p := s.ev.packet
  let code := fld (wordAt p.ops 0) 0 12
  .next (match s.sentFor p (fun t => t == 1 || t == 2 || t == 3 || t == 5 || t == 37) with
    | none => s
    | some e =>
      let s := s.answered e
      if code ≠ 0 then s.refused e code
      else
        match (s.core p.core).xfer? p.x with
        | none => s
        | some t =>
          if e.pkt.type = 3 then
            -- with bit 4 the target's module has made the arrival as well (R356)
            let t := { t with sent := t.sent.filter fun n => n != e.piece }
            s.pieceDone (if (wordAt e.pkt.ops 1).getLsbD 4 then { t with pieces := 1 :: t.pieces } else t) e.piece
          else if e.pkt.type = 5 then s.sendMore t
          else s)

/-- OLD_VALUE (R355): what an atomic found. -/
def execOldValue (s : State) : Out :=
  let p := s.ev.packet
  .next (match s.sentFor p (fun t => t == 3), (s.core p.core).xfer? p.x with
    | some e, some t => (s.answered e).pieceDone { t with found := wordAt p.ops 0 } e.piece
    | _, _ => s)

/-! ### Plane and control packets of collectives -/

/-- The collective a packet names at this member. -/
def State.collFor (s : State) (p : Packet) : Option Coll :=
  s.colls.find? fun (c : Coll) => (c.group, c.coln) == packetColl p

/-- The sender is a member of the group (R423). -/
def State.fromMember (s : State) (p : Packet) : Bool :=
  let g := s.group (packetColl p).1
  g.v && decide (g.gen = (packetColl p).1 / 4096) && (List.range g.n).any fun r => s.memberOf (packetColl p).1 r == p.smod

/-- The group has not yet issued this collective here. -/
def State.comesEarly (s : State) (p : Packet) : Bool :=
  let d := ((packetColl p).2 + 2 ^ 16 - (s.group (packetColl p).1).coln) % 2 ^ 16
  decide (1 ≤ d ∧ d < 2 ^ 15)

/-- A packet that no member of the group sent is dropped and counted (R423). -/
def State.countError (s : State) : State :=
  if s.ev.port < 18 then s.setPort s.ev.port { s.port s.ev.port with errs := (s.port s.ev.port).errs + 1 } else s

/-- A packet is held until its collective runs here. -/
def State.holdEarly (s : State) (p : Packet) : State := if s.early.contains p then s else { s with early := s.early ++ [p] }

/-- A packet of a collective: handled where the collective runs, held while it is still to be issued here, else `past`. -/
def State.atColl (s : State) (p : Packet) (past : State) (f : Coll → State) : State :=
  if ¬ s.fromMember p then s.countError
  else
    match s.collFor p with
    | some c => if c.started ∨ p.type = 34 ∨ p.type = 35 then f c else s.holdEarly p
    | none => if s.comesEarly p then s.holdEarly p else past

/-- A control packet of a collective acts once (R401). -/
def State.actOnce (s : State) (f : State → Packet → Coll → State) : State :=
  let p := s.ev.packet
  if (s.seen p).isSome then s else s.atColl p s (f (s.keep p p) p)

/-- The planes of a plane packet, as many as it counts: 16 bytes each, or the 256 bytes of 64 words. -/
def packetPlanes (p : Packet) (words : Bool) : List Nat :=
  let w := if words then 256 else 16
  (List.range (Nat.min (fld (wordAt p.ops 2) 8 8) (p.data.length / w))).map fun i => leNat ((p.data.drop (w * i)).take w)

/-- The receiver's C for the tile, in answer to a plane packet (R399). -/
def ackReply (p : Packet) (C : Nat) : Packet := replyTo p 18 [BitVec.ofNat 64 C] []

/-- Planes land in a stream: those below C are not rewritten (R413). -/
def Coll.land (c : Coll) (key first : Nat) (ps : List Nat) (sat bad : Bool) : Coll :=
  let old := Table.get [] c.inp key
  if first ≤ old.length then
    { c with inp := Table.put c.inp key (old ++ ps.drop (old.length - first))
             sat := if sat ∧ ¬ c.sat.contains key then key :: c.sat else c.sat
             err := if bad ∧ ¬ c.err.contains key then key :: c.err else c.err }
  else c

/-- The tile a stream lands in cannot be written now (R374). -/
def State.tileRetained (s : State) (c : Coll) (t : Xfer) (i n : Nat) : Bool :=
  match s.tileArea t (if i ≤ c.rsSteps ∧ c.op = 0 then c.stage else c.dst) with
  | .ok d => (match s.phys t d.virt .write none (if c.op = 0 then d.tileAt n else d.base) with
    | .error .wait => true
    | _ => false)
  | .error _ => false

/-- PLANE_DATA at the member (R408, R413, R418). A packet of another description, or that no step of the collective expects, is a mismatch
(log 41). -/
def State.planeAt (s : State) (p : Packet) (c : Coll) : State :=
  let step := fld (wordAt p.ops 1) 0 32
  let tile := fld (wordAt p.ops 1) 32 32
  let first := fld (wordAt p.ops 2) 0 8
  let cut := (wordAt p.ops 2).getLsbD 17
  let T := (wordAt p.ops 3).toInt
  let ps := packetPlanes p (c.op ≠ 0)
  let i := (step + 2 ^ 32 - c.base % 2 ^ 32) % 2 ^ 32
  if wordAt p.ops 4 ≠ c.desc ∨ ¬ (c.takes i).contains tile ∨ c.planes < first + ps.length ∨ (Table.has c.ts tile ∧ Table.get 0 c.ts tile ≠ T) then
    s.collFail c
  else
    match (s.core c.core).xfer? c.x with
    | none => s.waitReply p
    | some t =>
      if t.cut ∨ s.tileRetained c t i tile then s.waitReply p
      else
        let key := streamKey i tile
        let bad := c.op = 0 ∧ ps.any planeBad
        let c := { c with ts := if Table.has c.ts tile then c.ts else Table.put c.ts tile T }
        let c := c.land key first ps ((wordAt p.ops 2).getLsbD 16) bad
        let c := if cut ∧ ¬ Table.has c.cutIn key then { c with cutIn := Table.put c.cutIn key first } else c
        let s := (s.setColl c).once p fun s => (s, ackReply p (Table.get [] c.inp key).length)
        let s := s.pump c.core c.x
        if bad then (match s.coll? c.core c.x with
          | some c => s.collFail c
          | none => s)
        else s

/-- PLANE_DATA (R413): one of a collective that is over is acknowledged and changes nothing. -/
def execPlaneData (s : State) : Out :=
  let p := s.ev.packet
  .next (match s.seen p with
    | some (some r) => s.again r
    | some none => s
    | none => s.atColl p (s.once p fun s => (s, ackReply p (fld (wordAt p.ops 2) 0 8 + fld (wordAt p.ops 2) 8 8))) (s.planeAt p))

/-- The streams of a collective go back to what has been acknowledged, and go on; if they pause at once, the pause has lasted since it
began (R421). -/
def State.resumeStreams (s : State) (c : Coll) : State :=
  let u := { c with out := c.acked, marked := c.markAcked, paused := none }
  let s := { s with sents := s.sents.filter fun (e : Sent) => !(e.pkt.core == c.core && decide (e.pkt.x = c.x) && e.pkt.type == 4) }
  let s := (s.setColl u).pump c.core c.x
  match s.coll? c.core c.x with
  | some d => if d.paused.isSome then s.setColl { d with paused := c.paused.or d.paused } else s
  | none => s

/-- PLANE_ACKNOWLEDGEMENT (R399): the successor's C for the tile of the packet it answers; paused streams go on (R421). -/
def execPlaneAcknowledgement (s : State) : Out :=
  let p := s.ev.packet
  .next (match s.sentFor p (fun t => t == 4) with
    | none => s
    | some e =>
      let s := s.answered e
      match s.collFor e.pkt with
      | none => s
      | some c =>
        let i := (fld (wordAt e.pkt.ops 1) 0 32 + 2 ^ 32 - c.base % 2 ^ 32) % 2 ^ 32
        let key := streamKey i (fld (wordAt e.pkt.ops 1) 32 32)
        let C := fld (wordAt p.ops 0) 0 8
        let c := { c with
          acked := Table.put c.acked key (Nat.max (Table.get 0 c.acked key) (Nat.min C (Table.get 0 c.out key)))
          markAcked := if (wordAt e.pkt.ops 2).getLsbD 17 ∧ ¬ c.markAcked.contains key then key :: c.markAcked else c.markAcked }
        if c.paused.isSome then (s.setColl c).resumeStreams c else (s.setColl c).pump c.core c.x)

/-- EXPONENT (R410): a member's e_t vector is taken and goes on around the ring. -/
def State.exponentAt (s : State) (p : Packet) (c : Coll) : State :=
  let first := fld (wordAt p.ops 1) 0 32
  let cnt := fld (wordAt p.ops 1) 32 32
  let origin := fld (wordAt p.ops 2) 0 32
  if wordAt p.ops 4 ≠ c.desc ∨ ¬ c.round ∨ c.nt < first + cnt ∨ c.n ≤ origin then s.collFail c
  else
    let es := (List.range cnt).map fun i => (first + i, signExt (leNat ((p.data.drop (2 * i)).take 2)) 16)
    let c := ({ c with exps := es.foldl (fun (x : Table Int) (e : Nat × Int) => Table.put x (streamKey origin e.1) e.2) c.exps }).agree
    let s := s.setColl c
    let s := if c.succ = origin ∨ origin = c.rank then s
      else s.sendOr (s.collPacket c c.succ 33 [wordAt p.ops 1, wordAt p.ops 2, 0, c.desc] p.data)
    s.pump c.core c.x

def execExponent (s : State) : Out :=
  .next (s.actOnce State.exponentAt)

/-- CUT_REQUEST (R418): the owner's first request cuts every tile of the segment that is not wholly emitted. -/
def State.cutAt (s : State) (p : Packet) (c : Coll) : State :=
  let seg := if c.kind = .broadcast then List.range c.nt else c.segment (fld (wordAt p.ops 1) 0 32)
  let mine := seg.filter fun t => c.owner t == c.rank
  if c.cutDone ∨ c.op ≠ 0 ∨ c.complete then s
  else
    let c := { c with
      cutDone := true
      cutAt := (mine.filter fun t => decide ((c.dest t).1.length < c.p)).foldl
        (fun (m : Table Nat) t => Table.put m t (c.dest t).1.length) c.cutAt }
    (s.setColl c).pump c.core c.x

def execCutRequest (s : State) : Out :=
  .next (s.actOnce State.cutAt)

/-- ERROR_NOTICE (R415, R421). -/
def execErrorNotice (s : State) : Out :=
  .next (s.actOnce fun s _ c => s.collError c)

/-! ### Interruption and rejoin (R421, R422) -/


/-- The successor has answered a plane packet retained-wait, and its repetition stands unanswered (R374). -/
def State.inRounds (s : State) (c : Coll) : Bool :=
  s.sents.any fun (e : Sent) => e.pkt.core == c.core && decide (e.pkt.x = c.x) && e.pkt.type == 4 && decide (1 < packetRound e.pkt)

/-- STREAM_RESUME (R421): paused streams go on when a port to the successor is common and live. Those of a parked successor go on with its
first acknowledgement. -/
def execStreamResume (s : State) : Out :=
  .next (match s.colls.find? fun (c : Coll) => c.group % 4096 == s.ev.index && c.paused.isSome with
    | some c =>
      let n := s.memberOf c.group c.succ
      if (n ≠ s.modnum ∧ s.commonPorts n = []) ∨ s.inRounds c then s else s.resumeStreams c
    | none => s)

/-- WAITLIM_EXPIRY (R421): a pause longer than WAITLIM seconds, 600 for 0, fails the collective at every member. -/
def execWaitlimExpiry (s : State) : Out :=
  .next (match s.colls.find? fun (c : Coll) => c.group % 4096 == s.ev.index && c.paused.isSome with
    | some c =>
      let g := s.group c.group
      let lim := (if g.waitlim = 0 then 600 else g.waitlim) * 600000000
      if c.paused.getD 0 + lim < s.wcc.toNat then s.collFail c else s
    | none => s)

/-- The successor has the streams of steps up to STEP; that of step STEP + 1 goes out again from PLANE, and every later one
from plane 0. -/
def State.resendFrom (s : State) (c : Coll) (step plane : Nat) : State :=
  let keys := (List.range (c.steps + 1)).flatMap fun i => (c.sends i).map fun t => (i, t)
  -- the steps of this collective that the successor has; its STEP counts modulo 2^32
  let d := (step + 2 ^ 32 - c.base % 2 ^ 32) % 2 ^ 32
  let has (i : Nat) : Bool := decide (d < 2 ^ 31 ∧ i ≤ d)
  let have_ (i : Nat) : Nat := if has i then c.planes else if i = d + 1 then plane else 0
  s.resumeStreams { c with
    acked := keys.map fun (k : Nat × Nat) => (streamKey k.1 k.2, have_ k.1)
    markAcked := (keys.filter fun (k : Nat × Nat) => has k.1).map fun k => streamKey k.1 k.2 }

/-- A rejoin packet's group, STEP and PLANE. -/
def rejoinGroup (p : Packet) : Nat := fld (wordAt p.ops 0) 0 32
def rejoinStep (p : Packet) : Nat := fld (wordAt p.ops 1) 0 32
def rejoinPlane (p : Packet) : Nat := fld (wordAt p.ops 2) 0 6

/-- A REJOIN or REJACK to a rank (R422). -/
def State.rejoinPacket (s : State) (g : Nat) (rank kind : Nat) : Packet :=
  let e := s.group g
  { dmod := s.memberOf g rank, smod := 0, type := 36, asid := e.asid, pseq := 0, core := 0, x := ⟨0, 0⟩
    ops := [BitVec.ofNat 64 g, BitVec.ofNat 64 e.step, BitVec.ofNat 64 e.plane, BitVec.ofNat 64 kind], data := [] }

/-- The rank of a packet's source in a group. -/
def State.rankOf (s : State) (g n m : Nat) : Option Nat := (List.range n).find? fun r => s.memberOf g r == m

/-- The collectives of a group send their streams again to the rank that holds them up to STEP and PLANE, when it is their successor. -/
def State.resendGroup (s : State) (g r step plane : Nat) : State :=
  (s.colls.filter fun (c : Coll) => c.group == g && c.succ == r).foldl (fun s (c : Coll) => s.resendFrom c step plane) s

/-- The exponents that the collectives of a group know go to their successor again. -/
def State.resendExps (s : State) (g r : Nat) : State :=
  (s.colls.filter fun (c : Coll) => c.group == g && c.succ == r && c.round).foldl (fun s (c : Coll) =>
    (List.range c.n).foldl (fun s o => if (List.range c.nt).all fun t => Table.has c.exps (streamKey o t) then s.sendExps c o else s) s) s

/-- REJOIN (R422): the predecessor resends, and the exponents it knows with it; every member answers REJACK. -/
def execRejoin (s : State) : Out :=
  let p := s.ev.packet
  let g := rejoinGroup p
  let e := s.group g
  .next (if ¬ e.v ∨ e.gen ≠ g / 4096 ∨ (s.seen p).isSome then s
    else match s.rankOf g e.n p.smod with
      | none => s.countError
      | some r => (((s.keep p p).sendOr (s.rejoinPacket g r 1)).resendExps g r).resendGroup g r (rejoinStep p) (rejoinPlane p))

/-- REJACK (R422): the rejoining member resends to its successor from the successor's STEP and PLANE. -/
def execRejack (s : State) : Out :=
  let p := s.ev.packet
  let g := rejoinGroup p
  .next (if (s.seen p).isSome then s
    else match s.rankOf g (s.group g).n p.smod with
      | some r => (s.keep p p).resendGroup g r (rejoinStep p) (rejoinPlane p)
      | none => s)

/-! ### Dead links (R403) -/

/-- A packet of a drain that has ended: a request or control packet goes out again on a common live port under its PSEQ, a
plane stream pauses, a request that no port takes is undelivered, and a control packet waits for the next port. -/
def State.redeliver (s : State) (e : Sent) : State :=
  if e.pkt.type = 4 then
    let s := s.answered e
    match s.collFor e.pkt with
    | some c => s.setColl { c with paused := some (c.paused.getD s.wcc.toNat) }
    | none => s
  else
    match s.commonPorts e.pkt.dmod with
    | [] =>
      if oneWay e.pkt then { s with sents := s.sents.map fun (f : Sent) => if f = e then { e with port := unsentPort, round := 0 } else f }
      else (s.answered e).refused e 0x187
    | ps =>
      let q := ps.getD (portIndex e.pkt % ps.length) 0
      let s := s.pushAt q e.pkt
      if oneWay e.pkt then s.answered e
      else { s with sents := s.sents.map fun (f : Sent) => if f = e then { e with port := q, round := 0 } else f }

/-- A request that has not left finds no port: it is undelivered (R400). -/
def State.stranded (s : State) (e : Sent) : Bool := e.port == unsentPort && !oneWay e.pkt && s.commonPorts e.pkt.dmod == []

/-- DRAIN_ROUND (R403): a round of 10 µs ends; after the fourth, what is unanswered is undelivered. -/
def execDrainRound (s : State) : Out :=
  let mine (e : Sent) : Bool := e.pkt.dmod == s.ev.index && e.round != 0
  let overs := s.sents.filter fun (e : Sent) => (mine e && decide (4 ≤ e.round)) || (e.pkt.dmod == s.ev.index && s.stranded e)
  let s := { s with sents := s.sents.map fun (e : Sent) => if mine e ∧ e.round < 4 then { e with round := e.round + 1 } else e }
  .next (overs.foldl (fun s (e : Sent) => if s.sents.contains e then s.redeliver e else s) s).sendWaiting

/-! ### Signals (R419) -/

def sigMode (t : Xfer) : Nat := litOpt t.lit % 4

/-- The word an XSIG names, by physical address. -/
def State.sigPlace (s : State) (t : Xfer) (r : Right) : Except Stop Nat :=
  let a := wordAt t.args 0
  if addrWindow a then s.phys t false r none (windowArea t.wins t.core a 0).objAt
  else s.phys t true r none (addrVirt a)

/-- POST: the increment is added once, here or at its module. -/
def State.sigPost (s : State) (t : Xfer) : State :=
  let va := addrVirt (wordAt t.args 0)
  let v := wordAt t.args 1
  if t.sent ≠ [] ∨ s.undelivered t then s
  else
    match s.sigPlace t .both with
    | .error st => s.stopped t va st
    | .ok pa =>
      match placeOf pa with
      | .hbm _ =>
        let s := if litScope t.lit = 6 then s.backInvalidate (pa / 64) else s
        (s.reduceAt 1 pa v.toNat).pieceDone t 0
      | .vault d c => s.addDelivery d (.arrive t.x (t.portTo (.vault d c)) t.core t.ctx pa (some v))
      | .peer n off =>
        (match placeOf off with
         | .pad _ | .scm | .host | .nowhere | .peer _ _ => s.failXfer t 0x08A va
         | _ =>
           match s.request { dmod := n, smod := 0, type := 3, asid := t.asid, pseq := 0, core := t.core, x := t.x
                             ops := [BitVec.ofNat 64 off, 0x41, v], data := [] } 0 va with
           | some s => s.updXfer { t with sent := [0] }
           | none => s.failXfer t 0x187 va)
      | _ => s.failXfer t 0x08A va

/-- WAITS: the word of this module has reached the threshold. -/
def State.sigWait (s : State) (t : Xfer) : State :=
  let s := s.settle
  let va := addrVirt (wordAt t.args 0)
  match s.sigPlace t .read with
  | .error st => s.stopped t va st
  | .ok pa =>
    if ¬ (placeOf pa).here then s.failXfer t 0x08A va
    else if (wordAt t.args 1).toNat ≤ (s.mem.word pa).toNat then s.pieceDone t 0
    else if t.round = 0 then s else s.updXfer { t with round := 0 }

/-- WAITP: the entry's summary has C ≥ p, DONE or CUT; ERR ends the token with collective-error. -/
def State.sigPlane (s : State) (t : Xfer) : State :=
  let e := (s.core t.core).cst[(⟨(wordAt t.args 0).toNat % 16, Nat.mod_lt _ (by omega)⟩ : Fin 16)]
  if e.word.getLsbD 29 then s.failXfer t 0x188 0
  else if fld (wordAt t.args 1) 0 6 ≤ fld e.word 0 6 ∨ e.word.getLsbD 31 ∨ e.word.getLsbD 30 then s.pieceDone t 0
  else s

def State.signal (s : State) (t : Xfer) : State :=
  if t.pieces.contains 0 then s
  else
    match sigMode t with
    | 0 => s.sigPost t
    | 1 => s.sigWait t
    | _ => s.sigPlane t

/-- WAITS_REEXAMINE (R419). -/
def execWaitsReexamine (s : State) : Out :=
  .next (match s.evXfer with
    | some t => if (t.op matches .xsig _ _ _ _) ∧ sigMode t = 1 ∧ s.working t then s.signal t else s
    | none => s)

/-! ### Issue of XSEND, XRECV and XSIG -/

/-- The faults of XSEND and XRECV at issue (R420). -/
def msgFault (send : Bool) (a : BitVec 5) (s : State) : Option Trap :=
  let at_ := s.nowS a
  let w1 := s.nowS (a + 1)
  let n := fld (s.nowS (a + 2)) 0 32
  let w := winOf s.me.sys.wins (addrWin at_)
  let d := windowArea s.me.sys.wins s.fr.core at_ 0
  (if fld w1 8 24 ≠ 0 ∨ (191 < fld w1 0 8 ∧ fld w1 0 8 ≠ 0xFF) then xTrap 0x189 0 else none).or
  ((if addrOk at_ false then none else xTrap 0x08B 0).or
  ((if addrWindow at_ ∧ (w.kind = 0 ∨ (if send then ¬ w.rd else ¬ w.wr)) then xTrap 0x081 0 else none).or
  ((if addrWindow at_ then
      (if n ≠ 0 ∧ d.objAt - d.base + n > w.len then xTrap 0x084 (faddrOf (max (d.objAt - d.base : Nat) w.len)) else none)
    else if addrVirt at_ + n > 2 ^ 55 then xTrap 0x08B 0 else none).or
  (limitFault s))))

/-- A destination range of on-die SRAM is pending (R292). -/
def State.rangePend (s : State) (wins : Vector Win 8) (core asid : Nat) (a : Word) (n : Nat) : List (Nat × Nat) :=
  if n = 0 then []
  else if addrWindow a then [((windowArea wins core a 0).objAt, (windowArea wins core a 0).objAt + n)]
  else s.pendVirt core asid (addrVirt a, addrVirt a + n)
/-- The pending range of an XRECV of the issuing context. -/
def State.recvPend (s : State) (a : BitVec 5) : List (Nat × Nat) :=
  s.rangePend s.me.sys.wins s.fr.core s.me.bind.asid.toNat (s.nowS a) (fld (s.nowS (a + 2)) 0 32)

/-- XSEND captures its operands. -/
def actXsend (tg : Tag) (kd : BitVec 6) (a : BitVec 5) (l : BitVec 4) : State → State := xtOp (.xsend tg kd a l) tg kd a l
/-- XSEND (R420), issued alone. -/
def execXsend (tg : Tag) (kd : BitVec 6) (a : BitVec 5) (l : BitVec 4) (s : State) : Out :=
  .next (s.issueSyl (.xsend tg kd a l) 7 (litOk (.xsend tg kd a l) l 0) (msgFault true a) (actXsend tg kd a l))

/-- The pending-range table has room for an XRECV. -/
def recvFault (a : BitVec 5) (s : State) : Option Trap :=
  (msgFault false a s).or
    (if s.recvPend a ≠ [] ∧ s.myCore.pend.length + 1 > 32 then xTrap 0x186 0 else none)

/-- XRECV captures its operands and enters its pending range. -/
def actXrecv (tg : Tag) (kd : BitVec 6) (a : BitVec 5) (l : BitVec 4) (s : State) : State :=
  (s.enter 14).gate (s.cond tg) fun s =>
    let lit := s.tokenLit l
    let t := { s.mkXfer (.xrecv tg kd a l) (litCh lit) lit (s.argsX a) [] with late := physReg s.me.sys.rot (a + 3) }
    let ps := s.recvPend a
    let s := (s.addXfer t (litCh lit)).putK 7 1 kd (tokenOf t.x)
    s.setMyCore { s.myCore with pend := s.myCore.pend ++ ps.map fun p => ⟨p.1, p.2, t.x⟩ }
/-- XRECV (R420), issued alone. -/
def execXrecv (tg : Tag) (kd : BitVec 6) (a : BitVec 5) (l : BitVec 4) (s : State) : Out :=
  .next (s.issueSyl (.xrecv tg kd a l) 7 (litOk (.xrecv tg kd a l) l 0) (recvFault a) (actXrecv tg kd a l))

/-- OPT of an XSIG (R419): modes 0 to 2. -/
def sigOptOk (lit : W32) : Bool := decide (litOpt lit ≤ 2)

/-- P of the collective an entry holds, 0 for none (R419). -/
def Cst.planes (e : Cst) : Nat := fld e.word 22 6

/-- The faults of XSIG at issue (R419). -/
def sigFault (a : BitVec 5) (l : BitVec 4) (s : State) : Option Trap :=
  let mode := litOpt (s.tokenLit l)
  let at_ := s.nowS a
  let w := winOf s.me.sys.wins (addrWin at_)
  let d := windowArea s.me.sys.wins s.fr.core at_ 0
  let off := d.objAt - d.base
  (if mode = 2 then
     (if (s.myCore.cst[(⟨at_.toNat % 16, Nat.mod_lt _ (by omega)⟩ : Fin 16)]).planes < fld (s.nowS (a + 1)) 0 6 then
        xTrap 0x202 0 else none)
   else
     (if addrOk at_ false then none else xTrap 0x08B 0).or
     ((if addrWindow at_ ∧ (w.kind = 0 ∨ ¬ w.rd ∨ (mode = 0 ∧ ¬ w.wr)) then xTrap 0x081 0 else none).or
     ((if (if addrWindow at_ then off else addrVirt at_) % 8 ≠ 0 then xTrap 0x083 (if addrWindow at_ then faddrOf (off : Nat) else 0)
        else none).or
     (if addrWindow at_ then (if off + 8 > w.len then xTrap 0x084 (faddrOf (max (off : Nat) w.len)) else none)
      else if addrVirt at_ + 8 > 2 ^ 55 then xTrap 0x08B 0 else none)))).or
  (limitFault s)

/-- XSIG captures its operands. -/
def actXsig (tg : Tag) (kd : BitVec 6) (a : BitVec 5) (l : BitVec 4) : State → State := xtOp (.xsig tg kd a l) tg kd a l
/-- XSIG (R419), issued alone. -/
def execXsig (tg : Tag) (kd : BitVec 6) (a : BitVec 5) (l : BitVec 4) (s : State) : Out :=
  .next (s.issueSyl (.xsig tg kd a l) 7 (fun s => litOk (.xsig tg kd a l) l 8 s && sigOptOk (s.tokenLit l)) (sigFault a l)
    (actXsig tg kd a l))

/-! ### The host port (R405, R406) -/

/-- HOST_MEM_READ (R405): the read passes the line's memory port, and the directory records the line; when it is full the
oldest entry is back-invalidated first. -/
def execHostMemRead (s : State) : Out :=
  let line := s.ev.addr / 64
  .next (if s.ev.addr < 8 * hbmSize ∧ ¬ s.retained (placeOf s.ev.addr) false then
      let s := s.drainLine line
      if s.directory.contains line then s
      else { s with directory := (if s.directory.length ≥ 1048576 then s.directory.drop 1 else s.directory) ++ [line] }
    else s)

/-- HOST_MEM_WRITE (R405). -/
def execHostMemWrite (s : State) : Out :=
  .next (if s.ev.addr + s.ev.bytes.length ≤ 8 * hbmSize ∧ ¬ s.retained (placeOf s.ev.addr) false then
      let s := s.settle
      { s with mem := s.mem.write s.ev.addr s.ev.bytes }
    else s)

/-- HOST_SNOOP (R406): the line is served from the host-line buffer, where it stays. -/
def execHostSnoop (s : State) : Out := .next s

end Sys2Proof.Machine
end

