-- ==== Sys2Proof/Machine/Manifest.lean ====
section
/-! DEFINITION. HIBLIST and its instructions (R376, R384), the drain-cost model (R368), manifests (R378 to R380), the drain
(R377) and XCKPT. -/

namespace Sys2Proof.Machine

/-! ### HIBLIST (R376) -/

def hibSize : Nat := 4096
def HibEntry.v (h : HibEntry) : Bool := h.w0.getLsbD 63
def HibEntry.prio (h : HibEntry) : Nat := fld h.w0 59 4
def HibEntry.phys (h : HibEntry) : Bool := h.w0.getLsbD 58
def HibEntry.strm (h : HibEntry) : Bool := h.w0.getLsbD 57
def HibEntry.base (h : HibEntry) : Nat := fld h.w0 0 55
def HibEntry.asid (h : HibEntry) : Nat := fld h.w1 48 16
def HibEntry.nline (h : HibEntry) : Nat := fld h.w1 0 40
def HibEntry.bytes (h : HibEntry) : Nat := 64 * h.nline
def State.hib (s : State) (i : Nat) : HibEntry := Table.get {} s.hiblist i

/-- A physical region lies in one HBM stack, vault or scratchpad. -/
def HibEntry.inOne (h : HibEntry) : Bool :=
  let a := placeOf h.base
  let b := placeOf (h.base + h.bytes - 1)
  a == b && (match a with
    | .hbm _ => true
    | .vault _ _ => true
    | .pad _ => true
    | _ => false)

/-- What XHADD accepts (R384). -/
def HibEntry.ok (h : HibEntry) : Bool :=
  h.v && fld h.w0 55 2 == 0 && fld h.w1 40 8 == 0 && h.base % 64 == 0 && h.nline != 0 && (!h.phys || h.inOne)

/-- COST of R368, in mJ. -/
def HibEntry.cost (h : HibEntry) (rate : Nat) : Nat := ((h.bytes + 2 ^ 20 - 1) / 2 ^ 20 * rate + 999) / 1000

/-- The valid entries in the order of the walk of R377. -/
def State.hibWalk (s : State) : List (Nat × HibEntry) :=
  (List.range 16).flatMap fun p => (List.range hibSize).filterMap fun i =>
    let h := s.hib i
    if h.v ∧ h.prio = p then some (i, h) else none

/-- HIBMIN of R368. -/
def State.hibMin (s : State) : Nat :=
  s.power.fixCost + s.power.sealCost
    + ((s.hiblist.filter fun e => e.2.v && e.2.prio == 0).map fun e => e.2.cost s.power.rate).sum

/-- The check of XHADD at issue (R384), on a privileged context. -/
def xhaddFault (a : BitVec 5) (s : State) : Option Trap :=
  (if s.me.sys.priv then none else xTrap 0x381 0).or
  ((if HibEntry.ok ⟨s.nowS a, s.nowS (a + 1), s.nowS (a + 2)⟩ then none else xTrap 0x004 0).or (limitFault s))
def xhdelFault (a : BitVec 5) (s : State) : Option Trap :=
  (if s.me.sys.priv then none else xTrap 0x381 0).or
  ((if fld (s.nowS a) 12 52 = 0 then none else xTrap 0x004 0).or (limitFault s))
def xckptFault (s : State) : Option Trap := (if s.me.sys.priv then none else xTrap 0x381 0).or (limitFault s)

/-- XHADD captures its entry. -/
def actXhadd (tg : Tag) (kd : BitVec 6) (a : BitVec 5) (l : BitVec 4) : State → State := xtOp (.xhadd tg kd a l) tg kd a l
/-- XHADD (R384), issued alone. -/
def execXhadd (tg : Tag) (kd : BitVec 6) (a : BitVec 5) (l : BitVec 4) (s : State) : Out :=
  .next (s.issueSyl (.xhadd tg kd a l) 7 (litOk (.xhadd tg kd a l) l 0) (xhaddFault a) (actXhadd tg kd a l))
/-- XHDEL captures its index. -/
def actXhdel (tg : Tag) (kd : BitVec 6) (a : BitVec 5) (l : BitVec 4) : State → State := xtOp (.xhdel tg kd a l) tg kd a l
/-- XHDEL (R384), issued alone. -/
def execXhdel (tg : Tag) (kd : BitVec 6) (a : BitVec 5) (l : BitVec 4) (s : State) : Out :=
  .next (s.issueSyl (.xhdel tg kd a l) 7 (litOk (.xhdel tg kd a l) l 0) (xhdelFault a) (actXhdel tg kd a l))
/-- XCKPT captures its TAG. -/
def actXckpt (tg : Tag) (kd : BitVec 6) (a : BitVec 5) (l : BitVec 4) : State → State := xtOp (.xckpt tg kd a l) tg kd a l
/-- XCKPT (R384), issued alone. -/
def execXckpt (tg : Tag) (kd : BitVec 6) (a : BitVec 5) (l : BitVec 4) (s : State) : Out :=
  .next (s.issueSyl (.xckpt tg kd a l) 7 (litOk (.xckpt tg kd a l) l 4) xckptFault (actXckpt tg kd a l))

/-- An XHADD's entry is written at the lowest index with V = 0, if there is one (R384). -/
def State.hibAdd (s : State) (t : Xfer) : State :=
  match (List.range hibSize).find? fun i => !(s.hib i).v with
  | some i =>
    ({ s with hiblist := Table.put s.hiblist i ⟨wordAt t.args 0, wordAt t.args 1, wordAt t.args 2⟩ }).pieceDone
      { t with found := w64 i } 0
  | none => s.pieceDone { t with found := BitVec.allOnes 64 } 0

/-- An XHDEL's entry is cleared (R384, R385). -/
def State.hibDel (s : State) (t : Xfer) : State :=
  let i := fld (wordAt t.args 0) 0 12
  let h := s.hib i
  if h.v then ({ s with hiblist := Table.put s.hiblist i {} }).pieceDone { t with found := h.w0 } 0
  else s.pieceDone { t with found := 0 } 0

/-! ### Records (R379) -/

/-- A record of a manifest. -/
structure Rec where
  type    : Nat
  id      : Nat
  addr    : Nat
  off     : Nat
  payload : List Byte
deriving DecidableEq, Repr

/-- Bytes padded with zeros to a multiple of 64. -/
def padLine (bs : List Byte) : List Byte := bs ++ zeros ((64 - bs.length % 64) % 64)

def Rec.header (r : Rec) : List Byte :=
  leBytes 8 (r.type + r.payload.length * 2 ^ 32) ++ leBytes 8 r.id ++ leBytes 8 r.addr ++ leBytes 8 r.off ++ shake256 r.payload 32
def Rec.bytes (r : Rec) : List Byte := r.header ++ padLine r.payload

/-- The seed-log record. -/
def State.seedRecord (s : State) : Rec :=
  ⟨5, 0, 0, 0, (List.range 256).flatMap fun i => leBytes 32 (s.seedEntry i).bits⟩

/-- Address of byte 0 of an end's tile n: physical for a window, else virtual. -/
def Coll.tileAddr (c : Coll) (t : Xfer) (stage : Bool) (n : Nat) : Nat :=
  let a := if stage then c.stage else c.dst
  (if addrWindow a then (winOf t.wins (addrWin a)).addr t.core + tileBytes * addrElem a else addrVirt a) + tileBytes * n

/-- The destination and staging tiles of a collective that carry a counter. -/
def Coll.counted (c : Coll) : List (Bool × Nat) :=
  (c.destTiles.map fun n => (false, n)) ++ (List.range c.nt).filterMap fun n => (c.stageStep n).map fun _ => (true, n)

/-- The record of a group: STEP, PLANE, and the counter words of the collective that runs on it. -/
def State.collRecord (s : State) (g : Nat) (e : Group) : Rec :=
  let name := e.gen * 4096 + g
  let pairs := match s.colls.find? fun (c : Coll) => c.group == name && c.op == 0 && c.started with
    | none => []
    | some c =>
      match (s.core c.core).xfer? c.x with
      | none => []
      | some t => c.counted.map fun (p : Bool × Nat) =>
          leBytes 8 (c.tileAddr t p.1 p.2) ++ leBytes 8 (Table.get 0 c.landed ((if p.1 then 65536 else 0) + p.2))
  ⟨4, name, 0, 0, leBytes 4 e.step ++ leBytes 1 e.plane ++ zeros 11 ++ leBytes 4 pairs.length ++ zeros 12 ++ pairs.flatten⟩

/-- One collective record per group. -/
def State.collRecords (s : State) : List Rec :=
  (List.range 4096).filterMap fun g =>
    let e := s.group g
    if e.v then some (s.collRecord g e) else none

/-- A transfer's fault record (R347). -/
def Xfer.image (t : Xfer) (code faddr bytes : Nat) : List Byte :=
  leBytes 8 (t.x.id.toNat * 2 ^ 32 + t.x.ch % 8 * 2 ^ 16 + t.ctx % 4 * 2 ^ 14 + code) ++ leBytes 8 faddr ++ leBytes 8 bytes
    ++ leBytes 8 t.rp ++ leBytes 8 (t.lit.toNat * 2 ^ 32 + ((encode t.op).headD 0).toNat)
    ++ ((List.range 3).flatMap fun i => leBytes 8 (wordAt t.args i).toNat)
    ++ (match t.op with
      | .xredv _ _ _ _ => laneBytes t.vec
      | _ => zeros 256)

/-- The die, cluster and core fields of a record's ID. -/
def coreId (core : Nat) : Nat := dieOf core + clusterOf core * 2 ^ 3 + coreInCluster core * 2 ^ 8
def coreOfId (id : Nat) : Nat := numClusters * numCores * (id % 8) + numCores * (id / 8 % 32) + id / 256 % 16

/-- A core's record: NID and WM of its channels, and its cut transfers (R375). -/
def State.coreRecord (s : State) (core : Nat) : Rec :=
  let k := s.core core
  ⟨3, coreId core, 0, 0, (k.chans.toList.flatMap fun c => leBytes 4 c.nid.toNat ++ leBytes 4 c.wm.toNat)
    ++ (k.xfers.filter fun t => t.cut).flatMap fun t => t.image 0 0 (s.bytesBefore t)⟩

/-- A bound context's record. -/
def State.ctxRecord (s : State) (core : Nat) (x : Fin 4) : Rec :=
  let b := { (s.ctx core x).bind with rsm := true }
  ⟨1, coreId core + x.val * 2 ^ 12 + b.lnum * 2 ^ 32, 0, 0, bytesOf b.recordWords ++ b.extBytes ++ s.saveImage core x⟩

/-- The core and context records, core by core. -/
def State.boundRecords (s : State) : List Rec :=
  (List.range moduleCores).flatMap fun core =>
    let xs := (List.finRange 4).filter fun x => (s.ctx core x).bound
    if xs = [] then [] else s.coreRecord core :: xs.map (s.ctxRecord core)

/-- ID of a region's records. -/
def HibEntry.id (h : HibEntry) (i : Nat) : Nat :=
  i + h.prio * 2 ^ 12 + h.asid * 2 ^ 16 + bit h.phys 32 + bit h.strm 33 + fld h.w2 8 24 * 2 ^ 40

/-- The physical pieces of a region; none when a page fails R342 or lies outside HBM, vault and scratchpad (R377). -/
def State.hibPieces (s : State) (h : HibEntry) : Option (List (Nat × Nat)) :=
  if h.phys then some [(h.base, h.bytes)]
  else
    match s.pieces h.asid h.base h.bytes .read with
    | .error _ => none
    | .ok ps =>
      if ps.all fun p => (match placeOf p.1 with
          | .hbm _ => true
          | .vault _ _ => true
          | .pad _ => true
          | _ => false) then some ps
      else none

/-- Segments of at most 2^30 bytes: their offsets in the region and their sizes. -/
def segments (n : Nat) : List (Nat × Nat) :=
  (List.range ((n + 2 ^ 30 - 1) / 2 ^ 30)).map fun k => (k * 2 ^ 30, min (2 ^ 30) (n - k * 2 ^ 30))

/-- Bytes [off, off + n) of physical pieces. -/
def pieceSlice (ps : List (Nat × Nat)) (off n : Nat) : List (Nat × Nat) :=
  (ps.foldl (fun (a : Nat × List (Nat × Nat)) p =>
    let lo := max off a.1
    let hi := min (off + n) (a.1 + p.2)
    (a.1 + p.2, if lo < hi then a.2 ++ [(p.1 + (lo - a.1), hi - lo)] else a.2)) (0, [])).2

/-- The record of a skipped region. -/
def skipRec (i : Nat) (h : HibEntry) (reason : Nat) : Rec := ⟨6, h.id i, h.base, reason, []⟩

/-- The records of a region, and whether it was skipped: reason 2 for its translation, 3 at an uncorrectable error, before
which its records stand. -/
def State.regionRecords (s : State) (i : Nat) (h : HibEntry) : List Rec × Bool :=
  match s.hibPieces h with
  | none => ([skipRec i h 2], true)
  | some ps =>
    let segs := (segments h.bytes).map fun g => (g, pieceSlice ps g.1 g.2)
    let good := segs.takeWhile fun g => !(g.2.any fun p => s.flawed p.1 p.2)
    let recs := good.map fun g => (⟨2, h.id i, h.base + g.1.1, g.1.1, g.2.flatMap fun p => s.mem.bytes p.1 p.2⟩ : Rec)
    if good.length < segs.length then (recs ++ [skipRec i h 3], true) else (recs, false)

/-! ### Slots, chain and seal (R378 to R380) -/

/-- The first byte of a slot. -/
def slotBase (k : Nat) : Nat := scmAddr + k * 0xA000000000

/-- H_0 to HFIN over the header's first bytes and the record headers (R380). -/
def chainOf (head : List Byte) (recs : List (List Byte)) : List Byte :=
  recs.foldl (fun h r => shake256 (h ++ r) 32) (shake256 (head.take 0x18) 32)

/-- SEAL of R380. -/
def sealOf (hfin head : List Byte) : List Byte :=
  kmac256Custom sealKey (hfin ++ head.take 0x40) [0x42#8, 0x56#8, 0x39#8, 0x53#8, 0x45#8, 0x41#8, 0x4C#8] 32

/-- What a valid slot holds. -/
structure Manifest where
  seq  : Nat
  trig : Nat
  pmax : Nat
  tag  : Word
  hfin : List Byte
  recs : List Rec
deriving DecidableEq, Repr

/-- `n` records from an address on, with their 64-byte headers; none when a digest does not verify. -/
def readRecs (m : Memory) : Nat → Nat → Option (List (Rec × List Byte))
  | 0, _ => some []
  | n + 1, a =>
    let h := m.bytes a 64
    let w := wordsOf 4 h
    let len := fld (wordAt w 0) 32 32
    let pay := m.bytes (a + 64) len
    if shake256 pay 32 ≠ h.drop 32 then none
    else (readRecs m n (a + 64 + (len + 63) / 64 * 64)).map fun l =>
      ((⟨fld (wordAt w 0) 0 8, (wordAt w 1).toNat, (wordAt w 2).toNat, (wordAt w 3).toNat, pay⟩ : Rec), h) :: l

/-- A slot whose SEAL, digests and chain verify (R380). -/
def State.readSlot (s : State) (k : Nat) : Option Manifest :=
  let b := slotBase k
  let head := s.mem.bytes b 256
  let w := wordsOf 32 head
  if fld (wordAt w 0) 0 24 ≠ 0x010001 ∨ fld (wordAt w 0) 32 32 ≠ 0x5A394D46 then none
  else
    match readRecs s.mem (fld (wordAt w 5) 0 32) (b + 0x100) with
    | none => none
    | some rs =>
      let hfin := chainOf head (rs.map Prod.snd)
      if s.flawed b (0x100 + (wordAt w 6).toNat) then none
      else if hfin = (head.drop 0x40).take 32 ∧ sealOf hfin head = (head.drop 0x60).take 32 then
        some ⟨(wordAt w 1).toNat, fld (wordAt w 3) 0 8, fld (wordAt w 3) 32 4, wordAt w 7, hfin, rs.map Prod.fst⟩
      else none

/-- The valid manifest with the greater SEQ, and its slot (R381). -/
def State.manifest (s : State) : Option (Nat × Manifest) :=
  match s.readSlot 0, s.readSlot 1 with
  | some a, some b => if a.seq < b.seq then some (1, b) else some (0, a)
  | some a, none => some (0, a)
  | none, some b => some (1, b)
  | none, none => none

/-- The regions that launches own among the records of a manifest, of priority up to PMAX, by HIBLIST as it stands (R396). -/
def State.ownedRegions (s : State) (seq pmax : Nat) (recs : List Rec) : List (Nat × Nat × Nat) :=
  recs.zipIdx.filterMap fun r =>
    if r.1.type = 2 ∧ r.1.id / 2 ^ 12 % 16 ≤ pmax then some (seq, fld (s.hib (r.1.id % 4096)).w2 32 32, r.2) else none

/-- The records are written into the slot that does not hold the valid manifest with the greater SEQ, the header last (R378,
R379). -/
def State.writeManifest (s : State) (trig wcc : Nat) (cutoff : Bool) (pmax res res' : Nat) (tag : Word) (nskip : Nat) (recs : List Rec) : State :=
  let old := s.manifest
  let k := match old with
    | some m => 1 - m.1
    | none => 0
  let seq := (match old with
    | some m => m.2.seq
    | none => 0) + 1
  let body := recs.flatMap Rec.bytes
  let head := bytesOf [w64 (0x5A394D46 * 2 ^ 32 + 2 ^ 16 + 1), w64 seq, w64 wcc, w64 (pmax * 2 ^ 32 + bit cutoff 8 + trig),
    w64 (res' % 2 ^ 32 * 2 ^ 32 + res % 2 ^ 32), w64 (nskip * 2 ^ 32 + recs.length), w64 body.length, tag]
  let hfin := chainOf head (recs.map Rec.header)
  let b := slotBase k
  { s with mem := (s.mem.write (b + 0x100) body).write b (head ++ hfin ++ sealOf hfin head ++ zeros 128)
           ten := { s.ten with owned := (s.ten.owned.filter fun e => e.1 + 1 == seq) ++ s.ownedRegions seq pmax recs } }

/-! ### The drain (R377) -/

/-- RESERVE_J as the drain engine reads it next: it does not rise before the seal (R439); how far it has fallen is free. -/
def State.readReserve (s : State) : Nat × State :=
  let r := min s.power.reserve (freeVizin 7 s.free).toNat
  (r, { s with free := s.free + 1, power := { s.power with reserve := r } })

/-- The walk of R377 over the entries: the state, the records, the regions skipped, and whether it was cut off. -/
def State.drainWalk (s : State) (es : List (Nat × HibEntry)) : State × List Rec × Nat × Bool :=
  es.foldl (fun (a : State × List Rec × Nat × Bool) e =>
    let skip (s : State) : State × List Rec × Nat × Bool := (s, a.2.1 ++ [skipRec e.1 e.2 1], a.2.2.1 + 1, true)
    if a.2.2.2 then skip a.1
    else
      let r := a.1.readReserve
      if r.1 < e.2.cost s.power.rate + s.power.sealCost then skip r.2
      else
        let x := r.2.regionRecords e.1 e.2
        (r.2, a.2.1 ++ x.1, a.2.2.1 + (if x.2 then 1 else 0), false)) (s, [], 0, false)

/-- The drain and the seal. A pending scrub leaves no record and no header (R388). -/
def State.drain (s : State) : State :=
  if s.ten.pend then s
  else
    let s := s.settle
    let fixed := s.seedRecord :: s.collRecords ++ s.boundRecords
    let w := s.drainWalk s.hibWalk
    let r := w.1.readReserve
    r.2.writeManifest s.power.trig s.power.wccTrig w.2.2.2 0 s.power.resTrig r.1 0 w.2.2.1 (fixed ++ w.2.1)

/-- The manifest of an XCKPT (R384): no context or core records, no reserve checked, never cut. -/
def State.checkpoint (s : State) (pmax : Nat) (tag : Word) : State :=
  let s := s.settle
  let es := s.hibWalk.filter fun e => decide (e.2.prio ≤ pmax)
  let rs := es.map fun e => s.regionRecords e.1 e.2
  s.writeManifest 4 s.wcc.toNat false pmax s.power.reserve s.power.reserve tag (rs.filter fun r => r.2).length
    (s.seedRecord :: s.collRecords ++ (rs.map Prod.fst).flatten)

/-- The first address of a region of priority up to `pmax` that a parked die does not serve now (R374). -/
def State.regionRetained (s : State) (pmax : Nat) : Option Nat :=
  (s.hibWalk.filter fun e => decide (e.2.prio ≤ pmax)).findSome? fun e => match s.hibPieces e.2 with
    | none => none
    | some ps => if ps.any fun p => s.retained (placeOf p.1) true then some e.2.base else none

/-- CHECKPOINT_WRITE (R384): an XCKPT whose tokens are ready, and no other checkpoint or S3 sequence runs. A region of a parked die
makes it wait (R374). -/
def execCheckpointWrite (s : State) : Out :=
  .next (match s.evXfer with
    | some t =>
      if (t.op matches .xckpt _ _ _ _) ∧ s.working t ∧ ¬ t.pieces.contains 0 ∧ s.power.s3 = .none then
        (match s.regionRetained (litOpt t.lit % 16) with
         | some va => s.stopped t va .wait
         | none => (s.checkpoint (litOpt t.lit % 16) (wordAt t.args 0)).pieceDone t 0)
      else s
    | none => s)

end Sys2Proof.Machine
end

