-- ==== Sys2Proof/Machine/Xfers.lean ====
section
/-! DEFINITION. Every transfer's start (R289), pieces (R290) and completion (R284), and the completion of a seed request
(R127). -/

namespace Sys2Proof.Machine

/-- A collective reads its source, or goes on. -/
def State.collPiece (s : State) (t : Xfer) : State :=
  match s.coll? t.core t.x with
  | some c => if c.started then s.pump t.core t.x else s.beginColl c t
  | none => s

/-- The piece of a transfer performs, unless another event of its own does it; of a result in hand a line does. -/
def State.piece (s : State) (t : Xfer) (n : Nat) : State :=
  if t.dst.isSome then s.settle.outPiece t n
  else match t.op with
  | .xcopy _ _ _ _ | .xlin _ _ _ _ => if recCmp t.recd then s.cmpPiece t else s.copyPiece t n
  | .xbara _ _ _ _ | .xbarw _ _ _ _ => s.barrierPiece t
  | .xallr _ _ _ _ | .xrdsc _ _ _ _ | .xallg _ _ _ _ | .xbcst _ _ _ _ => s.collPiece t
  | .xpcan _ _ _ _ => s.askCut t
  | .xsend _ _ _ _ => if t.sent = [] then s.announce t else s
  | .xrecv _ _ _ _ => s.postRecv t
  | .xsig _ _ _ _ => s.signal t
  | .xhadd _ _ _ _ => s.hibAdd t
  | .xhdel _ _ _ _ => s.hibDel t
  | _ => s

/-- A collective's pieces are its own. -/
def isColl (i : Instr) : Bool :=
  match i with
  | .xallr _ _ _ _ | .xrdsc _ _ _ _ | .xallg _ _ _ _ | .xbcst _ _ _ _ => true
  | _ => false

/-- Whether a result that arrives under a token lands now (R214): it waits while its task is frozen, and is dropped when its task
is gone. -/
def State.landsNow (s : State) (t : Xfer) : Option Bool :=
  let c := s.ctx t.core (ctxNo t.ctx)
  if c.bound ∧ c.sys.taskid = t.taskid ∧ c.sys.wid = t.wid then (if c.frozen = .none then some true else none)
  else if s.clusters.any fun e => e.2.queue.any fun q => q.2.st != .free && decide (q.2.taskid = t.taskid)
      && q.2.home.any fun (h : Home) => h.core == t.core && h.ctx == t.ctx then none
  else some false

/-- The operation gives a register result with its token. -/
def lateOp (i : Instr) : Bool :=
  match i with
  | .xatom _ _ _ _ | .xrecv _ _ _ _ | .xhadd _ _ _ _ | .xhdel _ _ _ _ | .seedreq _ _ _ => true
  | _ => false

/-- A transfer whose error is known, or that has been given up, has nothing under way (R286, R348). -/
def State.failedStill (s : State) (t : Xfer) : Bool := t.phase == .waiting && !t.cut && !s.awaiting t && !s.undelivered t

/-- A transfer that has performed, or whose end with an error nothing holds up, may complete. -/
def State.mayComplete (s : State) (t : Xfer) : Bool :=
  (s.performed t && (!lateOp t.op || (s.landsNow t).isSome)) || s.failedStill t

/-- A transfer that has performed completes: a result it gives s(a + 3) lands, and a collective leaves its status entry. One
that has failed completes with its error. -/
def State.completes (s : State) (t : Xfer) : State :=
  if t.phase = .waiting then s.endFailed t
  else
  let s := match t.op with
    | .xatom _ _ _ _ | .xrecv _ _ _ _ | .xhadd _ _ _ _ | .xhdel _ _ _ _ =>
      if s.landsNow t = some true then s.lateS t t.found else s
    | _ => s
  let s := match s.coll? t.core t.x with
    | some c =>
      { s.setCst c false c.summary with colls := s.colls.filter fun (d : Coll) => !(d.core == c.core && decide (d.x = c.x)) }
    | none => s
  s.finish t

/-- Every transfer that has performed completes. -/
def State.completeAll (s : State) (cores : List Nat) : State :=
  cores.foldl (fun s core => (s.core core).xfers.foldl (fun s (t : Xfer) => if s.mayComplete t then s.completes t else s) s) s

/-- TRANSFER_START (R289). -/
def execTransferStart (s : State) : Out :=
  .next (match s.evXfer with
    | some t => s.start t
    | none => s)

/-- TRANSFER_PIECE_PERFORM (R290): a piece of a transfer at work that has not performed, or a line of the result it has in hand. -/
def execTransferPiecePerform (s : State) : Out :=
  .next (match s.evXfer with
    | some t => if s.working t ∧ (t.dst.isSome ∨ isColl t.op ∨ (s.ev.index < s.goal t ∧ ¬ t.pieces.contains s.ev.index)) then s.piece t s.ev.index else s
    | none => s)

/-- TRANSFER_COMPLETE (R284). -/
def execTransferComplete (s : State) : Out :=
  .next (match s.evXfer with
    | some t => if s.mayComplete t then s.completes t else s
    | none => s)

/-- SEEDREQ_COMPLETE (R127): the token of a seed request becomes ready; the index lands in its scalar register, SEEDIDX names
the entry and RCNT becomes 0. -/
def execSeedreqComplete (s : State) : Out :=
  .next (match s.evXfer with
    | some t =>
      (match t.op with
       | .seedreq tg _ _ =>
         if t.wantsSeed then s
         else match t.err, s.landsNow t with
         | some _, _ => s.completeXfer t
         | none, none => s
         | none, some false => s.completeXfer t
         | none, some true =>
           let x := ctxNo t.ctx
           let c := s.ctx t.core x
           let slot := slotOf tg 0
           let l (d : Dest) (w : Word) : Landing := ⟨1, slot, 0, d, w, [], 0, 0⟩
           let i : Fin 32 := ⟨(wordAt t.args 0).toNat % 32, Nat.mod_lt _ (by omega)⟩
           (s.setCtx t.core x { c with land := [l (.s i) t.found, l (.sr 0x0B) (c.sys.stream ++ 0#24 ++ (t.found.truncate 8 : BitVec 8)),
              l (.sr 0x0C) 0] ++ c.land }).completeXfer t
       | _ => s)
    | none => s)

end Sys2Proof.Machine
end

