-- ==== Sys2Proof/Machine/Power.lean ====
section
/-! DEFINITION. The energy gauge (R367, R439), supply states (R369, R370), parking (R371 to R373), retained-wait at the sender
(R374), the S3 sequence (R375, R377) and restart (R381 to R383, R396). -/

namespace Sys2Proof.Machine

/-! ### Freezing and resuming a die -/

/-- The cores of a die that the state lists. -/
def State.coresOn (s : State) (d : Nat) : List Nat := (s.cores.map Prod.fst).filter fun c => dieOf c == d

/-- The controller asks for a freeze of every bound context of a die (R371, R375). -/
def State.freezeDie (s : State) (d : Nat) : State := (s.boundOn d).foldl (fun s m => s.wantFreeze m.1 m.2 .park) s

/-- Every bound context of a die is frozen and saved, and every access and delivery of the die has performed (R214, R166). -/
def State.dieStill (s : State) (d : Nat) : Bool :=
  (s.boundOn d).all (fun m => (s.ctx m.1 m.2).frozen != .none && (s.ctx m.1 m.2).saveIn.isNone)
    && (s.die d).acc == [] && (s.die d).deliv == []
    && !((List.range numDies).any fun e => (s.die e).deliv.any fun y => match y with
      | .bytes _ p => decide (p.core < moduleCores ∧ dieOf p.core = d)
      | .arrive _ _ c _ _ _ => decide (c < moduleCores ∧ dieOf c = d))

/-- The contexts of a die that a park or S3 froze; those of a launch that is being checkpointed, or whose restored state is not yet
accepted, are held back (R395, R396). -/
def State.parkFrozen (s : State) (d : Nat) : List (Nat × Fin 4) :=
  (s.boundOn d).filter fun m => (s.ctx m.1 m.2).frozen == .park && !(match s.launch? (s.ctx m.1 m.2).bind.lnum with
    | some l => l.waiting || l.ckpt.busy.isSome
    | none => false)

/-! ### The gauge (R367, R368, R439) -/

/-- RLOW: RESERVE_J is below HIBMIN (R367, R368). -/
def State.rlow (s : State) : Bool := decide (s.power.reserve < s.hibMin)

/-- The least that the reserve rises in each 1 ms while it recharges (R439). -/
def Power.leastRise (p : Power) : Nat := (p.rescap + 89999) / 90000

/-- The reserve recharges: the input stands at 46.0 V or above, and no S3 sequence runs before its seal (R439). -/
def Power.recharges (p : Power) (high : Bool) : Bool := high && p.s3 != .quiesce && p.s3 != .drain

/-- RESERVE_GAUGE_UPDATE (R367, R439), every 1 ms: RESERVE_J rises while it recharges and falls by what is spent while it does not; it
never exceeds RESCAP. Subject: what is spent, how far it rises, and whether the input is at or above 46.0 V. -/
def execReserveGaugeUpdate (s : State) : Out :=
  let p := s.power
  let mj := if p.recharges s.ev.flag then min p.rescap (p.reserve + max s.ev.count p.leastRise) else p.reserve - s.ev.index
  .next { s with power := { p with reserve := mj } }

/-! ### Supply states (R369, R370) -/

/-- A supply event other than S0 aborts a bench test (R392), whose end raises MSI-X vector 67 (log 67). -/
def State.benchAbort (s : State) : State :=
  if s.ten.benchgo then { s with ten := { s.ten with benchgo := false, benchabort := true }, msix := s.msix ++ [67] } else s

/-- The supply state, whose change raises MSI-X vector 64 (R404; log 67). -/
def State.setSupply (s : State) (st : Nat) : State :=
  { s with power := { s.power with st := st }, msix := if st = s.power.st then s.msix else s.msix ++ [64] }

/-- HOLD of every die. -/
def State.setHolds (s : State) (hs : List Nat) : State :=
  (List.range numDies).foldl (fun s d => s.setDie d { s.die d with hold := min 56 (hs.getD d 0) }) s

/-- POWER_LIMIT_EXCEEDED (R369, R370): the dies' hold clk. -/
def execPowerLimitExceeded (s : State) : Out :=
  .next (if s.power.st ≤ 2 ∧ s.power.s3 = .none then
      (s.setHolds s.ev.nats).benchAbort.setSupply (max 1 s.power.st)
    else s)

/-- S1_EXIT (R369). -/
def execS1Exit (s : State) : Out :=
  .next (if s.power.st = 1 then (s.setHolds []).setSupply 0 else s)

/-- The die of a shed position (R367). -/
def Power.shed (p : Power) (i : Nat) : Nat := p.order / 8 ^ i % 8

/-- Dies at retention, and dies in their grace. -/
def State.parkedDies (s : State) : List Nat := (List.range numDies).filter fun d => (s.die d).park == .retained
def State.graceDies (s : State) : List Nat := (List.range numDies).filter fun d => (s.die d).park == .grace

/-- PARKED (R367, R373): a die at retention, or unparked with no context of it yet issuing. -/
def Die.parked (x : Die) : Bool := x.park == .retained || x.park == .unparking

/-- PGOOD_N, active low: asserted in S0, S1 and S2 (R366). -/
def State.pgoodN (s : State) : Bool := s.power.st == 3

/-- The register at an offset from CXL.io 0x0_8000 as the host and Vizin read it (R367). -/
def State.powerReg (s : State) (off : Nat) : Word :=
  let p := s.power
  match off with
  | 0x00 => w64 p.reserve
  | 0x08 => w64 p.rescap
  | 0x10 => w64 p.fixCost
  | 0x18 => w64 p.sealCost
  | 0x20 => w64 p.rate
  | 0x28 =>
    w64 (bit s.rlow 18 + bit p.uv 17 + bit p.pfw 16 + ((List.range numDies).map fun d => bit (s.die d).parked (8 + d)).sum + p.st)
  | 0x30 => w64 (p.shedN * 2 ^ 24 + p.order)
  | 0x38 => w64 p.plimit
  | 0x40 => w64 (p.rwlim * 2 ^ 32 + p.rwint)
  | 0x88 => w64 p.tlimit
  | off => if 0x48 ≤ off ∧ off < 0x88 ∧ off % 8 = 0 then w64 (s.die ((off - 0x48) / 8)).hold else 0

/-- Step 1 of a park (R371). -/
def State.parkDie (s : State) (d : Nat) : State :=
  let s := s.setDie d { s.die d with park := .grace }
  s.freezeDie d

/-- The next die of SHORD parks, while fewer than N are parked and none is being parked. -/
def State.parkNext (s : State) : State :=
  if s.graceDies ≠ [] ∨ s.power.shedN ≤ s.parkedDies.length then s
  else
    match (List.range s.power.shedN).find? fun i => (s.die (s.power.shed i)).awake with
    | some i => s.parkDie (s.power.shed i)
    | none => s

/-- UNDERVOLTAGE_SAG (R369): S2, and the die at the first shed position parks. -/
def execUndervoltageSag (s : State) : Out :=
  .next (if s.power.st ≤ 1 ∧ s.power.s3 = .none then
      (({ s.benchAbort with power := { s.power with s2s := s.power.s2s ++ [s.wcc.toNat] } }).setSupply 2).parkNext
    else s)

/-- PARK_NEXT_DIE (R369). -/
def execParkNextDie (s : State) : Out := .next (if s.power.st = 2 then s.parkNext else s)

/-- A core's chest image in its vault's park area (R372). -/
def parkArea (core : Nat) : Nat := vaultAddr (dieOf core) (clusterOf core) + 0xDE0000 + coreInCluster core * 0x22000

/-- The freeze chest entries of a core in context order, as an image of 512 entries. -/
def Core.parkImage (k : Core) : List Byte :=
  let cs := (List.finRange 4).map fun x => byOrd (k.ctx x).chest
  let n := (cs.map List.length).sum
  (cs.flatMap chestBytes ++ zeros (272 * (512 - n))).take (272 * 512)

/-- The chests read back from an image: each context's share is known from its length. -/
def Core.loadPark (k : Core) (bs : List Byte) : Core :=
  ((List.finRange 4).foldl (fun (a : Core × Nat) x =>
    let c := a.1.ctx x
    let n := c.chest.length
    (a.1.setCtx x { c with chest := (List.range n).filterMap fun i => landingOf ((bs.drop (272 * (a.2 + i))).take 272) }, a.2 + n))
    (k, 0)).1

/-- A transfer of a core is cut (R375); the tile of an XMVB is restored (R361). -/
def State.cutXfer (s : State) (t : Xfer) : State :=
  let k := s.core t.core
  let k := if (t.op matches .xmvb _ _ _ _) then k.mvRestore t else k
  s.setCore t.core (k.setXfer { t with cut := true })

/-- Every transfer of a core is cut. -/
def State.cutCore (s : State) (core : Nat) : State := (s.core core).xfers.foldl (fun s (t : Xfer) => s.cutXfer t) s

/-- PARK_GRACE_EXPIRY (R371): steps 2 to 4 of a park. Transfers that have performed are complete, the others are cut; chests go
to the park areas; the die is at retention. -/
def execParkGraceExpiry (s : State) : Out :=
  let d := s.ev.die
  .next (if (s.die d).park ≠ .grace ∨ ¬ s.dieStill d then s
    else
      let cs := s.coresOn d
      let s := cs.foldl (fun s c => s.cutCore c) (s.completeAll cs)
      let s := { s with mem := cs.foldl (fun (m : Memory) c => m.write (parkArea c) (s.core c).parkImage) s.mem }
      s.setDie d { s.die d with park := .retained })

/-- SUPPLY_RECOVERY (R369): S2 is left; a die that is held stays in S1. -/
def execSupplyRecovery (s : State) : Out :=
  .next (if s.power.st = 2 then
      s.setSupply (if (List.range numDies).any (fun d => (s.die d).hold != 0) then 1 else 0)
    else s)

/-- The next die to unpark: the last parked of the first N positions of the shed order (R369). A parked die that SHORD names no more
follows them (log 33). -/
def State.unparkNext (s : State) : Option Nat :=
  (((List.range s.power.shedN).reverse.map s.power.shed).find? fun d => (s.die d).park == .retained).or s.parkedDies.head?

/-- An unpark of a die (R373): its contexts read their save areas (R220) and its chests the park areas, its cut transfers re-run, and the
contexts resume; PARKED reads 1 until the first of them issues. -/
def State.unpark (s : State) (d : Nat) : State :=
  let s := s.setDie d { s.die d with park := .none }
  let s := s.rereadAll (s.parkFrozen d)
  let m := s.mem
  let s := (s.coresOn d).foldl (fun s c =>
    let k := (s.core c).loadPark (m.bytes (parkArea c) 0x22000)
    s.setCore c { k with xfers := k.xfers.map fun (t : Xfer) => if t.cut then s.rerun t else t }) s
  let s := s.resumeDie d (s.parkFrozen d)
  s.setDie d { s.die d with park := if (s.boundOn d).any fun m => (s.ctx m.1 m.2).resumeIn.isSome then .unparking else .none }

/-- UNPARK_DIE (R373): in reverse shed order, out of S2. -/
def execUnparkDie (s : State) : Out :=
  .next (if s.power.st ≤ 1 ∧ s.power.s3 = .none ∧ s.graceDies = [] ∧ s.unparkNext = some s.ev.die then s.unpark s.ev.die else s)

/-! ### Retained-wait at the sender (R374, R421) -/

/-- The rounds are used up. -/
def State.waitedOut (s : State) (n : Nat) : Bool := s.power.rwlim != 0 && decide (s.power.rwlim < n)

/-- The collective of a plane packet pauses, unless it has paused already (R421). -/
def State.pauseFor (s : State) (p : Packet) : State :=
  match s.collFor p with
  | some c => s.setColl { c with paused := some (c.paused.getD s.wcc.toNat) }
  | none => s

/-- A request that was answered retained-wait goes out again in its next round. -/
def State.nextRound (s : State) (e : Sent) (n : Nat) : State :=
  let r := withRound e.pkt n
  let sent (s : State) (q : Nat) : State :=
    { s with sents := s.sents.map fun (f : Sent) => if f = e then { e with pkt := r, port := q, round := 0 } else f }
  match s.commonPorts r.dmod with
  | [] => if r.dmod = s.modnum then sent (s.deliver r 18) 18 else s
  | ps => let q := ps.getD (portIndex r % ps.length) 0; sent (s.pushAt q r) q

/-- RETAINED_WAIT (R374): the request the answer names is repeated with the next round number, or ends its transfer; a plane packet is
repeated without end, and its streams pause (R421). With no request, a transfer of this module that a parked die turned away counts its next round. -/
def execRetainedWait (s : State) : Out :=
  let p := s.ev.packet
  .next (match s.sentFor p (fun _ => true) with
    | some e =>
      let n := fld (wordAt p.ops 0) 0 20 + 1
      if e.pkt.type = 4 then (s.pauseFor e.pkt).nextRound e n
      else if s.waitedOut n then (s.answered e).refused e 0x282
      else s.nextRound e n
    | none =>
      match (s.core p.core).xfer? p.x with
      | some t =>
        if t.round = 0 ∨ t.cut then s
        else if isColl t.op then s.updXfer { t with round := 0 }
        else if s.waitedOut (t.round + 1) then s.failAt t 0x282 t.waitAt
        else s.updXfer { t with round := t.round + 1 }
      | none => s)

/-! ### Hibernation (R375, R377) -/

/-- Entry to S3: the trigger is recorded, a checkpoint in progress is abandoned, and every die freezes. -/
def State.enterS3 (s : State) (trig : Nat) : State :=
  if s.power.s3 ≠ .none then s
  else
    let p : Power := { s.power with
      s3 := .quiesce, trig := trig, wccTrig := s.wcc.toNat, resTrig := s.power.reserve, s3s := s.power.s3s ++ [s.wcc.toNat] }
    let ls := s.launches.map fun (l : Launch) => { l with ckpt := { l.ckpt with busy := none, asked := none } }
    let s := ({ s.benchAbort with power := p, launches := ls }).setSupply 3
    (List.range numDies).foldl (fun s d => s.freezeDie d) s

/-- PFW_N_ASSERT (R369). -/
def execPfwNAssert (s : State) : Out :=
  .next (({ s with power := { s.power with pfw := true, pfws := s.power.pfws ++ [s.wcc.toNat] } }).enterS3 1)
/-- UNDERVOLTAGE_TRIP (R369). -/
def execUndervoltageTrip (s : State) : Out := .next (({ s with power := { s.power with uv := true } }).enterS3 2)
/-- SHED_EXHAUSTED (R369): N dies are parked and the input stays low. -/
def execShedExhausted (s : State) : Out :=
  .next (if s.power.st = 2 ∧ s.power.shedN ≤ s.parkedDies.length then s.enterS3 3 else s)

/-- Every transfer in flight is cut, with its RP (R375). -/
def State.cutAll (s : State) : State :=
  (s.cores.map Prod.fst).foldl (fun s core =>
    (s.core core).xfers.foldl (fun s (t : Xfer) => s.cutXfer { t with rp := s.cutRp t }) s) s

/-- QUIESCE_END (R375, R377): what has not completed is cut, the drain writes and seals the manifest, and the Chozo ports go
down (R374). -/
def execQuiesceEnd (s : State) : Out :=
  .next (if s.power.s3 ≠ .quiesce ∨ ¬ (List.range numDies).all s.dieStill then s
    else
      let s := (s.completeAll (s.cores.map Prod.fst)).cutAll
      let s := ({ s with power := { s.power with s3 := .drain } }).drain
      let s := { s with power := { s.power with s3 := .closed }, sents := [], recvs := [], rts := [], early := [], owed := []
                        directory := [], hostLines := [] }
      (List.range 18).foldl (fun s p => s.setPort p { s.port p with st := 0, wait := [], outq := [], ctl := [], rx := [], tx := [], buf := [] }) s)

/-! ### Restart: records (R381) -/

/-- A seed-log entry of its 32 bytes. -/
def seedOf (n : Nat) : SeedEntry :=
  { key := BitVec.ofNat 128 n, issue := BitVec.ofNat 64 (n / 2 ^ 128), core := BitVec.ofNat 12 (n / 2 ^ 192)
    ctxn := BitVec.ofNat 2 (n / 2 ^ 206), asid := BitVec.ofNat 16 (n / 2 ^ 208), valid := decide (n / 2 ^ 224 % 2 = 1)
    origin := BitVec.ofNat 2 (n / 2 ^ 226) }

/-- A region record restored: a physical region at its address, a virtual one through the restored tables. -/
def State.restoreRegion (s : State) (r : Rec) : State :=
  if r.id / 2 ^ 32 % 2 = 1 then { s with mem := s.mem.write r.addr r.payload }
  else
    match s.pieces (r.id / 2 ^ 16 % 2 ^ 16) r.addr r.payload.length .read with
    | .error _ => s
    | .ok ps => { s with mem := (ps.foldl (fun (a : Memory × List Byte) p => (a.1.write p.1 (a.2.take p.2), a.2.drop p.2))
        (s.mem, r.payload)).1 }

/-- Items 2 and 3 of R381. -/
def State.restoreMemory (s : State) (m : Manifest) : State :=
  let phys (r : Rec) : Bool := decide (r.type = 2 ∧ r.id / 2 ^ 32 % 2 = 1)
  let s := (m.recs.filter phys).foldl State.restoreRegion s
  let s := (m.recs.filter fun r => r.type == 2 && !phys r).foldl State.restoreRegion s
  match m.recs.find? fun r => r.type == 5 with
  | none => { s with seedlog := [] }
  | some r =>
    { s with seedlog := (List.range 256).filterMap fun i =>
        let e := seedOf (leNat ((r.payload.drop (32 * i)).take 32))
        if e.valid then some (i, { e with origin := 1 }) else none }

/-- The record of a context. -/
def Manifest.ctxRec (m : Manifest) (core : Nat) (x : Fin 4) : Option Rec :=
  m.recs.find? fun r => r.type == 1 && r.id % 2 ^ 14 == coreId core + x.val * 2 ^ 12
/-- The record of a core. -/
def Manifest.coreRec (m : Manifest) (core : Nat) : Option Rec := m.recs.find? fun r => r.type == 3 && r.id == coreId core

/-- A region of the task was skipped. -/
def State.skipped (s : State) (m : Manifest) (taskid : Word) : Bool :=
  m.recs.any fun r => r.type == 6 && (s.hib (r.id % 4096)).w2 == taskid

/-- Every member of a bound task is bound. -/
def State.whole (s : State) (core : Nat) (x : Fin 4) : Bool :=
  match (s.slot (clusterIndex core) (entryOf core x)).entry with
  | some q => (s.entry q).st == .bound && (s.entry q).home == [] && (s.entry q).live == (s.membersOf core x).length
  | none => true

/-- The task resumes exactly (R382). -/
def State.exact (s : State) (m : Manifest) (core : Nat) (x : Fin 4) : Bool :=
  m.trig != 4 && s.whole core x && ((s.membersOf core x).all fun p => match m.ctxRec p.1 p.2 with
      | some r => r.id / 2 ^ 32 == (s.ctx p.1 p.2).bind.lnum
      | none => false)
    && !s.skipped m (s.ctx core x).sys.taskid

/-- SEEDIDX and RCNT that a commit-point restart loads (R383): the mark of the task's STRM region, else those of its record, else
0. -/
def State.streamMark (s : State) (m : Manifest) (taskid : Word) (r : Option Rec) : Word × Word :=
  let mark := (s.hiblist.find? fun e => e.2.v && e.2.strm && decide (e.2.w2 = taskid)).bind fun e =>
    if ¬ (m.recs.any fun q => q.type == 2 && q.id % 4096 == e.1) then none
    else if e.2.phys then some (s.mem.words e.2.base 2)
    else match s.vwords e.2.asid e.2.base 2 with
      | .ok ws => some ws
      | .error _ => none
  match mark, r with
  | some ws, _ => (wordAt ws 0, wordAt ws 1)
  | none, some r => let ws := wordsOf 2 (r.payload.drop (576 + 0x350 + 72)); (wordAt ws 0, wordAt ws 1)
  | none, none => (0, 0)

/-! ### Restart: cores and tasks -/

/-- A transfer goes on after a restart (R375): copies and rows from RP, everything else whole; the result of an operation that has
performed still waits to land. -/
def Xfer.restored (t : Xfer) : Xfer :=
  let keep := lateOp t.op && t.pieces.contains 0
  { t.anew with
    cut := false, round := 0, got := [], sent := [], err := none, failRp := 0
    phase := if t.phase = .held then .held else .started
    pieces := if keep then [0] else match t.op with
      | .xgath _ _ _ _ | .xscat _ _ _ _ | .xredv _ _ _ _ => List.range t.rp
      | _ => [] }

/-- A kept transfer as its cut record gives it (R347, R375): its syllable, literal, operands, lane values and RP are the record's. -/
def Xfer.ofImage (t : Xfer) (bs : List Byte) : Xfer :=
  let w := wordsOf 8 bs
  { t with
    rp := fld (wordAt w 3) 0 32, lit := (wordAt w 4).extractLsb' 32 32
    op := match decodeSyl ((wordAt w 4).truncate 32) with
      | .ok i => i
      | .error _ => t.op
    args := [wordAt w 5, wordAt w 6, wordAt w 7] ++ t.args.drop 3
    vec := match t.op with
      | .xredv _ _ _ _ => bytesLanes (bs.drop 0x40)
      | _ => t.vec }

/-- Item 4 of R381: the channels of a core's record, and its cut transfers whose task resumes exactly. Every other identifier issued is
complete; the arrival units that the transfer units keep are matched with those of the save areas. -/
def Core.restored (k : Core) (r : Option Rec) (alive : Xfer → Bool) : Core :=
  match r with
  | none => { k with xfers := [], faults := [], pend := [], regn := [], arrq := [], retry := [], away := [], mvshadow := []
                     chans := Vector.replicate 8 {} }
  | some r =>
    let xs := (List.range ((r.payload.length - 64) / 320)).filterMap fun i =>
      let bs := (r.payload.drop (64 + 320 * i)).take 320
      let w := wordAt (wordsOf 1 bs) 0
      (k.xfers.find? fun t => decide (fld w 32 32 = t.x.id.toNat ∧ fld w 16 3 = t.x.ch ∧ fld w 14 2 = t.ctx) && alive t).map
        fun t => (t.ofImage bs).restored
    let chan (i : Fin 8) : Channel :=
      let nid := leNat ((r.payload.drop (8 * i.val)).take 4)
      let wm := leNat ((r.payload.drop (8 * i.val + 4)).take 4)
      let n := (nid + 2 ^ 32 - wm) % 2 ^ 32
      let done := ((List.range n).map fun j => BitVec.ofNat 32 (wm + j)).filter fun id =>
        !(xs.any fun (t : Xfer) => decide (t.x.ch = i.val ∧ t.x.id = id))
      Channel.advance (n + 1) { nid := BitVec.ofNat 32 nid, wm := BitVec.ofNat 32 wm, done := done }
    let mine (x : Xid) : Bool := xs.any fun (t : Xfer) => decide (t.x = x)
    { k with
      xfers := xs, chans := Vector.ofFn chan, holder := none, wait := 0, twr := [], nests := []
      pend := k.pend.filter fun p => mine p.x
      regn := k.regn.filter fun (q : Registration) => mine q.x
      arrq := [], retry := [], away := (k.away ++ k.arrq ++ k.retry).filter fun u => mine u.x
      mvshadow := [] }

/-- A collective goes on from the counter words and planes of its restored tiles (R422), and from the arrival units that its
restored registration counts. -/
def Coll.restored (c : Coll) (words : List (Bool × Nat × Nat × List Nat)) : Coll :=
  let c := { c with
    started := false, own := [], exps := [], out := [], acked := [], marked := [], markAcked := [], complete := false, sat := [], err := []
    inp := [], cutIn := [], cutAt := [], cutDone := false, landed := [], ts := [] }
  words.foldl (fun c (w : Bool × Nat × Nat × List Nat) =>
    let n := w.2.1
    let cw := w.2.2.1
    if cw = 0 then c
    else
      let step := if w.1 then c.stageStep n else match c.destSource n with
        | some (.fwd i) => if c.owner n = c.rank then none else some i
        | _ => none
      let c := { c with landed := Table.put c.landed ((if w.1 then 65536 else 0) + n) cw
                        ts := Table.put c.ts n (signExt (cw / 2 ^ 12 % 2 ^ 10) 10) }
      let c := if ¬ w.1 ∧ c.owner n = c.rank ∧ cw.testBit 30 then { c with cutAt := Table.put c.cutAt n (cw % 64), cutDone := true } else c
      match step with
      | none => c
      | some i =>
        let key := streamKey i n
        { c with
          inp := Table.put c.inp key w.2.2.2
          sat := if cw.testBit 28 then key :: c.sat else c.sat
          cutIn := if cw.testBit 30 then Table.put c.cutIn key (cw % 64) else c.cutIn }) c

/-- The counter words of a collective's tiles in its group's record, with the planes that stand in the restored tiles. -/
def State.recordedTiles (s : State) (r : Rec) (c : Coll) (t : Xfer) : List (Bool × Nat × Nat × List Nat) :=
  c.counted.zipIdx.map fun p =>
    let cw := leNat ((r.payload.drop (32 + 16 * p.2 + 8)).take 8)
    let planes : List Nat := match s.tileArea t (if p.1.1 then c.stage else c.dst) with
      | .error _ => []
      | .ok d => (List.range (cw % 64)).map fun j =>
          match s.readBytes t d.virt none .read (d.tileAt p.1.2 + 64 + 16 * j) 16 with
          | .ok bs => leNat bs
          | .error _ => 0
    (p.1.1, p.1.2, cw, planes)

/-- The collectives whose transfers go on, each paused until its streams resume; entries of the others read 0 (R417). -/
def State.restoreColls (s : State) (m : Manifest) : State :=
  let cs := s.colls.filterMap fun (c : Coll) =>
    match (s.core c.core).xfer? c.x with
    | none => none
    | some t =>
      match m.recs.find? fun r => r.type == 4 && r.id == c.group with
      | none => some { c.restored [] with paused := some s.wcc.toNat }
      | some r => some { c.restored (if c.op = 0 ∧ leNat ((r.payload.drop 16).take 4) = c.counted.length then s.recordedTiles r c t else [])
                           with paused := some s.wcc.toNat }
  let gs : Table Group := (m.recs.filter fun (r : Rec) => r.type == 4).foldl (fun (g : Table Group) (r : Rec) =>
      let e := Table.get ({} : Group) g (r.id % 4096)
      Table.put g (r.id % 4096) { e with step := leNat (r.payload.take 4), plane := leNat ((r.payload.drop 4).take 1) }) s.groups
  let s := { s with colls := cs, groups := gs }
  s.cores.foldl (fun s (e : Nat × Core) =>
    s.setCore e.1 { s.core e.1 with cst := Vector.ofFn fun (i : Fin 16) =>
      let q : Cst := e.2.cst[i]
      if (cs.any fun (c : Coll) => c.core == e.1 && c.sent == i.val && decide (c.x.id.toNat = fld q.word 32 32)) then q else {} }) s

/-- A bound task restarts at its commit point (R382): its entry is READY again, with nothing saved. -/
def State.restartTask (s : State) (m : Manifest) (core : Nat) (x : Fin 4) : State :=
  let taskid := (s.ctx core x).sys.taskid
  let mark := s.streamMark m taskid (m.ctxRec core x)
  let gmem := (s.ctx core x).bind.gmem.toNat
  let q := (s.slot (clusterIndex core) (entryOf core x)).entry
  let s := s.unbind core x .empty
  match q with
  | none => s
  | some q =>
    let e := s.entry q
    s.setEntry q { e with st := .ready, live := 0, home := [], rsm := false, mig := false, mark := e.mark ++ [(gmem, mark)]
                          enq := s.wcc.toNat }

/-- A frozen task whose save area only was kept restarts at its commit point too: no context record exists. -/
def State.restartSaved (s : State) (m : Manifest) : State :=
  s.clusters.foldl (fun s c => c.2.queue.foldl (fun s q =>
    if (q.2.st = .ready ∨ q.2.st = .held ∨ q.2.st = .claimed ∨ q.2.st = .stealing) then
      let e := s.entry (c.1, q.1)
      let mark := if q.2.home = [] then q.2.mark else q.2.home.map fun (h : Home) => (h.gmem, s.streamMark m q.2.taskid none)
      s.setEntry (c.1, q.1) { e with
        st := if q.2.st = .held then .held else .ready, live := 0, home := [], rsm := false, mig := false, mark := mark }
    else s) s) s

/-- A context is rebound from its record with RSM = 1 (R381); what froze it stands, unless the park or S3 did. -/
def State.rebind (s : State) (r : Rec) (core : Nat) (x : Fin 4) : State :=
  let old := s.ctx core x
  let b := bindOf (Vector.ofFn fun (i : Fin 8) => wordAt (wordsOf 8 (r.payload.take 64)) i.val) ((r.payload.drop 64).take 512)
  let c := { freshCtx b s.wcc.toNat with
    started := old.started, region := old.region, boundary := old.boundary, frozen := old.frozen, ended := old.ended, wait := old.wait
    seq := old.seq, report := old.report }
  (s.setCtx core x c).loadBytes core x (r.payload.drop 576)

/-! ### Restart: acceptance (R396) and the whole -/

/-- The region records that a launch owns, of priority up to PMAX, by their places in the manifest. -/
def State.launchOwned (s : State) (m : Manifest) (num : Nat) : List Nat :=
  (s.ten.owned.filter fun e => e.1 == m.seq && e.2.1 == num).map fun e => e.2.2

/-- D of a launch (R396). -/
def digestOf (tag : Word) (ps : List (List Byte)) : List Byte :=
  shake256 (leBytes 8 tag.toNat ++ ps.flatMap fun p => shake256 p 32) 32

/-- The payloads of records by place. -/
def Manifest.payloads (m : Manifest) (l : List Nat) : List (List Byte) := l.filterMap fun i => (m.recs[i]?).map Rec.payload

/-- The peers of the lowest-numbered group of a manifest: its group value and their ranks. -/
def State.restorePeers (s : State) (m : Manifest) : Option (Nat × List Nat) :=
  let gs := (m.recs.filter fun r => r.type == 4).map fun r => r.id
  match leastOf (gs.map fun g => ((g % 4096 : Nat) : Int)) with
  | none => none
  | some k =>
    let g := s.group k.toNat
    if g.v then some (g.gen * 4096 + k.toNat, (List.range g.n).filter fun r => r != g.rank) else none

/-- A restore digest: TAG and D (R399); its transfer identifier tells a question, 0, from an answer, 1 (log 37). -/
def State.digestPacket (s : State) (dmod asid kind : Nat) (tag : Word) (d : List Byte) : Packet :=
  { dmod := dmod, smod := s.modnum, type := 38, asid := asid, pseq := 0, core := 0, x := ⟨0, BitVec.ofNat 32 kind⟩
    ops := tag :: (List.range 4).map (wordAt (wordsOf 4 d)), data := [] }

/-- D of a restore digest. -/
def packetDigest (p : Packet) : List Byte := (List.range 4).flatMap fun i => leBytes 8 (wordAt p.ops (i + 1)).toNat

/-- Every launch waits for the acceptance of its restored state, and its digest goes to the peers. -/
def State.askPeers (s : State) (m : Manifest) : State :=
  let peers := s.restorePeers m
  s.launches.foldl (fun s (l : Launch) =>
    let owned := s.launchOwned m l.num
    let d := digestOf m.tag (m.payloads owned)
    let ranks := (peers.map Prod.snd).getD []
    let s := { s.setLaunch { l with waiting := true } with ten := { s.ten with
      digests := s.ten.digests ++ [
        { lnum := l.num, tag := m.tag, digest := d, peers := ranks.length, other := [], owned := owned
          asked := s.wcc.toNat }] } }
    ranks.foldl (fun s r =>
      s.sendOr (s.digestPacket (s.memberOf ((peers.map Prod.fst).getD 0) r) (lrAsid l.recd) 0 m.tag d)) s) s

/-- The contexts of launches that no longer wait resume, die by die (R381 item 7). -/
def State.resumeAll (s : State) : State :=
  (List.range numDies).foldl (fun s d => if (s.die d).park = .none then s.resumeDie d (s.parkFrozen d) else s) s

/-- The dies as a restart finds them: no die is parked, held or caches a translation. -/
def State.freshDies (s : State) : State :=
  (List.range numDies).foldl (fun s d => s.setDie d { s.die d with park := .none, hold := 0, held := false, tlb := [], queue := [] }) s

/-- The context that a context record names. -/
def Rec.place (r : Rec) : Nat × Fin 4 := (coreOfId r.id, ctxNo (r.id / 2 ^ 12 % 4))

/-- The tasks restart (R381, R382): every context record whose task resumes exactly rebinds its context, and the other bound tasks stand
at their commit points. A task, or gang, with a member on a quarantined pair waits in its queue for a congruent placement (R222). -/
def State.restoreTasks (s : State) (m : Manifest) : State :=
  let all := (List.range numDies).flatMap s.boundOn
  let exact := (m.recs.filter fun r => r.type == 1).filter fun r => all.contains r.place && s.exact m r.place.1 r.place.2
  let s := (all.filter fun p => !(exact.map Rec.place).contains p).foldl (fun s p => s.restartTask m p.1 p.2) s
  let s := exact.foldl (fun s r => s.rebind r r.place.1 r.place.2) s
  let gone := (exact.map Rec.place).filter fun p => (s.membersOf p.1 p.2).any fun q => !s.inService q.1
  gone.foldl (fun s p => s.leaveFrozen p.1 p.2 .ready) s

/-- The bound contexts whose tasks do, or do not, resume exactly. -/
def State.boundExact (s : State) (m : Manifest) (yes : Bool) : List (Nat × Fin 4) :=
  ((List.range numDies).flatMap s.boundOn).filter fun p => s.exact m p.1 p.2 == yes

/-- The address spaces of contexts. -/
def State.asidsOf (s : State) (ms : List (Nat × Fin 4)) : List Nat := ms.map fun p => (s.ctx p.1 p.2).bind.asid.toNat

/-- The groups whose collective in hand goes on, or is lost with its task. -/
def State.collGroups (s : State) (lost : Bool) : List Nat :=
  (s.colls.filter fun (c : Coll) => ((s.core c.core).xfer? c.x).isNone == lost).map Coll.group

/-- Item 6 of R381: REJOIN to every peer of each group that a record gives. A member that restarts at its commit point sends none (R422):
`live` and `lost` are the groups whose collective in hand goes on or does not, and of a group with none in hand every bound task of its
address space, one at least, resumes exactly: `exact` and `again` are those of the tasks that do and do not (log 37). -/
def State.rejoinAll (s : State) (m : Manifest) (live lost exact again : List Nat) : State :=
  (m.recs.filter fun r => r.type == 4).foldl (fun s r =>
    let e := s.group r.id
    let rejoins := live.contains r.id || (!lost.contains r.id && exact.contains e.asid && !again.contains e.asid)
    if e.v ∧ e.gen = r.id / 4096 ∧ rejoins then
      ((List.range e.n).filter fun k => k != e.rank).foldl (fun s k => s.sendOr (s.rejoinPacket r.id k 0)) s
    else s) s

/-- HIBLIST after a restore: the entries that Vizin keeps for tasks, added again (R432). -/
def State.readdKept (s : State) : State :=
  s.kept.foldl (fun (s : State) e =>
    match (List.range hibSize).find? fun i => !(s.hib i).v with
    | some i => { s with hiblist := Table.put s.hiblist i e.entry, kept := s.kept ++ [{ e with index := i }] }
    | none => s) { s with hiblist := [], kept := [] }

/-- Restart from a manifest (R381). -/
def State.restore (s : State) (m : Manifest) : State :=
  let s := s.freshDies.restoreMemory m
  let alive (t : Xfer) : Bool :=
    (List.finRange 4).any fun x => x.val == t.ctx % 4 && (s.ctx t.core x).bound && decide ((s.ctx t.core x).sys.wid = t.wid)
      && s.exact m t.core x
  let exact := s.asidsOf (s.boundExact m true)
  let again := s.asidsOf (s.boundExact m false)
  let s := s.cores.foldl (fun s e => s.setCore e.1 ((s.core e.1).restored (m.coreRec e.1) alive)) s
  let live := s.collGroups false
  let lost := s.collGroups true
  let s := s.restoreColls m
  let s := (s.restartSaved m).restoreTasks m
  let s := s.askPeers m
  let s := { s with power := { s.power with seq := m.seq, hfin := m.hfin, restoredAt := some s.wcc.toNat } }.readdKept
  (s.rejoinAll m live lost exact again).resumeAll

/-- The module after S3, in S0. -/
def State.backToS0 (s : State) : State := { s.setSupply 0 with power := { s.power with st := 0, s3 := .none, pfw := false, uv := false } }

/-- Measurement of the firmware images at reset (R389): M_1 to M_6. -/
def measure (images : List (List Byte)) : List (List Byte) :=
  (images.foldl (fun (a : List (List Byte) × List Byte) i =>
    let m := shake256 (a.2 ++ shake256 i 32) 32
    (a.1 ++ [m], m)) ([], List.replicate 32 0)).1

/-- The firmware that runs after a module reset: what was installed since the last (R391). -/
def Tenancy.booted (t : Tenancy) : Tenancy :=
  let im := t.images.zipIdx.map fun i => if Table.has t.newImages i.2 then Table.get [] t.newImages i.2 else i.1
  { t with images := im, newImages := [], chain := measure im }

/-- What a pair keeps when its cores lose their tasks: its suspect score and quarantine (R229, R387). -/
def Pair.rested (p : Pair) : Pair := { ({} : Pair) with score := p.score, quar := p.quar }

/-- The module at module reset (R389): SCM is kept, and with it PEND and COUNT; every register returns to its reset value but
those that are measured or kept. -/
def State.moduleReset (s : State) : State :=
  { State.reset with
    mem := s.mem.filter fun c => decide (scmAddr ≤ c.1 ∧ c.1 < scmAddr + scmSize)
    pairs := s.pairs.map fun p => (p.1, p.2.rested)
    power := { State.reset.power with rescap := s.power.rescap, reserve := s.power.reserve }
    ten := ({ State.reset.ten with pend := s.ten.pend, count := s.ten.count, images := s.ten.images
                                   versions := s.ten.versions, newImages := s.ten.newImages, used := s.ten.used
                                   unver := s.ten.unver, benchhash := s.ten.benchhash, lanes := s.ten.lanes
                                   scmKey := s.ten.scmKey }).booted
    dies := s.dies.map fun d => (d.1, { ({} : Die) with retired := d.2.retired })
    flaws := s.flaws.filter fun l => decide (scmAddr ≤ 64 * l ∧ 64 * l < scmAddr + scmSize)
    free := s.free, ev := s.ev, agenda := s.agenda }

end Sys2Proof.Machine
end

