-- ==== Sys2Proof/Machine/Tenancy.lean ====
section
/-! DEFINITION. Registers that software writes (R262, R367, R390, R392, R394, R400, and those of Vizin), the tenant scrub (R386
to R388), measurement and attestation (R389 to R391), the bench test (R392), RISK and checkpoint policy (R393 to R395), and the
acceptance of a restored state (R396), and restart (R381, R388). -/

namespace Sys2Proof.Machine

/-! ### Registers -/

/-- A field of a written value. -/
def vfld (w : Word) (lo n : Nat) : Nat := fld w lo n

/-- 8 bytes of a byte list replaced. -/
def setBytes (l : List Byte) (off : Nat) (w : Word) : List Byte := l.take off ++ leBytes 8 w.toNat ++ l.drop (off + 8)

/-- SHORD's first N positions name distinct dies. -/
def shordOk (w : Word) : Bool :=
  let n := fld w 24 4
  decide (n ≤ 8) && (List.range n).all fun i => (List.range i).all fun j => fld w (3 * i) 3 != fld w (3 * j) 3

/-- The power controller's registers (R367): only Vizin writes, and a value that is not allowed is ignored. -/
def Power.write (p : Power) (off : Nat) (w : Word) : Power :=
  match off with
  | 0x10 => { p with fixCost := fld w 0 32 }
  | 0x18 => { p with sealCost := fld w 0 32 }
  | 0x20 => { p with rate := fld w 0 16 }
  | 0x30 => if shordOk w then { p with shedN := fld w 24 4, order := fld w 0 24 } else p
  | 0x38 => if 800 ≤ fld w 0 12 ∧ fld w 0 12 ≤ 2400 then { p with plimit := fld w 0 12 } else p
  | 0x40 => if fld w 0 16 = 0 then p else { p with rwlim := fld w 32 20, rwint := fld w 0 16 }
  | 0x88 => if 85 ≤ fld w 0 7 ∧ fld w 0 7 ≤ 105 then { p with tlimit := fld w 0 7 } else p
  | _ => p

/-- A submission queue's registers (R262, R394) as the host writes them. A change of SQBASE or SQSIZE while records stand tears
the ring. -/
def SubQueue.write (q : SubQueue) (off : Nat) (w : Word) : SubQueue :=
  let torn (change : Bool) : Bool := q.torn || (change && q.head != q.tail)
  match off with
  | 0x00 => { q with base := fld w 7 48, torn := torn (fld w 7 48 != q.base) }
  | 0x08 =>
    let n := fld w 0 13
    if 16 ≤ n ∧ n ≤ 4096 ∧ (List.range 13).any (fun i => 2 ^ i == n) ∧ fld w 13 51 = 0 then { q with size := n, torn := torn (n != q.size) }
    else q
  | 0x20 => { q with lbud := fld w 0 48 }
  | 0x30 => { q with ckpol := w &&& 0xC000FFFFF000FFFF#64 }
  | _ => q

/-- A core's registers that Vizin writes through the CMC (R230, R232). -/
def Core.write (k : Core) (off : Nat) (w : Word) : Core :=
  let b : Bkpt := { en := w.getLsbD 35, any := w.getLsbD 34, ctxn := BitVec.ofNat 2 (fld w 32 2), addr := BitVec.ofNat 30 (fld w 2 30) }
  if off < 0x20 then { k with bkpts := k.bkpts.set (⟨off / 8 % 4, Nat.mod_lt _ (by omega)⟩ : Fin 4) b }
  else if 0x80 ≤ off ∧ off < 0x100 then { k with ewt := k.ewt.set (⟨off / 8 % 16, Nat.mod_lt _ (by omega)⟩ : Fin 16) (BitVec.ofNat 16 (fld w 0 16)) }
  else if off = 0x100 then { k with spwr := BitVec.ofNat 16 (fld w 0 16) }
  else if off = 0x108 then { k with icnt := BitVec.ofNat 48 (fld w 0 48) }
  else if off = 0x110 then { k with ires := BitVec.ofNat 4 (fld w 0 4) }
  else k

/-- A group entry's words as Vizin writes them (R407). -/
def Group.write (g : Group) (i : Nat) (w : Word) : Group :=
  match i with
  | 0 => { g with v := w.getLsbD 63, gen := fld w 32 20, asid := fld w 16 16, n := fld w 8 8, rank := fld w 0 8 }
  | 1 => { g with mlist := fld w 0 52 }
  | 2 => { g with step := fld w 32 32, plane := fld w 0 6, steps := fld w 32 32 }
  | 3 => { g with waitlim := fld w 0 16 }
  | 4 => { g with coln := fld w 0 16 }
  | _ => g

/-- A seed-log entry with one of its words as Vizin writes it, its rsv bits 0 (R65, R67). -/
def SeedEntry.write (e : SeedEntry) (i : Nat) (w : Word) : SeedEntry :=
  seedOf (e.bits - e.bits / 2 ^ (64 * i) % 2 ^ 64 * 2 ^ (64 * i) + w.toNat * 2 ^ (64 * i))

/-- Vizin may write the bind record of a slot-table entry (R273). -/
def Slot.writable (l : Slot) : Bool := l.dst == .empty || l.dst == .ended || l.dst == .refused

/-- A slot-table entry with a word of its bind record as it is written; in any other status the write is ignored (R273). -/
def Slot.write (l : Slot) (i : Nat) (w : Word) : Slot :=
  if l.writable then { l with recd := l.recd.set (⟨i % 8, Nat.mod_lt _ (by omega)⟩ : Fin 8) w } else l

/-- Where this model numbers the registers that the manual reaches through the CMC and gives no offset (log 10). -/
def coreRegs : Nat := 0x1000000
def slotRegs : Nat := 0x2000000
def seedRegs : Nat := 0x3000000
def groupRegs : Nat := 0x3100000
def astabReg : Nat := 0x3200000

/-- A write of a register of Vizin's. -/
def State.vizinWrite (s : State) (a : Nat) (w : Word) : State :=
  if 0x8000 ≤ a ∧ a < 0x8100 then
    { s with power := s.power.write (a - 0x8000) w }
  else if coreRegs ≤ a ∧ a < coreRegs + 0x1000 * moduleCores then
    let c := (a - coreRegs) / 0x1000
    s.setCore c ((s.core c).write ((a - coreRegs) % 0x1000) w)
  else if slotRegs ≤ a ∧ a < slotRegs + 0x1000 * (numDies * numClusters) then
    let c := (a - slotRegs) / 0x1000
    let e := (a - slotRegs) % 0x1000 / 64
    s.setSlot c e ((s.slot c e).write ((a - slotRegs) / 8 % 8) w)
  else if seedRegs ≤ a ∧ a < seedRegs + 8192 then
    let i := (a - seedRegs) / 32
    { s with seedlog := Table.put s.seedlog i ((s.seedEntry i).write ((a - seedRegs) / 8 % 4) w) }
  else if groupRegs ≤ a ∧ a < groupRegs + 64 * 4096 then
    let g := (a - groupRegs) / 64
    { s with groups := Table.put s.groups g ((s.group g).write ((a - groupRegs) / 8 % 8) w) }
  else if a = astabReg then { s with astab := fld w 0 52 }
  else s

/-- A write of a register of the host's. -/
def State.hostWrite (s : State) (a : Nat) (w : Word) : State :=
  let t := s.ten
  if 0x9040 ≤ a ∧ a < 0x9060 then { s with ten := { t with nonce := setBytes t.nonce (a - 0x9040) w } }
  else if a = 0x9060 then { s with ten := { t with attbuf := w.toNat } }
  else if 0x9088 ≤ a ∧ a < 0x90A8 then { s with ten := { t with benchnonce := setBytes t.benchnonce (a - 0x9088) w } }
  else if a = 0x90A8 then { s with ten := { t with benchbuf := w.toNat } }
  else if a = 0xB100 then { s with modnum := fld w 0 8 }
  else if 0x10000 ≤ a ∧ a < 0x14000 then
    let q := (a - 0x10000) / 0x100
    s.setSubq q ((s.subq q).write ((a - 0x10000) % 0x100) w)
  else s

/-- PORTST of a port (R402). -/
def Port.status (x : Port) : Word := w64 (x.lsuseq.toNat * 2 ^ 32 + x.retry.toNat * 2 ^ 8 + x.st)

/-- Eight bytes of a byte list as a word. -/
def wordOf (l : List Byte) (off : Nat) : Word := BitVec.ofNat 64 (leNat ((l.drop off).take 8))

/-- A submission queue's register as the host reads it (R262, R394). DESIGN CHOICE (log 66): SQTAIL and LBUD, which the host writes, read as
the last values written. -/
def SubQueue.read (q : SubQueue) (off : Nat) : Word :=
  match off with
  | 0x00 => w64 (q.base * 2 ^ 7)
  | 0x08 => w64 q.size
  | 0x10 => w64 q.tail
  | 0x18 => w64 q.head
  | 0x20 => w64 q.lbud
  | 0x30 => q.ckpol
  | 0x38 => q.lost
  | _ => 0

/-- The register of the module's CXL.io space at an offset, as the host reads it (R262, R367, R386, R390, R392, R393, R394, R400,
R402). -/
def State.ioRead (s : State) (a : Nat) : Word :=
  let t := s.ten
  if 0x8000 ≤ a ∧ a < 0x8100 then s.powerReg (a - 0x8000)
  else if a = 0x9000 then w64 (bit t.go 63 + bit t.pend 62 + t.phase * 2 ^ 59 + t.err * 2 ^ 56 + t.count.toNat)
  else if a = 0x9020 then w64 t.risk.toNat
  else if 0x9040 ≤ a ∧ a < 0x9060 then wordOf t.nonce (a - 0x9040)
  else if a = 0x9060 then w64 t.attbuf
  else if a = 0x9068 then w64 (bit t.attgo 0 + bit t.attdone 1)
  else if a = 0x9080 then w64 (bit t.benchgo 0 + bit t.benchdone 1 + bit t.benchabort 2)
  else if 0x9088 ≤ a ∧ a < 0x90A8 then wordOf t.benchnonce (a - 0x9088)
  else if a = 0x90A8 then w64 t.benchbuf
  else if 0xA000 ≤ a ∧ a < 0xB000 then wordOf ((identityKey ++ zeros 64).take 64 ++ identityChain) (a - 0xA000)
  else if 0xB000 ≤ a ∧ a < 0xB090 then (s.port ((a - 0xB000) / 8)).status
  else if a = 0xB100 then w64 s.modnum
  else if 0x10000 ≤ a ∧ a < 0x14000 then (s.subq ((a - 0x10000) / 0x100)).read ((a - 0x10000) % 0x100)
  else 0

/-- REGISTER_WRITE (R367): a write of 8 bytes by Vizin or by the host; the other's registers keep their values. -/
def execRegisterWrite (s : State) : Out :=
  .next (if s.ev.addr % 8 ≠ 0 then s
    else if s.ev.flag then s.vizinWrite s.ev.addr s.ev.value else s.hostWrite s.ev.addr s.ev.value)

/-! ### Attestation (R389 to R391) -/

/-- Quarantined pairs. -/
def State.quarantined (s : State) : Nat := (s.pairs.filter fun p => p.2.quar).length

/-- Bytes written to a host buffer, through the host-line buffer (R406): host address = PA − 0x1000_0000_0000 (R337). -/
def State.hostBuffer (s : State) (a : Nat) (bs : List Byte) : State :=
  bs.zipIdx.foldl (fun s b => s.hostPoke (hostAddr + a / 64 * 64 + b.2) 255 b.1.toNat) s

/-- An MSI-X vector is raised (R404; log 67): 64 supply, 65 scrub, 66 attestation, 67 bench. -/
def State.raiseVec (s : State) (v : Nat) : State := { s with msix := s.msix ++ [v] }

/-- Bytes 0 to 0x17F of a report (R390), `mid` at 0x030 to 0x16F. -/
def reportHead (nonce mid : List Byte) : List Byte :=
  leBytes 8 (0x5A394154 * 2 ^ 32 + 1) ++ leBytes 8 serialNumber.toNat ++ nonce ++ (mid ++ zeros 320).take 320 ++ zeros 16

/-- A signed report: 29,792 bytes of signature. -/
def signedReport (head : List Byte) : List Byte := head ++ (signature head ++ zeros 29792).take 29792

/-- The attestation report (R390). -/
def State.report (s : State) : List Byte :=
  let t := s.ten
  let now := measure t.images
  let held := if t.chain = [] then now else t.chain
  signedReport (reportHead t.nonce (held.flatten ++ now.getLastD [] ++ leBytes 8 s.power.seq ++ (s.power.hfin ++ zeros 32).take 32
    ++ t.benchhash ++ leBytes 8 t.count.toNat ++ leBytes 8 s.wcc.toNat
    ++ leBytes 8 (bit (held != now) 0 + bit t.unver 1 + bit t.pend 2 + s.quarantined % 256 * 2 ^ 8)))

/-- The report is written to the host buffer. -/
def State.attest (s : State) : State :=
  let s := s.hostBuffer s.ten.attbuf s.report
  ({ s with ten := { s.ten with attgo := false, attdone := true } }).raiseVec 66

/-- ATTESTATION_REQUEST (R390): one made during a scrub is served after it (R388). -/
def execAttestationRequest (s : State) : Out :=
  .next (if s.ten.attgo then s
    else if s.ten.go then { s with ten := { s.ten with attgo := true, attdone := false } }
    else s.attest)

/-- FIRMWARE_INSTALL (R391): images 1 to 6. -/
def execFirmwareInstall (s : State) : Out :=
  let t := s.ten
  let i := s.ev.index - 1
  .next (if s.ev.flag ∧ 1 ≤ s.ev.index ∧ s.ev.index ≤ 6 ∧ t.versions.getD i 0 ≤ s.ev.count then
      { s with ten := { t with newImages := Table.put t.newImages i s.ev.bytes, versions := t.versions.set i s.ev.count } }
    else s)

/-! ### The tenant scrub (R386 to R388) -/

/-- Step 1 of R387: transfers that have performed complete, launches are aborted, contexts and the other transfers are discarded,
submission registers are reset. -/
def State.scrubLaunches (s : State) : State :=
  let s := s.settle.completeAll (s.cores.map Prod.fst)
  let s := s.launches.foldl (fun s (l : Launch) => s.finalRecord l 5) s
  let s := (List.range numDies).foldl (fun s d => (s.boundOn d).foldl (fun s m => s.unbind m.1 m.2 .empty) s) s
  let s := (List.range numDies).foldl (fun s d =>
    s.setDie d { s.die d with park := .none, acc := [], deliv := [], reserved := none }) s
  { s with subqs := [], launches := [], colls := [], recvs := [], rts := [], early := [], sents := [] }

/-- A parity error of the instruction store, which no step of the scrub writes. -/
def Upset.inStore (u : Upset) : Bool :=
  match u with
  | .istore _ => true
  | .pe _ => true
  | _ => false

/-- A nest table and a tile that a scrub has zeroed (R387). -/
def NestTab.zero : NestTab := { cnt := Vector.replicate 6 0, fa := 0, fb := 0 }
def Tile.zero : Tile := { rows := List.replicate 64 { max := 0 } }

/-- A core as steps 3 and 4 of R387 leave it: zero, but its instruction store, energy weights and static power stand. -/
def Core.scrubbed (k : Core) : Core :=
  { tiles := Vector.replicate 8 Tile.zero, shadow := NestTab.zero, active := NestTab.zero
    ewt := k.ewt, spwr := k.spwr, istore := k.istore, upsets := k.upsets.filter Upset.inStore }

/-- Step 3 of R387, with the accumulator tiles of step 4. -/
def State.scrubRegisters (s : State) : State :=
  { s with
    cores := (List.range moduleCores).map fun c => (c, (s.core c).scrubbed)
    pairs := s.pairs.map fun p => (p.1, { p.2.rested with since := p.2.since })
    clusters := [], seedlog := [], hiblist := [], kept := []
    groups := s.groups.map fun g => (g.1, { g.2 with v := false })
    dies := s.dies.map fun d => (d.1, { d.2 with tlb := [], tinv := 0, queue := [] }) }

/-- Steps 4 and 5 of R387: on-die SRAM and HBM are zero; rows that fail are retired. -/
def State.scrubMemory (s : State) (rows : List Nat) : State :=
  let kept (a : Nat) : Bool := match placeOf a with
    | .host => true
    | .scm => true
    | _ => false
  { s with
    mem := (s.mem.filter fun c => kept c.1)
    flaws := s.flaws.filter fun l => kept (64 * l)
    dies := s.dies.map fun d => (d.1, { d.2 with retired := d.2.retired ++ rows.filter fun r => r * 64 / hbmSize == d.1 }) }

/-- Step 2 of R387: the tenant's SCM key is gone, and a new one is drawn: nothing of SCM can be read, and both slots' headers are
zero. -/
def State.scrubScm (s : State) : State :=
  let scm (a : Nat) : Bool := decide (scmAddr ≤ a ∧ a < scmAddr + scmSize)
  { s with mem := s.mem.filter fun c => !scm c.1, flaws := s.flaws.filter fun l => !scm (64 * l), free := s.free + 2
           ten := { s.ten with scmKey := [freeEntropy s.free, freeEntropy (s.free + 1)] } }

/-- The five steps. -/
def State.scrub (s : State) (rows : List Nat) : State :=
  let s := s.scrubLaunches.scrubScm.scrubRegisters.scrubMemory rows
  let t := s.ten
  let s := { s with
    directory := [], hostLines := []
    ten := { t with go := false, pend := false, phase := 0, err := if rows = [] then 0 else 2, count := t.count + 1, used := false
                    unver := false, digests := [], owned := [] }
    power := { s.power with coldAt := s.wcc.toNat } }
  let s := s.raiseVec 65
  if t.attgo then s.attest else s

/-- TENANT_SCRUB (R386, R388): a write of GO, ignored while GO reads 1 and refused during a bench test; during an S3 sequence it has
only begun, and runs after the restart. -/
def execTenantScrub (s : State) : Out :=
  .next (if s.ten.go then s
    else if s.ten.benchgo then { s with ten := { s.ten with err := 1 } }
    else if s.power.s3 ≠ .none then { s with ten := { s.ten with go := true, pend := true, phase := 1 } }
    else s.scrub s.ev.nats)

/-! ### The bench test (R392) -/

/-- A processing element by number: 4,096 × core + 64 × row + column. -/
def peCore (n : Nat) : Nat := n / 4096

/-- The defective processing elements that the state holds (R197): rotation mode finds each. -/
def State.badPes (s : State) : List Nat :=
  s.cores.flatMap fun e => e.2.upsets.filterMap fun u => match u with
    | .pe n => some (4096 * e.1 + n)
    | _ => none

/-- The result with every defective element the state holds among the failing ones. -/
def State.benchFound (s : State) (r : BenchResult) : BenchResult :=
  { r with pes := r.pes ++ s.badPes.filter fun n => !r.pes.contains n }

/-- The pairs that fail item 1 or 2. -/
def benchFails (r : BenchResult) : List Nat := (r.pairs ++ r.pairs2 ++ r.pes.map fun n => peCore n / 2).eraseDups

/-- The count of failing units of each of the seven items; item 6 fails when RESCAP falls below 8,000,000 mJ. -/
def benchCounts (r : BenchResult) : List Nat :=
  [r.pairs.length, r.pairs2.length + r.pes.length, r.sram, r.rows.length, r.lanes.length, bit (decide (r.rescap < 8000000)) 0,
   r.rows7.length]

/-- What a result holds: per item a pass flag and a count; the numbers of the failing pairs, PEs, rows and lanes; RESCAP. -/
def benchContents (r : BenchResult) : List Nat :=
  ((benchCounts r).flatMap fun n => [bit (n == 0) 0, n]) ++ benchFails r ++ r.pes
    ++ ((r.rows ++ r.rows7).flatMap fun x => [x.1, x.2]) ++ r.lanes ++ [r.rescap]

/-- Rows that fail are retired (R364). -/
def State.retireRows (s : State) (rows : List (Nat × Nat)) : State :=
  rows.foldl (fun s x => s.setDie x.1 { s.die x.1 with retired := (s.die x.1).retired ++ [x.2] }) s

/-- A pair's score at the end of the test: 255 and quarantine where it failed, and a quarantined pair that passed serves again. -/
def Pair.benched (p : Pair) (failed : Bool) (wcc : Nat) : Pair :=
  if failed then { p with score := 255, quar := true } else if p.quar then { p with score := 0, quar := false, since := wcc } else p

/-- The defective processing elements that the test found. -/
def State.markPes (s : State) (pes : List Nat) : State :=
  pes.foldl (fun s n =>
    let k := s.core (peCore n)
    if k.upsets.contains (.pe (n % 4096)) then s else s.setCore (peCore n) { k with upsets := k.upsets ++ [.pe (n % 4096)] }) s

/-- A scrub that has begun and not completed runs again from step 1 (R388). -/
def State.rerunScrub (s : State) : State := if s.ten.pend then s.scrub s.ev.nats else s

/-- MODULE_RESET (R389): a pending scrub runs again before any launch is accepted. -/
def execModuleReset (s : State) : Out := .next s.moduleReset.rerunScrub

/-- RESTART (R369, R381, R388): after the seal, when RESERVE_J has reached HIBMIN. A pending scrub runs again first; with no
valid slot the module cold-starts, and Vizin reports that no manifest was restored. -/
def execRestart (s : State) : Out :=
  .next (if s.power.s3 ≠ .closed ∨ s.power.reserve < s.hibMin then s
    else if s.ten.pend then s.backToS0.freshDies.rerunScrub
    else
      match s.manifest with
      | none => { s.moduleReset with power := { s.moduleReset.power with unrestored := true } }
      | some m => s.backToS0.restore m.2)

/-- The signed result. -/
def State.benchReport (s : State) (r : BenchResult) : List Byte := signedReport (reportHead s.ten.benchnonce (benchLayout (benchContents r)))

/-- The pairs that a test with a result changes the score of: those that failed, and those quarantined. -/
def State.benchPairs (s : State) (r : BenchResult) : List Nat :=
  (benchFails r ++ (s.pairs.filter fun p => p.2.quar).map Prod.fst).eraseDups

/-- A port all of whose lanes are down carries nothing: if it was up it dies (R392). -/
def State.killLaneless (s : State) : State :=
  (List.range 18).foldl (fun s p => if (s.port p).st = 2 ∧ s.laneless p then s.killPort p else s) s

/-- The end of the test: its result is written and its effects follow; item 7 reports as a scrub does (R386, R387). Item 6 takes 800,000 mJ of
the reserve, which may not fall below 60,000; it recharges by R439, never above the new RESCAP. -/
def State.benchEnd (s : State) (r : BenchResult) : State :=
  if s.power.reserve < 860000 ∨ s.power.st ≠ 0 then ({ s with ten := { s.ten with benchgo := false, benchabort := true } }).raiseVec 67
  else
    let r := s.benchFound r
    let s := (s.benchPairs r).foldl (fun s p => s.setPair p ((s.pair p).benched ((benchFails r).contains p) s.wcc.toNat)) s
    let s := (((s.retireRows r.rows).scrubRegisters.scrubMemory []).retireRows r.rows7).markPes r.pes
    let bs := s.benchReport r
    let s := s.hostBuffer s.ten.benchbuf bs
    ({ s with
      power := { s.power with rescap := r.rescap, reserve := min r.rescap s.power.reserve }
      ten := { s.ten with benchgo := false, benchdone := true, benchhash := shake256 bs 32, lanes := s.ten.lanes ++ r.lanes
                          err := if r.rows7 = [] then s.ten.err else 2 } }).killLaneless.raiseVec 67

/-- BENCH_TEST (R392): a start on a module on which no launch has been accepted since the last scrub; of a running test, its
end. -/
def execBenchTest (s : State) : Out :=
  .next (if s.ten.benchgo then s.benchEnd s.ev.bench
    else if s.ten.used ∨ s.ten.go ∨ s.power.st ≠ 0 then s
    else { s with ten := { s.ten with benchgo := true, benchdone := false, benchabort := false } })

/-! ### RISK and checkpoints (R393 to R395) -/

/-- WCC clk in a second, and those since an event. -/
def second : Nat := 600000000
def State.within (s : State) (secs : Nat) (l : List Nat) : Nat := (l.filter fun w => decide (s.wcc.toNat < w + secs * second)).length

/-- Corrected HBM errors of the last hour. -/
def State.hourErrors (s : State) : Nat :=
  (s.dies.map fun d => ((d.2.errs.filter fun e => decide (s.wcc.toNat < e.1 + 3600 * second)).map Prod.snd).sum).sum

/-- RISK_UPDATE (R393). Subject: how many dies stand within 5 °C of TLIM. -/
def execRiskUpdate (s : State) : Out :=
  let n := 4096 * s.within 86400 s.power.pfws + 1024 * s.within 86400 s.power.s2s + (if s.rlow then 8192 else 0)
    + 512 * (s.pairs.filter fun p => decide (64 ≤ p.2.score)).length + min 8192 (16 * s.hourErrors) + 256 * s.ev.count
  .next { s with ten := { s.ten with risk := BitVec.ofNat 16 (min 65535 n) } }

/-- Round(√(num ÷ den)), ties to even. -/
def roundSqrt (num den : Nat) : Nat :=
  let k := (List.range 40).reverse.foldl (fun a b => if (a + 2 ^ b) * (a + 2 ^ b) * den ≤ num then a + 2 ^ b else a) 0
  let mid := (2 * k + 1) * (2 * k + 1) * den
  if mid < 4 * num then k + 1 else if 4 * num < mid then k else k + k % 2

/-- Fields of CKPOL (R394). -/
def polMax (w : Word) : Nat := fld w 28 4
def polInt (w : Word) : Nat := if fld w 0 16 = 0 then 60 else fld w 0 16

/-- Bytes of a launch's regions of priority up to PMAX. -/
def State.launchBytes (s : State) (num pmax : Nat) : Nat :=
  (s.hiblist.map fun e => if e.2.v ∧ e.2.prio ≤ pmax ∧ fld e.2.w2 32 32 = num then e.2.bytes else 0).sum

/-- τ of R394 in seconds: C of the last checkpoint in clk, or from the bytes. -/
def State.interval (s : State) (l : Launch) : Nat :=
  let f := s.within 86400 s.power.s2s + s.within 86400 s.power.s3s + s.within 86400 s.power.ras
  let c : Nat × Nat := match l.ckpt.cost with
    | some n => (n, second)
    | none => (s.launchBytes l.num (polMax l.ckpt.pol), 400000000000)
  max (polInt l.ckpt.pol) (min 3600 (roundSqrt (2 * c.1 * 86400) (c.2 * (f + 1))))

/-- A launch is in NORMAL service: not in test, recovery or startup. -/
def State.normal (s : State) (l : Launch) : Bool :=
  !l.ckpt.pol.getLsbD 62 && s.within 21600 (s.power.restoredAt.toList ++ s.power.ras) == 0 && s.within 21600 [s.power.coldAt] == 0

/-- A checkpoint is due. -/
def State.ckptDue (s : State) (l : Launch) : Bool :=
  if s.normal l then decide (fld l.ckpt.pol 32 16 ≤ s.ten.risk.toNat ∧ l.ckpt.last + polInt l.ckpt.pol * second ≤ s.wcc.toNat)
  else decide (l.ckpt.last + s.interval l * second ≤ s.wcc.toNat)

/-- A condition word of a launch. -/
def condAddr (l : Launch) (n : Nat) : Nat := lrArgs l.recd + 8 * n

/-- CHECKPOINT_DUE (R394, R395): CW255 takes the next request number. -/
def execCheckpointDue (s : State) : Out :=
  .next (match s.launch? s.ev.lnum with
    | none => s
    | some l =>
      if ¬ l.ckpt.pol.getLsbD 63 ∨ l.held ∨ l.failed.isSome ∨ l.waiting ∨ l.ckpt.asked.isSome ∨ l.ckpt.busy.isSome ∨ ¬ s.ckptDue l then s
      else
        match s.vwrite (lrAsid l.recd) (condAddr l 255) (leBytes 8 (l.ckpt.n + 1)) with
        | .error _ => s
        | .ok s => s.setLaunch { l with ckpt := { l.ckpt with n := l.ckpt.n + 1, asked := some s.wcc.toNat } })

/-- A checkpoint of a launch whose tasks are frozen: once its transfers are complete and no S3 sequence runs, it is written and
the tasks resume. Its duration is open (log 4). -/
def State.launchCkpt (s : State) (l : Launch) (tag : Word) : State :=
  if s.launchBusy l.num ∨ s.power.s3 ≠ .none ∨ (s.regionRetained (polMax l.ckpt.pol)).isSome
      ∨ (s.boundOf l.num).any (fun m => (s.ctx m.1 m.2).frozen == .none || (s.ctx m.1 m.2).saveIn.isSome) then s
  else
    let s := s.checkpoint (polMax l.ckpt.pol) tag
    let cost := (freeVizin 8 s.free).toNat
    let s := { s.setLaunch { l with ckpt := { l.ckpt with busy := none, last := s.wcc.toNat, cost := some cost } } with free := s.free + 1 }
    let mine (s : State) (d : Nat) : List (Nat × Fin 4) := (s.parkFrozen d).filter fun m => (s.ctx m.1 m.2).bind.lnum == l.num
    (List.range numDies).foldl (fun s d => if (s.die d).awake then (s.rereadAll (mine s d)).resumeDie d (mine s d) else s) s

/-- CHECKPOINT_ACK (R395): the program has answered in CW254, and the launch's tasks freeze; of a launch whose tasks are frozen,
its checkpoint. -/
def execCheckpointAck (s : State) : Out :=
  .next (match s.launch? s.ev.lnum with
    | none => s
    | some l =>
      match l.ckpt.busy with
      | some tag => s.launchCkpt l tag
      | none =>
        if l.ckpt.asked.isNone ∨ s.power.s3 ≠ .none then s
        else
          match s.vwords (lrAsid l.recd) (condAddr l 254) 1 with
          | .error _ => s
          | .ok ws =>
            if fld (wordAt ws 0) 32 32 ≠ l.ckpt.n then s
            else
              let s := s.setLaunch { l with ckpt := { l.ckpt with asked := none, busy := some (wordAt ws 0) } }
              (s.boundOf l.num).foldl (fun s m => s.wantFreeze m.1 m.2 .park) s)

/-- CHECKPOINT_WITHDRAW (R395). -/
def execCheckpointWithdraw (s : State) : Out :=
  .next (match s.launch? s.ev.lnum with
    | none => s
    | some l =>
      match l.ckpt.asked with
      | none => s
      | some at_ =>
        if s.wcc.toNat < at_ + 60 * second then s
        else
          match s.vwrite (lrAsid l.recd) (condAddr l 255) (leBytes 8 0) with
          | .error _ => s
          | .ok s => s.setLaunch { l with ckpt := { l.ckpt with asked := none, missed := l.ckpt.missed + 1 } })

/-! ### Accepting a restored state (R396) -/

/-- A restored launch is accepted and its contexts resume. -/
def State.acceptRestored (s : State) (c : RestoreCheck) : State :=
  let s := { s with ten := { s.ten with digests := s.ten.digests.filter fun (d : RestoreCheck) => d.lnum != c.lnum } }
  match s.launch? c.lnum with
  | some l => (s.setLaunch { l with waiting := false }).resumeAll
  | none => s

/-- Payloads of given lengths cut from bytes. -/
def cutBytes (bs : List Byte) : List Nat → List (List Byte)
  | [] => []
  | n :: l => bs.take n :: cutBytes (bs.drop n) l

/-- The regions of a launch have been copied from a peer that holds other bytes under the same TAG: accepted when the digest now agrees,
else the launch fails with cause 0. -/
def State.copyRestored (s : State) (c : RestoreCheck) (bs : List Byte) : State :=
  match s.manifest with
  | none => s.acceptRestored c
  | some m =>
    let recs := c.owned.filterMap fun i => m.2.recs[i]?
    let ps := cutBytes bs (recs.map fun r => r.payload.length)
    if digestOf c.tag ps = c.other then
      ((recs.zip ps).foldl (fun s (r : Rec × List Byte) => s.restoreRegion { r.1 with payload := r.2 }) s).acceptRestored c
    else
      let s := { s with ten := { s.ten with digests := s.ten.digests.filter fun (d : RestoreCheck) => d.lnum != c.lnum } }
      s.failLaunch c.lnum 0 0 0

def State.setCheck (s : State) (c : RestoreCheck) : State :=
  { s with ten := { s.ten with digests := s.ten.digests.map fun (d : RestoreCheck) => if d.lnum = c.lnum then c else d } }

/-- A peer's answer to a restore digest: the same TAG agrees or disagrees, a later TAG is waited out. When every peer has answered with
another D the regions are copied. -/
def State.digestAnswer (s : State) (p : Packet) (c : RestoreCheck) : State :=
  let tag := wordAt p.ops 0
  if tag = c.tag ∧ packetDigest p = c.digest then s.acceptRestored c
  else if c.tag.toNat < tag.toNat then s
  else
    let c := { c with peers := c.peers - 1, other := if tag = c.tag then packetDigest p else c.other }
    s.setCheck { c with copying := c.copying || decide (c.peers = 0 ∧ c.other ≠ []) }

/-- RESTORE_DIGEST (R396): a question is answered with the own TAG and digest, an answer decides, and without a packet the bytes of a copy have
come (log 37). Subject: a packet, or lnum and the bytes. -/
def execRestoreDigest (s : State) : Out :=
  let p := s.ev.packet
  .next (if p.type ≠ 38 then
      match s.ten.digests.find? fun (c : RestoreCheck) => c.lnum == s.ev.lnum && c.copying with
      | some c => s.copyRestored c s.ev.bytes
      | none => s
    else if (s.seen p).isSome then s
    else
    let s := s.keep p p
    if p.x.id = 0 then
      match s.manifest, s.launches.find? fun (l : Launch) => lrAsid l.recd == p.asid with
      | some m, some l => s.sendOr (s.digestPacket p.smod p.asid 1 m.2.tag (digestOf m.2.tag (m.2.payloads (s.launchOwned m.2 l.num))))
      | _, _ => s
    else
      match s.ten.digests.find? fun (c : RestoreCheck) => (match s.launch? c.lnum with
          | some l => lrAsid l.recd == p.asid
          | none => false) with
      | some c => s.digestAnswer p c
      | none => s)

/-- RESTORE_TIMEOUT (R396): after 10 s a launch that no peer has answered for is accepted, with UNVER set; one for which every answer
differed is copied. -/
def execRestoreTimeout (s : State) : Out :=
  .next ((s.ten.digests.filter fun (c : RestoreCheck) => decide (c.asked + 10 * second ≤ s.wcc.toNat)).foldl (fun s (c : RestoreCheck) =>
    if c.other ≠ [] then s.setCheck { c with copying := true }
    else { (s.acceptRestored c) with ten := { (s.acceptRestored c).ten with unver := true } }) s)

/-- ENTROPY_HEALTH_TEST (R66). -/
def execEntropyHealthTest (s : State) : Out := .next { s with entropyBad := s.ev.flag }

end Sys2Proof.Machine
end

