-- ==== Sys2Proof/Machine/Pairs.lean ====
section
/-! DEFINITION. Core pairs (R224 to R229), migration (R221, R223), energy (R232 to R235) and the freeze that software asks for
(R213). -/

namespace Sys2Proof.Machine

/-! ### Core pairs -/

/-- A pair's mode changes only when no context of either core is bound (R224). -/
def execPairModeChange (s : State) : Out :=
  let p := s.ev.index
  let z := s.pair p
  .next (if ¬ z.quar ∧ z.prot ≠ s.ev.flag ∧ (List.finRange 4).all (fun x => s.ctxFree (2 * p) x && s.ctxFree (2 * p + 1) x) then
      s.setPair p { z.restart with prot := s.ev.flag }
    else s)

/-- A commit record joins the leading core's chain; the trailing core comes to the record of two clk ago (R226). No record
stands for a clk in which nothing issued. A third run's CSIG is kept after NC commits (R228). -/
def Pair.commit (z : Pair) (rec : List Byte) : Pair :=
  let c := if rec = [] then z.csig else crcChain z.csig rec
  let n := if rec = [] then z.nc else z.nc + 1
  let z := { z with csig := c, nc := n, lag := z.lag ++ [(c, rec)]
                    seen := z.seen.or (match z.watch with
                      | some t => if t.nc = n then some c else none
                      | none => none) }
  match z.lag with
  | a :: b :: d :: l =>
    { z with lag := b :: d :: l, csigL := a.1, csigT := if a.2 = [] then z.csigT else crcChain z.csigT a.2 }
  | _ => z

/-- NC of the record that the trailing core reached last. -/
def Pair.trailNc (z : Pair) : Nat := z.nc - (z.lag.filter fun e => e.2 != []).length

/-- A comparison of a pair (R227): on a mismatch the contexts of its core that run freeze at the end of their bundles with
core-pair-mismatch, and the record is kept. -/
def State.comparePair (s : State) (p : Nat) : State :=
  let z := s.pair p
  if ¬ z.prot ∨ z.csigL = z.csigT then s
  else
    let s := s.setPair p { z with vote := z.vote.or (some (z.csigL, z.csigT, z.trailNc)), since := s.wcc.toNat }
    (List.finRange 4).foldl (fun s x =>
      if (s.ctx (2 * p) x).bound ∧ (s.ctx (2 * p) x).frozen = .none then s.reportTo (2 * p) x.val ⟨0x309, z.trailNc % 2 ^ 55, none, none⟩
      else s) s

/-- The trailing core's next commit record is its own: the bytes given, where a fault of one core made it differ from the leading
core's (R225). -/
def Pair.trails (z : Pair) (bs : List Byte) : Pair :=
  match z.lag with
  | a :: l => { z with lag := (a.1, bs) :: l }
  | [] => z

/-- CSIG_COMPARE (R226, R227): of a subject with its flag set, the trailing core's next commit record is the subject's bytes. -/
def execCsigCompare (s : State) : Out :=
  let p := s.ev.index
  .next ((if s.ev.flag ∧ (s.pair p).prot then s.setPair p ((s.pair p).trails s.ev.bytes) else s).comparePair p)

/-- A pair's suspect score, saturated; at 128 the pair is quarantined (R229). -/
def Pair.scored (z : Pair) (n : Nat) : Pair :=
  let sc := min 255 n
  { z with score := sc, quar := z.quar || decide (128 ≤ sc) }

/-- A task, with its gang, goes back to its queue and runs again from its start. -/
def State.runAgain (s : State) (core : Nat) (x : Fin 4) (third : Option ThirdRun) : State :=
  let q := (s.slot (clusterIndex core) (entryOf core x)).entry
  let s := (s.membersOf core x).foldl (fun s m => s.unbind m.1 m.2 .empty) s
  match q with
  | some q => s.setEntry q { s.entry q with st := .ready, live := 0, home := [], rsm := false, mark := [], third := third, enq := s.wcc.toNat }
  | none => s

/-- A pair's score rises; of a pair that is quarantined by it, a re-executable task that a context holds runs again and any other fails its
launch with a RAS error (R228, R229, R279). -/
def State.scorePair (s : State) (p n : Nat) : State :=
  let z := (s.pair p).scored n
  let t := s.setPair p z
  if (s.pair p).quar ∨ ¬ z.quar then t
  else ([2 * p, 2 * p + 1].flatMap fun core => (List.finRange 4).map fun x => (core, x)).foldl (fun s m =>
    let c := s.ctx m.1 m.2
    if ¬ c.bound then s
    else if c.bind.prot ∧ c.bind.reex then s.runAgain m.1 m.2 none
    else s.failLaunch c.bind.lnum 0x309 c.sys.wid c.sys.taskid) t

/-- The task goes back to its queue for a third run, from its start and on another pair (R228); a gang goes back whole. -/
def State.runThird (s : State) (p : Nat) (x : Fin 4) (v : W32 × W32 × Nat) : State :=
  let ms := s.membersOf (2 * p) x
  if ms.any fun m => (s.ctx m.1 m.2).frozen == .none || (s.ctx m.1 m.2).saveIn.isSome then s
  else
    let c := s.ctx (2 * p) x
    let third : ThirdRun := { gmem := c.bind.gmem.toNat, pair := p, lead := v.1, trail := v.2.1, nc := v.2.2, lnum := c.bind.lnum
                              wid := c.sys.wid, taskid := c.sys.taskid }
    let s := s.runAgain (2 * p) x (some third)
    if (s.mismatched p).isNone then s.setPair p { (s.pair p).restart with watch := (s.pair p).watch } else s

/-- The verdict on a third run that has made NC commits, or has ended (R228): the original pair's score rises by 16, and without a
majority the launch fails. A mismatch inside the third run fails the launch. -/
def State.verdict (s : State) (q : Nat) (t : ThirdRun) : State :=
  let z := s.pair q
  let s := s.setPair q { z with watch := none, seen := none }
  if z.vote.isSome then s.failLaunch t.lnum 0x309 t.wid t.taskid
  else
    let s := s.scorePair t.pair ((s.pair t.pair).score + 16)
    if z.seen = some t.lead ∨ z.seen = some t.trail then s else s.failLaunch t.lnum 0x309 t.wid t.taskid

/-- REEXECUTION_VOTE (R228), of the pair that mismatched: its re-executable task runs again; of the pair of a third run: the verdict. -/
def execReexecutionVote (s : State) : Out :=
  let p := s.ev.index
  let z := s.pair p
  .next (match z.watch with
    | some t => if z.seen.isSome ∨ z.vote.isSome ∨ (List.finRange 4).all (fun x => !(s.ctx (2 * p) x).bound) then s.verdict p t else s
    | none => match z.vote, s.mismatched p with
      | some v, some x => s.runThird p x v
      | _, _ => s)

/-- SUSPECT_SCORE_DECAY (R229): 24 hours without a mismatch. -/
def execSuspectScoreDecay (s : State) : Out :=
  let z := s.pair s.ev.index
  .next (if z.score = 0 ∨ z.quar ∨ s.wcc.toNat < z.since + 86400 * second then s
    else s.setPair s.ev.index { z with score := z.score - 1, since := z.since + 86400 * second })

/-! ### Migration (R221, R223) -/

/-- A frozen context whose save area stands, and that a park or S3 does not hold. -/
def State.movable (s : State) (core : Nat) (x : Fin 4) : Bool :=
  let c := s.ctx core x
  c.bound && c.saveIn.isNone && (c.frozen == .request || c.frozen == .preempt) && s.mayMove core x && !c.sys.gang
    && !s.taskBusy core c.sys.wid c.sys.taskid

/-- The windows as they are rewritten obey R28, and differ only in the vault, place and shadow of vault windows (R33); none lies over a park area (R372). -/
def movedWinsOk (old new : List Win) (cl : Nat) : Bool :=
  new.length == 8 && new.all (fun w => w.ok && !w.overPark) && (old.zip new).all fun w =>
    if w.1.kind = 2 then w.2.kind == 2 && w.2.vcl == cl && w.2.len == w.1.len && w.2.fmt == w.1.fmt && w.2.geo == w.1.geo
        && w.2.pitch == w.1.pitch && w.2.rd == w.1.rd && w.2.wr == w.1.wr
    else decide (w.2 = w.1)

/-- MIGRATION (R221): the task's vault regions are copied to where its new windows name them, its tokens lose their edges (R287),
and it waits in its queue, or in that of its new cluster, for its new place. -/
def execMigration (s : State) : Out :=
  let core := s.ev.core
  let x := ctxNo s.ev.ctx
  let tout := s.ev.core2
  let y := ctxNo s.ev.ctx2
  let c := s.ctx core x
  let wins := (List.range 8).map fun i => (⟨wordAt s.ev.words (2 * i), wordAt s.ev.words (2 * i + 1)⟩ : Win)
  let old := c.bind.wins.toList
  let cl := clusterIndex tout
  .next (match (s.slot (clusterIndex core) (entryOf core x)).entry with
    | none => s
    | some q =>
      if ¬ s.movable core x ∨ moduleCores ≤ tout ∨ ¬ s.coreFits tout c.bind.prot ∨ ¬ s.ctxFree tout y ∨ ¬ movedWinsOk old wins (clusterOf tout) then s
      else
        let place := if cl = q.1 then some q else (s.freeEntry cl).map fun i => (cl, i)
        match place with
        | none => s
        | some q2 =>
          let s := (s.settle.copyWins s.settle.mem core tout old wins).clearTokens c.bind.asid.toNat c.bind.save.toNat
          let s := s.rebase c.sys.wid c.sys.taskid core tout old wins
          let s := s.leaveFrozen core x .ready
          let e := s.entry q
          let e2 := { e with owner := cl % numClusters, home := e.home.map fun (h : Home) => { h with core := tout, ctx := y.val, wins := wins } }
          if q2 = q then s.setEntry q e2 else (s.setEntry q2 e2).setEntry q { e with st := .free, home := [] })

/-! ### Energy (R233 to R235) -/

/-- A charge in sixteenths of a pJ added to a count and its residue, saturating (R23). -/
def addCharge (cnt : BitVec 48) (res : BitVec 4) (n : Nat) : BitVec 48 × BitVec 4 × Bool :=
  let total := cnt.toNat * 16 + res.toNat + n
  if total / 16 < 2 ^ 48 then (BitVec.ofNat 48 (total / 16), BitVec.ofNat 4 (total % 16), false)
  else (BitVec.allOnes 48, 0xF, true)

/-- IDLE_CLK_CHARGE (R234): SP goes to ICNT when no context of the core holds issue. -/
def Core.idleCharge (k : Core) : Core :=
  if k.payer.isSome then k
  else let r := addCharge k.icnt k.ires k.spwr.toNat; { k with icnt := r.1, ires := r.2.1 }

/-- ECNT has passed the energy ceiling of the bind record (R235). -/
def Ctx.overBudget (c : Ctx) : Bool := c.bind.ebud != 0 && decide (c.bind.ebud.toNat < c.sys.ecnt.toNat)

/-- A context over its ceiling freezes between bundles (R235). -/
def State.budgetFreeze (s : State) (core : Nat) (x : Fin 4) : State :=
  let c := s.ctx core x
  if c.bound ∧ c.frozen = .none ∧ c.run.isNone ∧ c.overBudget then
    (s.setCtx core x { c with arrived := false, release := none }).takeTrap core x ((s.core core).boundaryOff x)
      ⟨0x281, 0, none, none⟩ c.pc
  else s

/-- ENERGY_BUDGET_FREEZE (R235). -/
def execEnergyBudgetFreeze (s : State) : Out := .next (s.budgetFreeze s.ev.core (ctxNo s.ev.ctx))

/-- FREEZE_REQUEST (R213, R218): Vizin asks for a context's freeze, and for its gang's. -/
def execFreezeRequest (s : State) : Out :=
  .next (if (s.ctx s.ev.core (ctxNo s.ev.ctx)).frozen = .none then s.freezeTask s.ev.core (ctxNo s.ev.ctx) .request else s)

end Sys2Proof.Machine
end

