-- ==== Sys2Proof/Machine/Scalar.lean ====
section
/-! DEFINITION. Scalar arithmetic, compares, predicate logic and select (R101 to R108): slots S0 and S1. -/

namespace Sys2Proof.Machine

/-- A scalar operation that writes s(d) with the value `f` of its operands, read at the first issue (R101). -/
def scalarOp (tg : Tag2) (cls : Fin 16) (lat : Nat) (d : BitVec 5) (f : State → Word) (s : State) : State :=
  (s.enter cls).gate (s.condS tg) fun t => t.putS (slotOf tg 0) lat d (f s)

/-- A compare or predicate operation that writes p(pd) at latency 1 (R106, R107). -/
def predOp (tg : Tag2) (pd : BitVec 3) (f : State → Bool) (s : State) : State :=
  (s.enter 0).gate (s.condS tg) fun t => t.putP (slotOf tg 0) 1 pd (f s)

/-- Leading zero bits of a word, 64 for 0 (R104). -/
def clzWord (w : Word) : Word := BitVec.ofNat 64 (if w = 0 then 64 else 63 - w.toNat.log2)
/-- One bits of a word (R104). -/
def popWord (w : Word) : Word := BitVec.ofNat 64 (((List.range 64).filter fun i => w.getLsbD i).length)
/-- Bits [127:64] of the signed product (R104). -/
def mulhWord (a b : Word) : Word := BitVec.ofInt 64 (a.toInt * b.toInt / 2 ^ 64)
/-- The signed minimum and maximum (R104). -/
def minWord (a b : Word) : Word := if BitVec.slt b a then b else a
def maxWord (a b : Word) : Word := if BitVec.slt a b then b else a
/-- A register shift count is s(b)[5:0] (R104). -/
def shiftCount (w : Word) : Nat := (w.extractLsb' 0 6).toNat

/-- s(d) := s(a) + s(b) (R104). -/
def actAdd (tg : Tag2) (d a b : BitVec 5) : State → State :=
  scalarOp tg 0 1 d fun s => s.rdS a + s.rdS b
/-- ADD (R104), issued alone. -/
def execAdd (tg : Tag2) (d a b : BitVec 5) (s : State) : Out :=
  .next (s.issueSyl (.add tg d a b) (slotOf tg 0) (fieldsOnly (.add tg d a b)) noFault (actAdd tg d a b))

/-- s(d) := s(a) - s(b) (R104). -/
def actSub (tg : Tag2) (d a b : BitVec 5) : State → State :=
  scalarOp tg 0 1 d fun s => s.rdS a - s.rdS b
/-- SUB (R104), issued alone. -/
def execSub (tg : Tag2) (d a b : BitVec 5) (s : State) : Out :=
  .next (s.issueSyl (.sub tg d a b) (slotOf tg 0) (fieldsOnly (.sub tg d a b)) noFault (actSub tg d a b))

/-- s(d) := Low 64 bits of s(a) × s(b) (R104). -/
def actMul (tg : Tag2) (d a b : BitVec 5) : State → State :=
  scalarOp tg 1 3 d fun s => s.rdS a * s.rdS b
/-- MUL (R104), issued alone. -/
def execMul (tg : Tag2) (d a b : BitVec 5) (s : State) : Out :=
  .next (s.issueSyl (.mul tg d a b) (slotOf tg 0) (fieldsOnly (.mul tg d a b)) noFault (actMul tg d a b))

/-- s(d) := High 64 bits of the signed 128-bit product (R104). -/
def actMulh (tg : Tag2) (d a b : BitVec 5) : State → State :=
  scalarOp tg 1 3 d fun s => mulhWord (s.rdS a) (s.rdS b)
/-- MULH (R104), issued alone. -/
def execMulh (tg : Tag2) (d a b : BitVec 5) (s : State) : Out :=
  .next (s.issueSyl (.mulh tg d a b) (slotOf tg 0) (fieldsOnly (.mulh tg d a b)) noFault (actMulh tg d a b))

/-- s(d) := Bitwise AND (R104). -/
def actAnd (tg : Tag2) (d a b : BitVec 5) : State → State :=
  scalarOp tg 0 1 d fun s => s.rdS a &&& s.rdS b
/-- AND (R104), issued alone. -/
def execAnd (tg : Tag2) (d a b : BitVec 5) (s : State) : Out :=
  .next (s.issueSyl (.and tg d a b) (slotOf tg 0) (fieldsOnly (.and tg d a b)) noFault (actAnd tg d a b))

/-- s(d) := Bitwise OR (R104). -/
def actOr (tg : Tag2) (d a b : BitVec 5) : State → State :=
  scalarOp tg 0 1 d fun s => s.rdS a ||| s.rdS b
/-- OR (R104), issued alone. -/
def execOr (tg : Tag2) (d a b : BitVec 5) (s : State) : Out :=
  .next (s.issueSyl (.or tg d a b) (slotOf tg 0) (fieldsOnly (.or tg d a b)) noFault (actOr tg d a b))

/-- s(d) := Bitwise XOR (R104). -/
def actXor (tg : Tag2) (d a b : BitVec 5) : State → State :=
  scalarOp tg 0 1 d fun s => s.rdS a ^^^ s.rdS b
/-- XOR (R104), issued alone. -/
def execXor (tg : Tag2) (d a b : BitVec 5) (s : State) : Out :=
  .next (s.issueSyl (.xor tg d a b) (slotOf tg 0) (fieldsOnly (.xor tg d a b)) noFault (actXor tg d a b))

/-- s(d) := s(a) AND NOT s(b) (R104). -/
def actAndn (tg : Tag2) (d a b : BitVec 5) : State → State :=
  scalarOp tg 0 1 d fun s => s.rdS a &&& ~~~ (s.rdS b)
/-- ANDN (R104), issued alone. -/
def execAndn (tg : Tag2) (d a b : BitVec 5) (s : State) : Out :=
  .next (s.issueSyl (.andn tg d a b) (slotOf tg 0) (fieldsOnly (.andn tg d a b)) noFault (actAndn tg d a b))

/-- s(d) := Shift left by s(b)[5:0] (R104). -/
def actShl (tg : Tag2) (d a b : BitVec 5) : State → State :=
  scalarOp tg 0 1 d fun s => s.rdS a <<< shiftCount (s.rdS b)
/-- SHL (R104), issued alone. -/
def execShl (tg : Tag2) (d a b : BitVec 5) (s : State) : Out :=
  .next (s.issueSyl (.shl tg d a b) (slotOf tg 0) (fieldsOnly (.shl tg d a b)) noFault (actShl tg d a b))

/-- s(d) := Logical shift right (R104). -/
def actShr (tg : Tag2) (d a b : BitVec 5) : State → State :=
  scalarOp tg 0 1 d fun s => s.rdS a >>> shiftCount (s.rdS b)
/-- SHR (R104), issued alone. -/
def execShr (tg : Tag2) (d a b : BitVec 5) (s : State) : Out :=
  .next (s.issueSyl (.shr tg d a b) (slotOf tg 0) (fieldsOnly (.shr tg d a b)) noFault (actShr tg d a b))

/-- s(d) := Arithmetic shift right (R104). -/
def actSra (tg : Tag2) (d a b : BitVec 5) : State → State :=
  scalarOp tg 0 1 d fun s => (s.rdS a).sshiftRight (shiftCount (s.rdS b))
/-- SRA (R104), issued alone. -/
def execSra (tg : Tag2) (d a b : BitVec 5) (s : State) : Out :=
  .next (s.issueSyl (.sra tg d a b) (slotOf tg 0) (fieldsOnly (.sra tg d a b)) noFault (actSra tg d a b))

/-- s(d) := the signed minimum (R104). -/
def actMin (tg : Tag2) (d a b : BitVec 5) : State → State :=
  scalarOp tg 0 1 d fun s => minWord (s.rdS a) (s.rdS b)
/-- MIN (R104), issued alone. -/
def execMin (tg : Tag2) (d a b : BitVec 5) (s : State) : Out :=
  .next (s.issueSyl (.min tg d a b) (slotOf tg 0) (fieldsOnly (.min tg d a b)) noFault (actMin tg d a b))

/-- s(d) := the signed maximum (R104). -/
def actMax (tg : Tag2) (d a b : BitVec 5) : State → State :=
  scalarOp tg 0 1 d fun s => maxWord (s.rdS a) (s.rdS b)
/-- MAX (R104), issued alone. -/
def execMax (tg : Tag2) (d a b : BitVec 5) (s : State) : Out :=
  .next (s.issueSyl (.max tg d a b) (slotOf tg 0) (fieldsOnly (.max tg d a b)) noFault (actMax tg d a b))

/-- s(d) := s(a) + sign-extended imm6 (R104). -/
def actAddi (tg : Tag2) (d a : BitVec 5) (imm : BitVec 6) : State → State :=
  scalarOp tg 0 1 d fun s => s.rdS a + immS imm
/-- ADDI (R104), issued alone. -/
def execAddi (tg : Tag2) (d a : BitVec 5) (imm : BitVec 6) (s : State) : Out :=
  .next (s.issueSyl (.addi tg d a imm) (slotOf tg 0) (fieldsOnly (.addi tg d a imm)) noFault (actAddi tg d a imm))

/-- s(d) := Low 64 bits of s(a) × imm6 (R104). -/
def actMuli (tg : Tag2) (d a : BitVec 5) (imm : BitVec 6) : State → State :=
  scalarOp tg 1 3 d fun s => s.rdS a * immS imm
/-- MULI (R104), issued alone. -/
def execMuli (tg : Tag2) (d a : BitVec 5) (imm : BitVec 6) (s : State) : Out :=
  .next (s.issueSyl (.muli tg d a imm) (slotOf tg 0) (fieldsOnly (.muli tg d a imm)) noFault (actMuli tg d a imm))

/-- s(d) := s(a) AND sign-extended imm6 (R104). -/
def actAndi (tg : Tag2) (d a : BitVec 5) (imm : BitVec 6) : State → State :=
  scalarOp tg 0 1 d fun s => s.rdS a &&& immS imm
/-- ANDI (R104), issued alone. -/
def execAndi (tg : Tag2) (d a : BitVec 5) (imm : BitVec 6) (s : State) : Out :=
  .next (s.issueSyl (.andi tg d a imm) (slotOf tg 0) (fieldsOnly (.andi tg d a imm)) noFault (actAndi tg d a imm))

/-- s(d) := s(a) OR sign-extended imm6 (R104). -/
def actOri (tg : Tag2) (d a : BitVec 5) (imm : BitVec 6) : State → State :=
  scalarOp tg 0 1 d fun s => s.rdS a ||| immS imm
/-- ORI (R104), issued alone. -/
def execOri (tg : Tag2) (d a : BitVec 5) (imm : BitVec 6) (s : State) : Out :=
  .next (s.issueSyl (.ori tg d a imm) (slotOf tg 0) (fieldsOnly (.ori tg d a imm)) noFault (actOri tg d a imm))

/-- s(d) := s(a) XOR sign-extended imm6 (R104). -/
def actXori (tg : Tag2) (d a : BitVec 5) (imm : BitVec 6) : State → State :=
  scalarOp tg 0 1 d fun s => s.rdS a ^^^ immS imm
/-- XORI (R104), issued alone. -/
def execXori (tg : Tag2) (d a : BitVec 5) (imm : BitVec 6) (s : State) : Out :=
  .next (s.issueSyl (.xori tg d a imm) (slotOf tg 0) (fieldsOnly (.xori tg d a imm)) noFault (actXori tg d a imm))

/-- s(d) := Shift left by an unsigned count (R104). -/
def actShli (tg : Tag2) (d a : BitVec 5) (imm : BitVec 6) : State → State :=
  scalarOp tg 0 1 d fun s => s.rdS a <<< imm.toNat
/-- SHLI (R104), issued alone. -/
def execShli (tg : Tag2) (d a : BitVec 5) (imm : BitVec 6) (s : State) : Out :=
  .next (s.issueSyl (.shli tg d a imm) (slotOf tg 0) (fieldsOnly (.shli tg d a imm)) noFault (actShli tg d a imm))

/-- s(d) := Logical shift right by an unsigned count (R104). -/
def actShri (tg : Tag2) (d a : BitVec 5) (imm : BitVec 6) : State → State :=
  scalarOp tg 0 1 d fun s => s.rdS a >>> imm.toNat
/-- SHRI (R104), issued alone. -/
def execShri (tg : Tag2) (d a : BitVec 5) (imm : BitVec 6) (s : State) : Out :=
  .next (s.issueSyl (.shri tg d a imm) (slotOf tg 0) (fieldsOnly (.shri tg d a imm)) noFault (actShri tg d a imm))

/-- s(d) := Arithmetic shift right by an unsigned count (R104). -/
def actSrai (tg : Tag2) (d a : BitVec 5) (imm : BitVec 6) : State → State :=
  scalarOp tg 0 1 d fun s => (s.rdS a).sshiftRight imm.toNat
/-- SRAI (R104), issued alone. -/
def execSrai (tg : Tag2) (d a : BitVec 5) (imm : BitVec 6) (s : State) : Out :=
  .next (s.issueSyl (.srai tg d a imm) (slotOf tg 0) (fieldsOnly (.srai tg d a imm)) noFault (actSrai tg d a imm))

/-- s(d) := s(a) + sign-extended literal (R105). -/
def actAddl (tg : Tag2) (d a : BitVec 5) (l : BitVec 4) : State → State :=
  scalarOp tg 0 1 d fun s => s.rdS a + immS (s.literal l.toNat)
/-- ADDL (R105), issued alone. -/
def execAddl (tg : Tag2) (d a : BitVec 5) (l : BitVec 4) (s : State) : Out :=
  .next (s.issueSyl (.addl tg d a l) (slotOf tg 0) (fieldsOnly (.addl tg d a l)) noFault (actAddl tg d a l))

/-- s(d) := s(a) + s(b) × 8 (R104). -/
def actAddx3 (tg : Tag2) (d a b : BitVec 5) : State → State :=
  scalarOp tg 0 1 d fun s => s.rdS a + s.rdS b * 8#64
/-- ADDX3 (R104), issued alone. -/
def execAddx3 (tg : Tag2) (d a b : BitVec 5) (s : State) : Out :=
  .next (s.issueSyl (.addx3 tg d a b) (slotOf tg 0) (fieldsOnly (.addx3 tg d a b)) noFault (actAddx3 tg d a b))

/-- s(d) := sign-extended imm11 (R105). -/
def actMovi (tg : Tag2) (d : BitVec 5) (imm : BitVec 11) : State → State :=
  scalarOp tg 0 1 d fun _ => immS imm
/-- MOVI (R105), issued alone. -/
def execMovi (tg : Tag2) (d : BitVec 5) (imm : BitVec 11) (s : State) : Out :=
  .next (s.issueSyl (.movi tg d imm) (slotOf tg 0) (fieldsOnly (.movi tg d imm)) noFault (actMovi tg d imm))

/-- s(d) := sign-extended literal (R105). -/
def actMovl (tg : Tag2) (d : BitVec 5) (l : BitVec 4) : State → State :=
  scalarOp tg 0 1 d fun s => immS (s.literal l.toNat)
/-- MOVL (R105), issued alone. -/
def execMovl (tg : Tag2) (d : BitVec 5) (l : BitVec 4) (s : State) : Out :=
  .next (s.issueSyl (.movl tg d l) (slotOf tg 0) (fieldsOnly (.movl tg d l)) noFault (actMovl tg d l))

/-- s(d) := literals L and L+1 as a 64-bit value (R105). -/
def actMovl64 (tg : Tag2) (d : BitVec 5) (l : BitVec 4) : State → State :=
  scalarOp tg 0 1 d fun s => s.literal (l.toNat + 1) ++ s.literal l.toNat
/-- MOVL64 (R105), issued alone. -/
def execMovl64 (tg : Tag2) (d : BitVec 5) (l : BitVec 4) (s : State) : Out :=
  .next (s.issueSyl (.movl64 tg d l) (slotOf tg 0) (fieldsOnly (.movl64 tg d l)) noFault (actMovl64 tg d l))

/-- s(d) := Count leading zeros of s(a) (R104). -/
def actClz (tg : Tag2) (d a : BitVec 5) : State → State :=
  scalarOp tg 0 1 d fun s => clzWord (s.rdS a)
/-- CLZ (R104), issued alone. -/
def execClz (tg : Tag2) (d a : BitVec 5) (s : State) : Out :=
  .next (s.issueSyl (.clz tg d a) (slotOf tg 0) (fieldsOnly (.clz tg d a)) noFault (actClz tg d a))

/-- s(d) := Count one bits of s(a) (R104). -/
def actPopc (tg : Tag2) (d a : BitVec 5) : State → State :=
  scalarOp tg 0 1 d fun s => popWord (s.rdS a)
/-- POPC (R104), issued alone. -/
def execPopc (tg : Tag2) (d a : BitVec 5) (s : State) : Out :=
  .next (s.issueSyl (.popc tg d a) (slotOf tg 0) (fieldsOnly (.popc tg d a)) noFault (actPopc tg d a))

/-- p(pd) := the compare of R106. -/
def actCmpeq (tg : Tag2) (pd : BitVec 3) (a b : BitVec 5) : State → State :=
  predOp tg pd fun s => SCmp.eval .eq (s.rdS a) (s.rdS b)
/-- CMPEQ (R106), issued alone. -/
def execCmpeq (tg : Tag2) (pd : BitVec 3) (a b : BitVec 5) (s : State) : Out :=
  .next (s.issueSyl (.cmpeq tg pd a b) (slotOf tg 0) (fieldsOnly (.cmpeq tg pd a b)) noFault (actCmpeq tg pd a b))

/-- p(pd) := the compare of R106. -/
def actCmpne (tg : Tag2) (pd : BitVec 3) (a b : BitVec 5) : State → State :=
  predOp tg pd fun s => SCmp.eval .ne (s.rdS a) (s.rdS b)
/-- CMPNE (R106), issued alone. -/
def execCmpne (tg : Tag2) (pd : BitVec 3) (a b : BitVec 5) (s : State) : Out :=
  .next (s.issueSyl (.cmpne tg pd a b) (slotOf tg 0) (fieldsOnly (.cmpne tg pd a b)) noFault (actCmpne tg pd a b))

/-- p(pd) := the compare of R106. -/
def actCmplt (tg : Tag2) (pd : BitVec 3) (a b : BitVec 5) : State → State :=
  predOp tg pd fun s => SCmp.eval .lt (s.rdS a) (s.rdS b)
/-- CMPLT (R106), issued alone. -/
def execCmplt (tg : Tag2) (pd : BitVec 3) (a b : BitVec 5) (s : State) : Out :=
  .next (s.issueSyl (.cmplt tg pd a b) (slotOf tg 0) (fieldsOnly (.cmplt tg pd a b)) noFault (actCmplt tg pd a b))

/-- p(pd) := the compare of R106. -/
def actCmpge (tg : Tag2) (pd : BitVec 3) (a b : BitVec 5) : State → State :=
  predOp tg pd fun s => SCmp.eval .ge (s.rdS a) (s.rdS b)
/-- CMPGE (R106), issued alone. -/
def execCmpge (tg : Tag2) (pd : BitVec 3) (a b : BitVec 5) (s : State) : Out :=
  .next (s.issueSyl (.cmpge tg pd a b) (slotOf tg 0) (fieldsOnly (.cmpge tg pd a b)) noFault (actCmpge tg pd a b))

/-- p(pd) := the compare of R106. -/
def actCmpltu (tg : Tag2) (pd : BitVec 3) (a b : BitVec 5) : State → State :=
  predOp tg pd fun s => SCmp.eval .ltu (s.rdS a) (s.rdS b)
/-- CMPLTU (R106), issued alone. -/
def execCmpltu (tg : Tag2) (pd : BitVec 3) (a b : BitVec 5) (s : State) : Out :=
  .next (s.issueSyl (.cmpltu tg pd a b) (slotOf tg 0) (fieldsOnly (.cmpltu tg pd a b)) noFault (actCmpltu tg pd a b))

/-- p(pd) := the compare of R106. -/
def actCmpgeu (tg : Tag2) (pd : BitVec 3) (a b : BitVec 5) : State → State :=
  predOp tg pd fun s => SCmp.eval .geu (s.rdS a) (s.rdS b)
/-- CMPGEU (R106), issued alone. -/
def execCmpgeu (tg : Tag2) (pd : BitVec 3) (a b : BitVec 5) (s : State) : Out :=
  .next (s.issueSyl (.cmpgeu tg pd a b) (slotOf tg 0) (fieldsOnly (.cmpgeu tg pd a b)) noFault (actCmpgeu tg pd a b))

/-- p(pd) := the compare of R106. -/
def actCmpeqi (tg : Tag2) (pd : BitVec 3) (a : BitVec 5) (imm : BitVec 8) : State → State :=
  predOp tg pd fun s => SCmp.eval .eq (s.rdS a) (immS imm)
/-- CMPEQI (R106), issued alone. -/
def execCmpeqi (tg : Tag2) (pd : BitVec 3) (a : BitVec 5) (imm : BitVec 8) (s : State) : Out :=
  .next (s.issueSyl (.cmpeqi tg pd a imm) (slotOf tg 0) (fieldsOnly (.cmpeqi tg pd a imm)) noFault (actCmpeqi tg pd a imm))

/-- p(pd) := the compare of R106. -/
def actCmplti (tg : Tag2) (pd : BitVec 3) (a : BitVec 5) (imm : BitVec 8) : State → State :=
  predOp tg pd fun s => SCmp.eval .lt (s.rdS a) (immS imm)
/-- CMPLTI (R106), issued alone. -/
def execCmplti (tg : Tag2) (pd : BitVec 3) (a : BitVec 5) (imm : BitVec 8) (s : State) : Out :=
  .next (s.issueSyl (.cmplti tg pd a imm) (slotOf tg 0) (fieldsOnly (.cmplti tg pd a imm)) noFault (actCmplti tg pd a imm))

/-- p(pd) := the compare of R106. -/
def actCmpltui (tg : Tag2) (pd : BitVec 3) (a : BitVec 5) (imm : BitVec 8) : State → State :=
  predOp tg pd fun s => SCmp.eval .ltu (s.rdS a) (immU imm)
/-- CMPLTUI (R106), issued alone. -/
def execCmpltui (tg : Tag2) (pd : BitVec 3) (a : BitVec 5) (imm : BitVec 8) (s : State) : Out :=
  .next (s.issueSyl (.cmpltui tg pd a imm) (slotOf tg 0) (fieldsOnly (.cmpltui tg pd a imm)) noFault (actCmpltui tg pd a imm))

/-- p(pd) := (p(pa) XOR na) op (p(pb) XOR nb) (R107). -/
def actPand (tg : Tag2) (pd pa pb : BitVec 3) (na nb : BitVec 1) : State → State :=
  predOp tg pd fun s => POp.eval .and (s.rdP pa != (na == 1)) (s.rdP pb != (nb == 1))
/-- PAND (R107), issued alone. -/
def execPand (tg : Tag2) (pd pa pb : BitVec 3) (na nb : BitVec 1) (s : State) : Out :=
  .next (s.issueSyl (.pand tg pd pa pb na nb) (slotOf tg 0) (fieldsOnly (.pand tg pd pa pb na nb)) noFault (actPand tg pd pa pb na nb))

/-- p(pd) := (p(pa) XOR na) op (p(pb) XOR nb) (R107). -/
def actPor (tg : Tag2) (pd pa pb : BitVec 3) (na nb : BitVec 1) : State → State :=
  predOp tg pd fun s => POp.eval .or (s.rdP pa != (na == 1)) (s.rdP pb != (nb == 1))
/-- POR (R107), issued alone. -/
def execPor (tg : Tag2) (pd pa pb : BitVec 3) (na nb : BitVec 1) (s : State) : Out :=
  .next (s.issueSyl (.por tg pd pa pb na nb) (slotOf tg 0) (fieldsOnly (.por tg pd pa pb na nb)) noFault (actPor tg pd pa pb na nb))

/-- p(pd) := (p(pa) XOR na) op (p(pb) XOR nb) (R107). -/
def actPxor (tg : Tag2) (pd pa pb : BitVec 3) (na nb : BitVec 1) : State → State :=
  predOp tg pd fun s => POp.eval .xor (s.rdP pa != (na == 1)) (s.rdP pb != (nb == 1))
/-- PXOR (R107), issued alone. -/
def execPxor (tg : Tag2) (pd pa pb : BitVec 3) (na nb : BitVec 1) (s : State) : Out :=
  .next (s.issueSyl (.pxor tg pd pa pb na nb) (slotOf tg 0) (fieldsOnly (.pxor tg pd pa pb na nb)) noFault (actPxor tg pd pa pb na nb))

/-- SEL always issues: s(d) := cond ? s(a) : s(b) (R108). -/
def actSel (tg : Tag2) (d a b : BitVec 5) : State → State :=
  fun s => (s.enter 0).putS (slotOf tg 0) 1 d (if s.condS tg then s.rdS a else s.rdS b)
/-- SEL (R108), issued alone. -/
def execSel (tg : Tag2) (d a b : BitVec 5) (s : State) : Out :=
  .next (s.issueSyl (.sel tg d a b) (slotOf tg 0) (fieldsOnly (.sel tg d a b)) noFault (actSel tg d a b))

/-- NOP does nothing and is charged nothing (R90, R233). -/
def actNop (_tg : TagAny) : State → State := fun s => s
/-- NOP (R90), issued alone. -/
def execNop (tg : TagAny) (s : State) : Out :=
  .next (s.issueSyl (.nop tg) tg.slot.toNat (fieldsOnly (.nop tg)) (nopFault tg) (actNop tg))

end Sys2Proof.Machine
end

