-- ==== Sys2Proof/Machine/Syllables.lean ====
section
/-! DEFINITION. What a bundle issues of each syllable: the slot, the illegal-syllable and issue-time checks, and the effect
that the instruction's own meaning gives it. -/

namespace Sys2Proof.Machine

/-- An instruction as a bundle issues it. -/
structure Syl where
  slot  : Nat
  legal : State → Bool
  chk   : State → Option Trap
  act   : State → State

/-- The syllable of an instruction; none of the machine's other steps. -/
def sylOf (i : Instr) : Option Syl :=
  match i with
  | .nop tg => some ⟨tg.slot.toNat, (fieldsOnly (.nop tg)), (nopFault tg), (actNop tg)⟩
  | .add tg d a b => some ⟨(slotOf tg 0), (fieldsOnly (.add tg d a b)), noFault, (actAdd tg d a b)⟩
  | .sub tg d a b => some ⟨(slotOf tg 0), (fieldsOnly (.sub tg d a b)), noFault, (actSub tg d a b)⟩
  | .mul tg d a b => some ⟨(slotOf tg 0), (fieldsOnly (.mul tg d a b)), noFault, (actMul tg d a b)⟩
  | .mulh tg d a b => some ⟨(slotOf tg 0), (fieldsOnly (.mulh tg d a b)), noFault, (actMulh tg d a b)⟩
  | .and tg d a b => some ⟨(slotOf tg 0), (fieldsOnly (.and tg d a b)), noFault, (actAnd tg d a b)⟩
  | .or tg d a b => some ⟨(slotOf tg 0), (fieldsOnly (.or tg d a b)), noFault, (actOr tg d a b)⟩
  | .xor tg d a b => some ⟨(slotOf tg 0), (fieldsOnly (.xor tg d a b)), noFault, (actXor tg d a b)⟩
  | .andn tg d a b => some ⟨(slotOf tg 0), (fieldsOnly (.andn tg d a b)), noFault, (actAndn tg d a b)⟩
  | .shl tg d a b => some ⟨(slotOf tg 0), (fieldsOnly (.shl tg d a b)), noFault, (actShl tg d a b)⟩
  | .shr tg d a b => some ⟨(slotOf tg 0), (fieldsOnly (.shr tg d a b)), noFault, (actShr tg d a b)⟩
  | .sra tg d a b => some ⟨(slotOf tg 0), (fieldsOnly (.sra tg d a b)), noFault, (actSra tg d a b)⟩
  | .min tg d a b => some ⟨(slotOf tg 0), (fieldsOnly (.min tg d a b)), noFault, (actMin tg d a b)⟩
  | .max tg d a b => some ⟨(slotOf tg 0), (fieldsOnly (.max tg d a b)), noFault, (actMax tg d a b)⟩
  | .addi tg d a imm => some ⟨(slotOf tg 0), (fieldsOnly (.addi tg d a imm)), noFault, (actAddi tg d a imm)⟩
  | .muli tg d a imm => some ⟨(slotOf tg 0), (fieldsOnly (.muli tg d a imm)), noFault, (actMuli tg d a imm)⟩
  | .andi tg d a imm => some ⟨(slotOf tg 0), (fieldsOnly (.andi tg d a imm)), noFault, (actAndi tg d a imm)⟩
  | .ori tg d a imm => some ⟨(slotOf tg 0), (fieldsOnly (.ori tg d a imm)), noFault, (actOri tg d a imm)⟩
  | .xori tg d a imm => some ⟨(slotOf tg 0), (fieldsOnly (.xori tg d a imm)), noFault, (actXori tg d a imm)⟩
  | .shli tg d a imm => some ⟨(slotOf tg 0), (fieldsOnly (.shli tg d a imm)), noFault, (actShli tg d a imm)⟩
  | .shri tg d a imm => some ⟨(slotOf tg 0), (fieldsOnly (.shri tg d a imm)), noFault, (actShri tg d a imm)⟩
  | .srai tg d a imm => some ⟨(slotOf tg 0), (fieldsOnly (.srai tg d a imm)), noFault, (actSrai tg d a imm)⟩
  | .addl tg d a l => some ⟨(slotOf tg 0), (fieldsOnly (.addl tg d a l)), noFault, (actAddl tg d a l)⟩
  | .addx3 tg d a b => some ⟨(slotOf tg 0), (fieldsOnly (.addx3 tg d a b)), noFault, (actAddx3 tg d a b)⟩
  | .movi tg d imm => some ⟨(slotOf tg 0), (fieldsOnly (.movi tg d imm)), noFault, (actMovi tg d imm)⟩
  | .movl tg d l => some ⟨(slotOf tg 0), (fieldsOnly (.movl tg d l)), noFault, (actMovl tg d l)⟩
  | .movl64 tg d l => some ⟨(slotOf tg 0), (fieldsOnly (.movl64 tg d l)), noFault, (actMovl64 tg d l)⟩
  | .clz tg d a => some ⟨(slotOf tg 0), (fieldsOnly (.clz tg d a)), noFault, (actClz tg d a)⟩
  | .popc tg d a => some ⟨(slotOf tg 0), (fieldsOnly (.popc tg d a)), noFault, (actPopc tg d a)⟩
  | .cmpeq tg pd a b => some ⟨(slotOf tg 0), (fieldsOnly (.cmpeq tg pd a b)), noFault, (actCmpeq tg pd a b)⟩
  | .cmpne tg pd a b => some ⟨(slotOf tg 0), (fieldsOnly (.cmpne tg pd a b)), noFault, (actCmpne tg pd a b)⟩
  | .cmplt tg pd a b => some ⟨(slotOf tg 0), (fieldsOnly (.cmplt tg pd a b)), noFault, (actCmplt tg pd a b)⟩
  | .cmpge tg pd a b => some ⟨(slotOf tg 0), (fieldsOnly (.cmpge tg pd a b)), noFault, (actCmpge tg pd a b)⟩
  | .cmpltu tg pd a b => some ⟨(slotOf tg 0), (fieldsOnly (.cmpltu tg pd a b)), noFault, (actCmpltu tg pd a b)⟩
  | .cmpgeu tg pd a b => some ⟨(slotOf tg 0), (fieldsOnly (.cmpgeu tg pd a b)), noFault, (actCmpgeu tg pd a b)⟩
  | .cmpeqi tg pd a imm => some ⟨(slotOf tg 0), (fieldsOnly (.cmpeqi tg pd a imm)), noFault, (actCmpeqi tg pd a imm)⟩
  | .cmplti tg pd a imm => some ⟨(slotOf tg 0), (fieldsOnly (.cmplti tg pd a imm)), noFault, (actCmplti tg pd a imm)⟩
  | .cmpltui tg pd a imm => some ⟨(slotOf tg 0), (fieldsOnly (.cmpltui tg pd a imm)), noFault, (actCmpltui tg pd a imm)⟩
  | .pand tg pd pa pb na nb =>
      some ⟨(slotOf tg 0), (fieldsOnly (.pand tg pd pa pb na nb)), noFault, (actPand tg pd pa pb na nb)⟩
  | .por tg pd pa pb na nb => some ⟨(slotOf tg 0), (fieldsOnly (.por tg pd pa pb na nb)), noFault, (actPor tg pd pa pb na nb)⟩
  | .pxor tg pd pa pb na nb =>
      some ⟨(slotOf tg 0), (fieldsOnly (.pxor tg pd pa pb na nb)), noFault, (actPxor tg pd pa pb na nb)⟩
  | .sel tg d a b => some ⟨(slotOf tg 0), (fieldsOnly (.sel tg d a b)), noFault, (actSel tg d a b)⟩
  | .br tg off => some ⟨(slotOf tg 0), (fieldsOnly (.br tg off)), noFault, (actBr tg off)⟩
  | .call tg off => some ⟨(slotOf tg 0), (fieldsOnly (.call tg off)), noFault, (actCall tg off)⟩
  | .jr tg a => some ⟨(slotOf tg 0), (fieldsOnly (.jr tg a)), noFault, (actJr tg a)⟩
  | .callr tg a => some ⟨(slotOf tg 0), (fieldsOnly (.callr tg a)), noFault, (actCallr tg a)⟩
  | .ret tg => some ⟨(slotOf tg 0), (fieldsOnly (.ret tg)), noFault, (actRet tg)⟩
  | .brl tg l => some ⟨(slotOf tg 0), (fun s => (s.literal l.toNat).extractLsb' 0 2 == 0), noFault, (actBrl tg l)⟩
  | .loop tg ns a => some ⟨(slotOf tg 0), (fieldsOnly (.loop tg ns a)), (loopFault a ns), (actLoop tg ns a)⟩
  | .sync tg => some ⟨(slotOf tg 0), (fieldsOnly (.sync tg)), syncFault, (actSync tg)⟩
  | .kwait tg ka kb => some ⟨(slotOf tg 0), (fieldsOnly (.kwait tg ka kb)), (kwaitFault tg ka kb), (actKwait tg ka kb)⟩
  | .trap tg code => some ⟨(slotOf tg 0), (fieldsOnly (.trap tg code)), noFault, (actTrap tg code)⟩
  | .eret tg => some ⟨(slotOf tg 0), (fieldsOnly (.eret tg)), eretFault, (actEret tg)⟩
  | .yield tg => some ⟨(slotOf tg 0), (fieldsOnly (.yield tg)), noFault, (actYield tg)⟩
  | .tend tg => some ⟨(slotOf tg 0), (fieldsOnly (.tend tg)), (tendFault tg), (actTend tg)⟩
  | .mfsr tg d sr => some ⟨(slotOf tg 0), (fieldsOnly (.mfsr tg d sr)), (srFault sr), (actMfsr tg d sr)⟩
  | .mtsr tg d sr => some ⟨(slotOf tg 0), (fieldsOnly (.mtsr tg d sr)), (mtsrFault d sr), (actMtsr tg d sr)⟩
  | .rden tg d => some ⟨(slotOf tg 0), (fieldsOnly (.rden tg d)), noFault, (actRden tg d)⟩
  | .rand tg d => some ⟨(slotOf tg 0), (fieldsOnly (.rand tg d)), State.seedFault, (actRand tg d)⟩
  | .seedreq tg d kd => some ⟨(slotOf tg 0), (fieldsOnly (.seedreq tg d kd)), flightFault, (actSeedreq tg d kd)⟩
  | .vaddF32 tg d a b => some ⟨(slotOf tg 2), (fieldsOnly (.vaddF32 tg d a b)), State.roundFault, (actVaddF32 tg d a b)⟩
  | .vsubF32 tg d a b => some ⟨(slotOf tg 2), (fieldsOnly (.vsubF32 tg d a b)), State.roundFault, (actVsubF32 tg d a b)⟩
  | .vmulF32 tg d a b => some ⟨(slotOf tg 2), (fieldsOnly (.vmulF32 tg d a b)), State.roundFault, (actVmulF32 tg d a b)⟩
  | .vfmaF32 tg d a b => some ⟨(slotOf tg 2), (fieldsOnly (.vfmaF32 tg d a b)), State.roundFault, (actVfmaF32 tg d a b)⟩
  | .vminF32 tg d a b => some ⟨(slotOf tg 2), (fieldsOnly (.vminF32 tg d a b)), noFault, (actVminF32 tg d a b)⟩
  | .vmaxF32 tg d a b => some ⟨(slotOf tg 2), (fieldsOnly (.vmaxF32 tg d a b)), noFault, (actVmaxF32 tg d a b)⟩
  | .vaddBf16 tg d a b => some ⟨(slotOf tg 2), (fieldsOnly (.vaddBf16 tg d a b)), State.roundFault, (actVaddBf16 tg d a b)⟩
  | .vsubBf16 tg d a b => some ⟨(slotOf tg 2), (fieldsOnly (.vsubBf16 tg d a b)), State.roundFault, (actVsubBf16 tg d a b)⟩
  | .vmulBf16 tg d a b => some ⟨(slotOf tg 2), (fieldsOnly (.vmulBf16 tg d a b)), State.roundFault, (actVmulBf16 tg d a b)⟩
  | .vfmaBf16 tg d a b => some ⟨(slotOf tg 2), (fieldsOnly (.vfmaBf16 tg d a b)), State.roundFault, (actVfmaBf16 tg d a b)⟩
  | .vminBf16 tg d a b => some ⟨(slotOf tg 2), (fieldsOnly (.vminBf16 tg d a b)), noFault, (actVminBf16 tg d a b)⟩
  | .vmaxBf16 tg d a b => some ⟨(slotOf tg 2), (fieldsOnly (.vmaxBf16 tg d a b)), noFault, (actVmaxBf16 tg d a b)⟩
  | .vaddF16 tg d a b => some ⟨(slotOf tg 2), (fieldsOnly (.vaddF16 tg d a b)), State.roundFault, (actVaddF16 tg d a b)⟩
  | .vmulF16 tg d a b => some ⟨(slotOf tg 2), (fieldsOnly (.vmulF16 tg d a b)), State.roundFault, (actVmulF16 tg d a b)⟩
  | .vfmaF16 tg d a b => some ⟨(slotOf tg 2), (fieldsOnly (.vfmaF16 tg d a b)), State.roundFault, (actVfmaF16 tg d a b)⟩
  | .vaddI32 tg d a b => some ⟨(slotOf tg 2), (fieldsOnly (.vaddI32 tg d a b)), noFault, (actVaddI32 tg d a b)⟩
  | .vsubI32 tg d a b => some ⟨(slotOf tg 2), (fieldsOnly (.vsubI32 tg d a b)), noFault, (actVsubI32 tg d a b)⟩
  | .vmulI32 tg d a b => some ⟨(slotOf tg 2), (fieldsOnly (.vmulI32 tg d a b)), noFault, (actVmulI32 tg d a b)⟩
  | .vaddsI32 tg d a b => some ⟨(slotOf tg 2), (fieldsOnly (.vaddsI32 tg d a b)), noFault, (actVaddsI32 tg d a b)⟩
  | .vminI32 tg d a b => some ⟨(slotOf tg 2), (fieldsOnly (.vminI32 tg d a b)), noFault, (actVminI32 tg d a b)⟩
  | .vmaxI32 tg d a b => some ⟨(slotOf tg 2), (fieldsOnly (.vmaxI32 tg d a b)), noFault, (actVmaxI32 tg d a b)⟩
  | .vaddI16 tg d a b => some ⟨(slotOf tg 2), (fieldsOnly (.vaddI16 tg d a b)), noFault, (actVaddI16 tg d a b)⟩
  | .vsubI16 tg d a b => some ⟨(slotOf tg 2), (fieldsOnly (.vsubI16 tg d a b)), noFault, (actVsubI16 tg d a b)⟩
  | .vmulI16 tg d a b => some ⟨(slotOf tg 2), (fieldsOnly (.vmulI16 tg d a b)), noFault, (actVmulI16 tg d a b)⟩
  | .vaddsI16 tg d a b => some ⟨(slotOf tg 2), (fieldsOnly (.vaddsI16 tg d a b)), noFault, (actVaddsI16 tg d a b)⟩
  | .vaddI8 tg d a b => some ⟨(slotOf tg 2), (fieldsOnly (.vaddI8 tg d a b)), noFault, (actVaddI8 tg d a b)⟩
  | .vsubI8 tg d a b => some ⟨(slotOf tg 2), (fieldsOnly (.vsubI8 tg d a b)), noFault, (actVsubI8 tg d a b)⟩
  | .vaddsI8 tg d a b => some ⟨(slotOf tg 2), (fieldsOnly (.vaddsI8 tg d a b)), noFault, (actVaddsI8 tg d a b)⟩
  | .vcmpeqF32 tg md a b => some ⟨(slotOf tg 2), (fieldsOnly (.vcmpeqF32 tg md a b)), noFault, (actVcmpeqF32 tg md a b)⟩
  | .vcmpltF32 tg md a b => some ⟨(slotOf tg 2), (fieldsOnly (.vcmpltF32 tg md a b)), noFault, (actVcmpltF32 tg md a b)⟩
  | .vcmpleF32 tg md a b => some ⟨(slotOf tg 2), (fieldsOnly (.vcmpleF32 tg md a b)), noFault, (actVcmpleF32 tg md a b)⟩
  | .vcmpeqI32 tg md a b => some ⟨(slotOf tg 2), (fieldsOnly (.vcmpeqI32 tg md a b)), noFault, (actVcmpeqI32 tg md a b)⟩
  | .vcmpltI32 tg md a b => some ⟨(slotOf tg 2), (fieldsOnly (.vcmpltI32 tg md a b)), noFault, (actVcmpltI32 tg md a b)⟩
  | .vcmpleI32 tg md a b => some ⟨(slotOf tg 2), (fieldsOnly (.vcmpleI32 tg md a b)), noFault, (actVcmpleI32 tg md a b)⟩
  | .vmand tg md ma mb => some ⟨(slotOf tg 2), (fieldsOnly (.vmand tg md ma mb)), noFault, (actVmand tg md ma mb)⟩
  | .vmor tg md ma mb => some ⟨(slotOf tg 2), (fieldsOnly (.vmor tg md ma mb)), noFault, (actVmor tg md ma mb)⟩
  | .vmxor tg md ma mb => some ⟨(slotOf tg 2), (fieldsOnly (.vmxor tg md ma mb)), noFault, (actVmxor tg md ma mb)⟩
  | .vmovm tg md a => some ⟨(slotOf tg 2), (fieldsOnly (.vmovm tg md a)), noFault, (actVmovm tg md a)⟩
  | .vsel tg d a b => some ⟨(slotOf tg 2), (fieldsOnly (.vsel tg d a b)), noFault, (actVsel tg d a b)⟩
  | .vand tg d a b => some ⟨(slotOf tg 2), (fieldsOnly (.vand tg d a b)), noFault, (actVand tg d a b)⟩
  | .vor tg d a b => some ⟨(slotOf tg 2), (fieldsOnly (.vor tg d a b)), noFault, (actVor tg d a b)⟩
  | .vxor tg d a b => some ⟨(slotOf tg 2), (fieldsOnly (.vxor tg d a b)), noFault, (actVxor tg d a b)⟩
  | .vshlI32 tg d a b => some ⟨(slotOf tg 2), (fieldsOnly (.vshlI32 tg d a b)), noFault, (actVshlI32 tg d a b)⟩
  | .vshrI32 tg d a b => some ⟨(slotOf tg 2), (fieldsOnly (.vshrI32 tg d a b)), noFault, (actVshrI32 tg d a b)⟩
  | .vsraI32 tg d a b => some ⟨(slotOf tg 2), (fieldsOnly (.vsraI32 tg d a b)), noFault, (actVsraI32 tg d a b)⟩
  | .vcvt tg d a sf df => some ⟨(slotOf tg 2), (fieldsOnly (.vcvt tg d a sf df)), State.roundFault, (actVcvt tg d a sf df)⟩
  | .vcvtSr tg d a sf df => some ⟨(slotOf tg 2), (fieldsOnly (.vcvtSr tg d a sf df)), State.seedFault, (actVcvtSr tg d a sf df)⟩
  | .vpack tg d a f => some ⟨(slotOf tg 2), (fieldsOnly (.vpack tg d a f)), State.roundFault, (actVpack tg d a f)⟩
  | .vunpk tg d a f => some ⟨(slotOf tg 2), (fieldsOnly (.vunpk tg d a f)), noFault, (actVunpk tg d a f)⟩
  | .vredAddF32 tg d a => some ⟨(slotOf tg 2), (fieldsOnly (.vredAddF32 tg d a)), noFault, (actVredAddF32 tg d a)⟩
  | .vredMinF32 tg d a => some ⟨(slotOf tg 2), (fieldsOnly (.vredMinF32 tg d a)), noFault, (actVredMinF32 tg d a)⟩
  | .vredMaxF32 tg d a => some ⟨(slotOf tg 2), (fieldsOnly (.vredMaxF32 tg d a)), noFault, (actVredMaxF32 tg d a)⟩
  | .vredAddI32 tg d a => some ⟨(slotOf tg 2), (fieldsOnly (.vredAddI32 tg d a)), noFault, (actVredAddI32 tg d a)⟩
  | .vscanAddF32 tg d a => some ⟨(slotOf tg 2), (fieldsOnly (.vscanAddF32 tg d a)), noFault, (actVscanAddF32 tg d a)⟩
  | .vscanAddI32 tg d a => some ⟨(slotOf tg 2), (fieldsOnly (.vscanAddI32 tg d a)), noFault, (actVscanAddI32 tg d a)⟩
  | .vperm tg d a b => some ⟨(slotOf tg 2), (fieldsOnly (.vperm tg d a b)), noFault, (actVperm tg d a b)⟩
  | .vbcast tg d a imm => some ⟨(slotOf tg 2), (fieldsOnly (.vbcast tg d a imm)), noFault, (actVbcast tg d a imm)⟩
  | .vsplat tg d a => some ⟨(slotOf tg 2), (fieldsOnly (.vsplat tg d a)), noFault, (actVsplat tg d a)⟩
  | .vpart tg d ma sd => some ⟨(slotOf tg 2), (fieldsOnly (.vpart tg d ma sd)), noFault, (actVpart tg d ma sd)⟩
  | .vexp2 tg d a => some ⟨(slotOf tg 2), (fieldsOnly (.vexp2 tg d a)), noFault, (actVexp2 tg d a)⟩
  | .vlog2 tg d a => some ⟨(slotOf tg 2), (fieldsOnly (.vlog2 tg d a)), noFault, (actVlog2 tg d a)⟩
  | .vrcp tg d a => some ⟨(slotOf tg 2), (fieldsOnly (.vrcp tg d a)), noFault, (actVrcp tg d a)⟩
  | .vrsq tg d a => some ⟨(slotOf tg 2), (fieldsOnly (.vrsq tg d a)), noFault, (actVrsq tg d a)⟩
  | .vrand tg d => some ⟨(slotOf tg 2), (fieldsOnly (.vrand tg d)), State.seedFault, (actVrand tg d)⟩
  | .vld tg d w a => some ⟨(slotOf tg 4), (fieldsOnly (.vld tg d w a)), (lmFault .vld tg w a), (actVld tg d w a)⟩
  | .vst tg d w a => some ⟨(slotOf tg 4), (fieldsOnly (.vst tg d w a)), (lmFault .vst tg w a), (actVst tg d w a)⟩
  | .sld tg d w a => some ⟨(slotOf tg 4), (fieldsOnly (.sld tg d w a)), (lmFault .sld tg w a), (actSld tg d w a)⟩
  | .sst tg d w a => some ⟨(slotOf tg 4), (fieldsOnly (.sst tg d w a)), (lmFault .sst tg w a), (actSst tg d w a)⟩
  | .sldd tg d w a => some ⟨(slotOf tg 4), (fieldsOnly (.sldd tg d w a)), (lmFault .sldd tg w a), (actSldd tg d w a)⟩
  | .sstd tg d w a => some ⟨(slotOf tg 4), (fieldsOnly (.sstd tg d w a)), (lmFault .sstd tg w a), (actSstd tg d w a)⟩
  | .vlds tg d w a l => some ⟨(slotOf tg 4), (fieldsOnly (.vlds tg d w a l)), (lmlFault .vlds tg w a l), (actVlds tg d w a l)⟩
  | .vsts tg d w a l => some ⟨(slotOf tg 4), (fieldsOnly (.vsts tg d w a l)), (lmlFault .vsts tg w a l), (actVsts tg d w a l)⟩
  | .vldg tg d w vi => some ⟨(slotOf tg 4), (fieldsOnly (.vldg tg d w vi)), (lgFault .vldg w vi), (actVldg tg d w vi)⟩
  | .vstg tg d w vi => some ⟨(slotOf tg 4), (fieldsOnly (.vstg tg d w vi)), (lgFault .vstg w vi), (actVstg tg d w vi)⟩
  | .vldm tg md w a => some ⟨(slotOf tg 4), (fieldsOnly (.vldm tg md w a)), (lmFault .vldm tg w a), (actVldm tg md w a)⟩
  | .vstm tg d w a mk => some ⟨(slotOf tg 4), (fieldsOnly (.vstm tg d w a mk)), (lmFault .vstm tg w a), (actVstm tg d w a mk)⟩
  | .aadd tg d w a => some ⟨(slotOf tg 4), (fieldsOnly (.aadd tg d w a)), (lmFault .aadd tg w a), (actAadd tg d w a)⟩
  | .aaddF32 tg d w a => some ⟨(slotOf tg 4), (fieldsOnly (.aaddF32 tg d w a)), (lmFault .aaddF tg w a), (actAaddF32 tg d w a)⟩
  | .amin tg d w a => some ⟨(slotOf tg 4), (fieldsOnly (.amin tg d w a)), (lmFault .amin tg w a), (actAmin tg d w a)⟩
  | .amax tg d w a => some ⟨(slotOf tg 4), (fieldsOnly (.amax tg d w a)), (lmFault .amax tg w a), (actAmax tg d w a)⟩
  | .axchg tg d w a => some ⟨(slotOf tg 4), (fieldsOnly (.axchg tg d w a)), (lmFault .axchg tg w a), (actAxchg tg d w a)⟩
  | .acas tg d w a => some ⟨(slotOf tg 4), (fieldsOnly (.acas tg d w a)), (lmFault .acas tg w a), (actAcas tg d w a)⟩
  | .pfxld tg d w a => some ⟨(slotOf tg 4), (fieldsOnly (.pfxld tg d w a)), (lmFault .pfxld tg w a), (actPfxld tg d w a)⟩
  | .mcfg tg cr a => some ⟨6, (fieldsOnly (.mcfg tg cr a)), matrixFault, (actMcfg tg cr a)⟩
  | .mcfgl tg cr l => some ⟨6, (fieldsOnly (.mcfgl tg cr l)), matrixFault, (actMcfgl tg cr l)⟩
  | .mnest tg => some ⟨6, (fieldsOnly (.mnest tg)), nestFault, (actMnest tg)⟩
  | .accinit tg t a => some ⟨6, (fieldsOnly (.accinit tg t a)), (tileFault [t]), (actAccinit tg t a)⟩
  | .accinitU tg t => some ⟨6, (fieldsOnly (.accinitU tg t)), (tileFault [t]), (actAccinitU tg t)⟩
  | .accnorm tg t a => some ⟨6, (fieldsOnly (.accnorm tg t a)), (tileFault [t]), (actAccnorm tg t a)⟩
  | .accnormRow tg t a => some ⟨6, (fieldsOnly (.accnormRow tg t a)), (tileFault [t]), (actAccnormRow tg t a)⟩
  | .accrd tg d t a f => some ⟨6, (fieldsOnly (.accrd tg d t a f)), (tileFault [t]), (actAccrd tg d t a f)⟩
  | .accwr tg d t a f => some ⟨6, (fieldsOnly (.accwr tg d t a f)), (tileFault [t]), (actAccwr tg d t a f)⟩
  | .accscale tg t a => some ⟨6, (fieldsOnly (.accscale tg t a)), (tileFault [t]), (actAccscale tg t a)⟩
  | .accscaleRow tg t a => some ⟨6, (fieldsOnly (.accscaleRow tg t a)), (tileFault [t]), (actAccscaleRow tg t a)⟩
  | .msmx tg ts tout w a => some ⟨6, (fieldsOnly (.msmx tg ts tout w a)), (softmaxFault ts tout w a), (actMsmx tg ts tout w a)⟩
  | .mchk tg mode => some ⟨6, (fieldsOnly (.mchk tg mode)), matrixFault, (actMchk tg mode)⟩
  | .accst tg d t a => some ⟨6, (fieldsOnly (.accst tg d t a)), (tileFaultNoBusy t), (actAccst tg d t a)⟩
  | .accexp tg d t a => some ⟨6, (fieldsOnly (.accexp tg d t a)), (tileFault [t]), (actAccexp tg d t a)⟩
  | .accloss tg d t a => some ⟨6, (fieldsOnly (.accloss tg d t a)), (tileFault [t]), (actAccloss tg d t a)⟩
  | .acclog tg d t a => some ⟨6, (fieldsOnly (.acclog tg d t a)), (tileFault [t]), (actAcclog tg d t a)⟩
  | .accside tg d t a => some ⟨6, (fieldsOnly (.accside tg d t a)), (tileFault [t]), (actAccside tg d t a)⟩
  | .mcfgrd tg cr a => some ⟨6, (fieldsOnly (.mcfgrd tg cr a)), matrixFault, (actMcfgrd tg cr a)⟩
  | .xcopy tg kd a l => some ⟨7, (litOk (.xcopy tg kd a l) l 3), (copyFault .box a l), (actXcopy tg kd a l)⟩
  | .xlin tg kd a l => some ⟨7, (litOk (.xlin tg kd a l) l 3), (copyFault .lin a l), (actXlin tg kd a l)⟩
  | .xidx tg a => some ⟨7, (fieldsOnly (.xidx tg a)), (xidxFault a), (actXidx tg a)⟩
  | .xgath tg kd a l => some ⟨7, (litOk (.xgath tg kd a l) l 3), (copyFault .gather a l), (actXgath tg kd a l)⟩
  | .xscat tg kd a l => some ⟨7, (litOk (.xscat tg kd a l) l 3), (copyFault .scatter a l), (actXscat tg kd a l)⟩
  | .xmove tg op w a => some ⟨7, (fieldsOnly (.xmove tg op w a)), (xmoveFault op w a), (actXmove tg op w a)⟩
  | .xchain tg kd a l => some ⟨7, (litOk (.xchain tg kd a l) l 0), (xchainFault a), (actXchain tg kd a l)⟩
  | .xstat tg d ch => some ⟨7, (fieldsOnly (.xstat tg d ch)), noFault, (actXstat tg d ch)⟩
  | .xfence tg kd sc => some ⟨7, (fieldsOnly (.xfence tg kd sc)), limitFault, (actXfence tg kd sc)⟩
  | .xred tg kd a l =>
      some ⟨7, (fun s => litOk (.xred tg kd a l) l 8 s && xredOptOk (s.tokenLit l)), (redFault true a l), (actXred tg kd a l)⟩
  | .xatom tg kd a l =>
      some ⟨7, (fun s => litOk (.xatom tg kd a l) l 8 s && xatomOptOk (s.tokenLit l)), (redFault false a l), (actXatom tg kd a l)⟩
  | .xredv tg kd a l =>
      some ⟨7, (fun s => litOk (.xredv tg kd a l) l 8 s && xredvOptOk (s.tokenLit l)), (xredvFault a), (actXredv tg kd a l)⟩
  | .xbara tg kd a l => some ⟨7, (litOk (.xbara tg kd a l) l 1), (barrierFault false a), (actXbara tg kd a l)⟩
  | .xbarw tg kd a l => some ⟨7, (litOk (.xbarw tg kd a l) l 0), (barrierFault true a), (actXbarw tg kd a l)⟩
  | .xallr tg kd a l => some ⟨7, (litOk (.xallr tg kd a l) l 3), (collFault .allReduce a l), (actXallr tg kd a l)⟩
  | .xrdsc tg kd a l => some ⟨7, (litOk (.xrdsc tg kd a l) l 3), (collFault .reduceScatter a l), (actXrdsc tg kd a l)⟩
  | .xallg tg kd a l => some ⟨7, (litOk (.xallg tg kd a l) l 3), (collFault .allGather a l), (actXallg tg kd a l)⟩
  | .xbcst tg kd a l => some ⟨7, (litOk (.xbcst tg kd a l) l 3), (collFault .broadcast a l), (actXbcst tg kd a l)⟩
  | .xpcnt tg d a => some ⟨7, (fieldsOnly (.xpcnt tg d a)), noFault, (actXpcnt tg d a)⟩
  | .xpcan tg kd a l => some ⟨7, (litOk (.xpcan tg kd a l) l 0), limitFault, (actXpcan tg kd a l)⟩
  | .xmvb tg kd a l => some ⟨7, (litOk (.xmvb tg kd a l) l 3), (xmvbFault a l), (actXmvb tg kd a l)⟩
  | .xlaunch tg kd a l => some ⟨7, (litOk (.xlaunch tg kd a l) l 1), (xlaunchFault a), (actXlaunch tg kd a l)⟩
  | .xckpt tg kd a l => some ⟨7, (litOk (.xckpt tg kd a l) l 4), xckptFault, (actXckpt tg kd a l)⟩
  | .xhadd tg kd a l => some ⟨7, (litOk (.xhadd tg kd a l) l 0), (xhaddFault a), (actXhadd tg kd a l)⟩
  | .xhdel tg kd a l => some ⟨7, (litOk (.xhdel tg kd a l) l 0), (xhdelFault a), (actXhdel tg kd a l)⟩
  | .xsend tg kd a l => some ⟨7, (litOk (.xsend tg kd a l) l 0), (msgFault true a), (actXsend tg kd a l)⟩
  | .xrecv tg kd a l => some ⟨7, (litOk (.xrecv tg kd a l) l 0), (recvFault a), (actXrecv tg kd a l)⟩
  | .xsig tg kd a l =>
      some ⟨7, (fun s => litOk (.xsig tg kd a l) l 8 s && sigOptOk (s.tokenLit l)), (sigFault a l), (actXsig tg kd a l)⟩
  | _ => none

/-- The address base register of the forms LM, LML, LMM, LMK, XT and XP (R80). -/
def baseReg (i : Instr) : Option (BitVec 5) :=
  match i with
  | .vld _ _ _ a => some a
  | .vst _ _ _ a => some a
  | .sld _ _ _ a => some a
  | .sst _ _ _ a => some a
  | .sldd _ _ _ a => some a
  | .sstd _ _ _ a => some a
  | .vlds _ _ _ a _ => some a
  | .vsts _ _ _ a _ => some a
  | .vldm _ _ _ a => some a
  | .vstm _ _ _ a _ => some a
  | .aadd _ _ _ a => some a
  | .aaddF32 _ _ _ a => some a
  | .amin _ _ _ a => some a
  | .amax _ _ _ a => some a
  | .axchg _ _ _ a => some a
  | .acas _ _ _ a => some a
  | .pfxld _ _ _ a => some a
  | .xcopy _ _ a _ => some a
  | .xlin _ _ a _ => some a
  | .xgath _ _ a _ => some a
  | .xscat _ _ a _ => some a
  | .xmove _ _ _ a => some a
  | .xchain _ _ a _ => some a
  | .xred _ _ a _ => some a
  | .xatom _ _ a _ => some a
  | .xredv _ _ a _ => some a
  | .xbara _ _ a _ => some a
  | .xbarw _ _ a _ => some a
  | .xallr _ _ a _ => some a
  | .xrdsc _ _ a _ => some a
  | .xallg _ _ a _ => some a
  | .xbcst _ _ a _ => some a
  | .xpcan _ _ a _ => some a
  | .xmvb _ _ a _ => some a
  | .xlaunch _ _ a _ => some a
  | .xckpt _ _ a _ => some a
  | .xhadd _ _ a _ => some a
  | .xhdel _ _ a _ => some a
  | .xsend _ _ a _ => some a
  | .xrecv _ _ a _ => some a
  | .xsig _ _ a _ => some a
  | _ => none

end Sys2Proof.Machine
end

