-- ==== Sys2Proof/Machine/Bundle.lean ====
section
/-! DEFINITION. The issue of bundles: fetch (R89), the checks before a first issue (R78), blocking (R87, R88), the sync
bundle (R257), sticky slots and repeats (R79 to R82), the scan of a skipped loop (R113), and a core's part of a clk. -/

namespace Sys2Proof.Machine

/-! ### Fetch -/

/-- The word at a code address; none in an unmapped page. -/
def Core.fetchWord (k : Core) (x : Fin 4) (a : W32) : Option W32 :=
  ((k.ctx x).bind.frameOf (a.toNat / 4096)).map fun f => BitVec.ofNat 32 (k.istore.nat (4096 * f + a.toNat % 4096) 4)

/-- The words of the longest bundle, from its first byte (R70). -/
def Core.fetchWords (k : Core) (x : Fin 4) (pc : W32) : List (Option W32) :=
  (List.range 24).map fun i => k.fetchWord x (pc + BitVec.ofNat 32 (4 * i))

/-- A word of the instruction store that a bundle takes has a parity error (R89, R211). -/
def Core.badWord (k : Core) (x : Fin 4) (a : W32) : Bool :=
  match (k.ctx x).bind.frameOf (a.toNat / 4096) with
  | some f => k.upsets.contains (.istore ((4096 * f + a.toNat % 4096) / 4 * 4))
  | none => false

def Core.badBundle (k : Core) (x : Fin 4) (bytes : Nat) : Bool :=
  if k.upsets = [] then false
  else (List.range (bytes / 4)).any fun n => k.badWord x ((k.ctx x).pc + BitVec.ofNat 32 (4 * n))

/-- A context that is to reload a chest image whose words have a parity error (R216). -/
def Core.badChest (k : Core) (x : Fin 4) : Bool :=
  ((k.ctx x).reload || (k.ctx x).treload) && k.upsets.contains (.chest x.val)

/-- The bundle at the program counter of a context, or the index of the first word in an unmapped page. -/
def Core.fetch (k : Core) (x : Fin 4) : Except Nat Bundle := parseBundle (k.fetchWords x (k.ctx x).pc)

/-! ### Illegal bundles (R78) -/

/-- How many literals a syllable's L field asks for (R75, R76); index 15 of form XT asks for none. -/
def litNeed (w : W32) : Nat :=
  let o := wordOpnd w
  let one (n : BitVec 4) : Nat := n.toNat + 1
  match (wordSlot w).toNat with
  | 0 | 1 =>
    match wordOpc w with
    | 0x18#8 => one (o.extractLsb' 2 4)
    | 0x1B#8 => one (o.extractLsb' 7 4)
    | 0x1C#8 => one (o.extractLsb' 7 4) + 1
    | 0x35#8 => one (o.extractLsb' 12 4)
    | _ => 0
  | 4 | 5 => if wordOpc w = 0x07#8 ∨ wordOpc w = 0x08#8 then (o.extractLsb' 0 3).toNat + 1 else 0
  | 6 => if wordOpc w = 0x02#8 then one (o.extractLsb' 4 4) else 0
  | 7 =>
    let c := (wordOpc w).toNat
    let l := o.extractLsb' 1 4
    if l ≠ 15 ∧ 1 ≤ c ∧ c ≤ 0x1C ∧ c ≠ 0x03 ∧ c ≠ 0x06 ∧ c ≠ 0x08 ∧ c ≠ 0x09 ∧ c ≠ 0x13 then one l else 0
  | _ => 0

/-- A SYNC syllable. -/
def isSyncWord (w : W32) : Bool := decide ((wordSlot w).toNat ≤ 1) && wordOpc w == 0x39#8

/-- Strictly ascending. -/
def ascending : List Nat → Bool
  | a :: b :: l => decide (a < b) && ascending (b :: l)
  | _ => true

/-- The cases of R78 in which a bundle is illegal. -/
def illegalBundle (b : Bundle) : Bool :=
  !ascending (b.syls.map fun w => (wordSlot w).toNat) || !((b.syls.getLast?.map wordStop).getD false) || decide (5 ≤ b.tmpl.toNat)
    || b.rsv != 0 || b.clr &&& 0x43#8 != 0 || (b.syls.any fun w => decide (b.lits.length < litNeed w))
    || (b.tmpl != 1 && b.syls.any isSyncWord)

/-! ### What a bundle issues -/

/-- An operation that a bundle issues: its instruction, the literal it captured when its slot is sticky, and whether its
syllable stands in the bundle. -/
structure BundleOp where
  slot  : Nat
  op    : Instr
  cap   : Option W32
  fresh : Bool

/-- NOP does nothing in any slot (R90); of its syllables only slot M's has a fault (R179). -/
def isNop (i : Instr) : Bool :=
  match i with
  | .nop _ => true
  | _ => false

/-- The literal a syllable captures. -/
def captured (lits : List W32) (i : Instr) : W32 :=
  match litIndex i with
  | some n => if n = 15 then 0 else lits.getD n 0
  | none => 0

/-- The syllable of a slot. -/
def bundleSyl (b : Bundle) (slot : Nat) : Option W32 := b.syls.find? fun w => (wordSlot w).toNat == slot

/-- The current operation of a sticky slot, when it is one. -/
def Ctx.current (c : Ctx) (slot : Nat) : Option BundleOp :=
  match curIndex slot with
  | none => none
  | some j =>
    match decodeSyl c.cur[j].word with
    | .ok i => if isNop i ∨ (wordSlot c.cur[j].word).toNat ≠ slot then none else some ⟨slot, i, some c.cur[j].lit, false⟩
    | .error _ => none

/-- What a slot issues at issue `r`: S slots at the final issue, M at the first, sticky slots at every one (R69, R79). -/
def Ctx.opAt (c : Ctx) (b : Bundle) (r slot : Nat) : Option BundleOp :=
  match bundleSyl b slot with
  | some w =>
    if (slot ≤ 1 ∧ r ≠ b.rep.toNat) ∨ (slot = 6 ∧ r ≠ 0) then none
    else if r ≠ 0 ∧ 2 ≤ slot then c.current slot
    else
      match decodeSyl w with
      | .ok i => if isNop i ∧ slot ≠ 6 then none else some ⟨slot, i, if (curIndex slot).isSome then some (captured b.lits i) else none, true⟩
      | .error _ => none
  | none => if r = 0 ∧ b.clr.getLsbD slot then none else c.current slot

/-- The operations of issue `r` in ascending slot order. -/
def Ctx.opsAt (c : Ctx) (b : Bundle) (r : Nat) : List BundleOp := (List.range 8).filterMap (c.opAt b r)

/-- Every operation of the bundle, as its checks take them: those of the first issue and the S slots. -/
def Ctx.opsOf (c : Ctx) (b : Bundle) : List BundleOp :=
  (List.range 8).filterMap fun slot => c.opAt b (if slot ≤ 1 then b.rep.toNat else 0) slot

/-- How often an operation issues (R69, R81). -/
def BundleOp.times (o : BundleOp) (b : Bundle) : Nat :=
  if (curIndex o.slot).isNone ∨ oneShot o.op then 1 else b.rep.toNat + 1

/-- The multiply-add group of R136. -/
def mulAddOp (i : Instr) : Bool :=
  match encode i with
  | w :: _ =>
    let c := (wordOpc w).toNat
    ((wordSlot w).toNat == 2 || (wordSlot w).toNat == 3)
      && decide ((1 ≤ c ∧ c ≤ 4) ∨ (0x07 ≤ c ∧ c ≤ 0x0A) ∨ (0x0D ≤ c ∧ c ≤ 0x0F))
  | [] => false

/-! ### The checks of R78 -/

/-- The destination ranges of the copies that a bundle issues (R164, R292): those of records that can be read. DESIGN CHOICE
(notes/assumptions/56.md): a copy counts whatever its condition, for every issue it makes. -/
def State.copyRanges (s : State) (o : BundleOp) : List (Nat × Nat) :=
  let of_ (a : BitVec 5) (l : BitVec 4) : List (Nat × Nat) :=
    let k := copyKind o.op
    let w := s.recordWin (s.tokenLit l)
    (s.basesX a).flatMap fun off =>
      if (recordFault w (if k = .box then 128 else 16) k.words off).isSome then []
      else
        let r := s.readRecord w off k.words
        if recordOk k r && addrOk (recSrc r) false && addrOk (recDst r) false
            && (endFault s.me.sys.wins (recDst r) true (recElem r) false).isNone then
          s.myPend k r
        else []
  match o.op with
  | .xcopy _ _ a l | .xlin _ _ a l | .xgath _ _ a l | .xscat _ _ a l => of_ a l
  | _ => []

/-- The frame of a bundle's checks. -/
def bundleFrame (core : Nat) (x : Fin 4) (c : Ctx) (b : Bundle) : Frame :=
  { core := core, ctx := x, lits := b.lits, next := c.pc + BitVec.ofNat 32 b.bytes, tmpl := b.tmpl, reps := b.rep.toNat + 1 }

/-- The frame in which one operation of a bundle is checked. -/
def BundleOp.frame (o : BundleOp) (b : Bundle) (f : Frame) : Frame := { f with cap := o.cap, reps := o.times b, fresh := o.fresh }

/-- Check 4: the lowest slot with an illegal syllable. -/
def State.illegalSyl (s : State) (b : Bundle) : Option Trap :=
  b.syls.findSome? fun w =>
    let bad : Option Trap := some ⟨0x002, 0, some (wordSlot w).toNat, none⟩
    match decodeSyl w with
    | .error _ => bad
    | .ok i =>
      match sylOf i with
      | some y => if y.legal s then none else bad
      | none => bad

/-- The tokens that the bundle's acting KWAITs name and that are not ready, with the slot of each (R87, R116). -/
def State.unready (s : State) (ops : List BundleOp) : List (Nat × Word) :=
  ops.flatMap fun o =>
    match o.op with
    | .kwait tg ka kb =>
      if s.condS tg then ((s.kwaitTokens ka kb).filter fun w => !s.myCore.ready w).map fun w => (o.slot, w) else []
    | _ => []

/-- A TRAP that acts (R118). -/
def State.trapActs (s : State) (ops : List BundleOp) : Bool :=
  ops.any fun o =>
    match o.op with
    | .trap tg _ => s.condS tg
    | _ => false

/-- Check 5: the lowest slot with an issue-time fault, the datapath fault of R136 for V1. A TEND that a TRAP suppresses does not
act. -/
def State.issueFault (s : State) (b : Bundle) (ops : List BundleOp) : Option Trap :=
  let f := s.fr
  let both := ops.any (fun o => o.slot == 2 && mulAddOp o.op) && ops.any (fun o => o.slot == 3 && mulAddOp o.op)
  let traps := s.trapActs ops
  ops.findSome? fun o =>
    if both ∧ o.slot = 3 then some ⟨0x108, 0, some 3, none⟩
    else
      match o.op, sylOf o.op with
      | .tend _, some y => if traps then none else sylTrap o.slot true (y.chk (s.setFr (o.frame b f)))
      | _, some y => sylTrap o.slot true (y.chk (s.setFr (o.frame b f)))
      | _, none => none

/-- A frame with the bundle's transfers and copies counted (R164, R285). -/
def State.countOps (s : State) (b : Bundle) (ops : List BundleOp) : State :=
  let n (p : Instr → Bool) : Nat := ((ops.filter fun o => p o.op).map fun o => o.times b).sum
  let f := { s.fr with bulk := n bulkOp, other := n otherOp }
  s.setFr { f with copies := ops.flatMap fun o => (s.setFr (o.frame b f)).copyRanges o }

/-- The operations of a scanned bundle that are checked: its own syllables, those apart whose faults arise only when they
act (R73, R113). -/
def scanned (ops : List BundleOp) : List BundleOp :=
  ops.filter fun o => o.fresh && (match o.op with
    | .kwait _ _ _ => false
    | .tend _ => false
    | _ => true)

/-! ### Issues -/

/-- The stride register of a slot (R80). -/
def Sys.stride (y : Sys) (slot : Nat) : Word := if slot = 4 then y.strl0 else if slot = 5 then y.strl1 else y.strx

/-- The base a run keeps for an L slot. -/
def Run.base (u : Run) (slot : Nat) : Word := if slot = 4 then u.base0 else u.base1
def Run.setBase (u : Run) (slot : Nat) (w : Word) : Run :=
  if slot = 4 then { u with base0 := w } else if slot = 5 then { u with base1 := w } else u

/-- The issuing run's base of a slot. -/
def State.keepBase (s : State) (slot : Nat) (w : Word) : State := s.setMe { s.me with run := s.me.run.map fun u => u.setBase slot w }

/-- One operation issues at issue `r`: a re-issue steps its base (R80). -/
def State.issueOp (s : State) (r : Nat) (o : BundleOp) : State :=
  let s := s.setFr { s.fr with cap := o.cap, base := none }
  let act (s : State) : State := match sylOf o.op with
    | some y => y.act s
    | none => s
  match baseReg o.op with
  | none => act s
  | some a =>
    if r = 0 ∧ o.fresh then act (s.keepBase o.slot (s.nowS a))
    else
      let prev := if a = 0 then 0 else if r = 0 ∨ o.slot = 7 then s.nowS a else (s.me.run.map fun u => u.base o.slot).getD 0
      let v := prev + s.me.sys.stride o.slot
      let s := if a = 0 then s else s.putS o.slot 1 a v
      act ((s.keepBase o.slot v).setFr { s.fr with base := some v })

/-- The current operations after CLR (R79). -/
def clrCurs (b : Bundle) (cur : Vector Cur 5) : Vector Cur 5 :=
  Vector.ofFn fun (j : Fin 5) =>
    let slot := [2, 3, 4, 5, 7].getD j.val 0
    if (b.clr.getLsbD slot && (bundleSyl b slot).isNone) = true then {} else cur[j]

/-- At the first issue CLR empties slots and the bundle's syllables become current operations (R79). -/
def State.captureBundle (s : State) (b : Bundle) : State :=
  let s := s.setMe { s.me with cur := clrCurs b s.me.cur }
  b.syls.foldl (fun s w => match decodeSyl w with
    | .ok i => s.captureCur i (wordSlot w).toNat
    | .error _ => s) s

/-- The next issue of the bundle under way (R79); parity errors that its operations meet are reported, the lowest slot's first
(R211). -/
def State.issueRun (s : State) (core : Nat) (x : Fin 4) : State :=
  match (s.ctx core x).run with
  | none => s
  | some u =>
    let c := s.ctx core x
    let s := (s.setFr (bundleFrame core x c u.bundle)).chargeBundle
    let s := s.setMyCore { s.myCore with issued := some (c.pc, u.r) }
    let ops := c.opsAt u.bundle u.r
    let s := if u.r = 0 then s.captureBundle u.bundle else s
    let s := s.setFr { s.fr with snap := some (u.regs, u.wins) }
    let met := ops.map fun o => (s.setFr { s.fr with cap := o.cap }).meets o.op o.slot
    let s := ops.foldl (fun s o => s.issueOp u.r o) s
    let s := if u.r = u.bundle.rep.toNat then s.control
      else s.setMe { s.me with run := s.me.run.map fun u => { u with r := u.r + 1 } }
    met.foldl State.meet s

/-- A bundle makes its first issue: what a freeze or a trap captured lands from this clk on (R210, R217), and residency counts from the
first issue after a resume (R277). -/
def State.beginBundle (s : State) (core : Nat) (x : Fin 4) (b : Bundle) : State :=
  let c := s.ctx core x
  let s := if (c.reload ∨ c.treload) ∧ ¬ c.sys.intrap then
      let s := s.reload core x 0
      s.setCore core ((s.core core).thawNests x)
    else s.reload core x 0
  let c := s.ctx core x
  (s.setCtx core x { c with
    boundAt := if c.stepBk then s.wcc.toNat else c.boundAt
    stepBk := false, arrived := false, release := none, lsa := if b.tmpl = 2 then c.pc else c.lsa
    region := c.region || (b.tmpl == 4 && c.sys.gang), run := some ⟨b, 0, c.regs, c.sys.wins, 0, 0⟩ }).issueRun core x

/-- A trap taken before a first issue in this clk (R207): a wait on the trestle is over. -/
def State.trapBefore (s : State) (core : Nat) (x : Fin 4) (t : Trap) : State :=
  let c := s.ctx core x
  (s.setCtx core x { c with arrived := false, release := none, report := none, ended := none }).takeTrap core x 0 t c.pc

/-- A gang-entry bundle that a context comes to, not in a scan, starts its gang-timed region (R88, R256). -/
def State.entersRegion (s : State) (core : Nat) (x : Fin 4) (b : Bundle) : State :=
  let c := s.ctx core x
  if b.tmpl = 4 ∧ c.sys.gang ∧ ¬ c.lsk ∧ ¬ c.region then s.setCtx core x { c with region := true } else s

/-- A breakpoint register of the core matches the bundle at the program counter (R230). -/
def Core.breaks (k : Core) (x : Fin 4) : Bool :=
  let c := k.ctx x
  !c.lsk && !c.stepBk && k.bkpts.toList.any fun b =>
    b.en && (b.any || b.ctxn.toNat == x.val) && b.addr == c.pc.extractLsb' 2 30

/-- The checks that come before those of the instructions: the breakpoint, fetch, the bundle and its syllables (R78, checks 1
to 4), or the bundle, with the frame in which it is checked. -/
def State.frontEnd (s : State) (core : Nat) (x : Fin 4) : State ⊕ (Bundle × State) :=
  let k := s.core core
  let pc := (k.ctx x).pc
  if k.breaks x then .inl (s.trapBefore core x ⟨0x383, pc.toNat, none, none⟩)
  else
    match k.fetch x with
    | .error n =>
      let a := (pc + BitVec.ofNat 32 (4 * n)).toNat / 4096 * 4096
      .inl (s.trapBefore core x ⟨0x003, a, none, none⟩)
    | .ok b =>
      let s := s.entersRegion core x b
      if k.badBundle x b.bytes then .inl (s.trapBefore core x ⟨0x30B, pc.toNat, none, none⟩)
      else if illegalBundle b then .inl (s.trapBefore core x ⟨0x001, 0, none, none⟩)
      else
        let t := s.setFr (bundleFrame core x (k.ctx x) b)
        match t.illegalSyl b with
        | some f => .inl (s.trapBefore core x f)
        | none => .inr (b, t)

/-- One bundle of the scan of R113. DESIGN CHOICE (log 62): after a freeze or an ERET that resumes inside a scan, what was captured lands
counted from the first bundle issued after it. -/
def State.scanBundle (s : State) (core : Nat) (x : Fin 4) (b : Bundle) : State :=
  let c := s.ctx core x
  let ops := scanned (c.opsOf b)
  match (s.countOps b ops).issueFault b ops with
  | some f => s.trapBefore core x f
  | none => s.setCtx core x { c with pc := s.fr.next, lsk := b.tmpl != 3 }

/-- A reservation that admits every clk. -/
def anyPhase (w : Word) : Word := if w.getLsbD 63 then w ||| 0xFFFFFFFF#64 else w

/-- The state in which a sync bundle's lateral slots are checked at its arrival: one clk of its release, 4 clk on, for a context alone; of
a gang, whose release is not known, a lateral slot is checked when it comes (R247, R257, log 52). -/
def State.atRelease (s : State) : State :=
  if s.me.bind.gang ∧ s.me.sys.gang then s.setMe { s.me with bind := { s.me.bind with lres := s.me.bind.lres.map anyPhase } }
  else s.setMyDie { s.myDie with scc := s.myDie.scc + 4 }

/-- A lateral slot that the clk of a release does not admit (R247). -/
def State.lateFault (s : State) (core : Nat) (x : Fin 4) (b : Bundle) : Option Trap :=
  let ops := (s.ctx core x).opsOf b
  (((s.setFr (bundleFrame core x (s.ctx core x) b)).countOps b ops).issueFault b ops).filter fun f => f.code == 0x104

/-- A bundle that has been fetched and found legal, in the frame of its checks: it blocks, arrives on the trestle, faults, or
issues (R87, R88, R257). Every fault of a sync bundle is raised before its arrival (R258); a lateral slot is checked for the clk of its
issue (R247, log 52). -/
def State.startBundle (s : State) (core : Nat) (x : Fin 4) (b : Bundle) : State :=
  let c := s.ctx core x
  let ops := c.opsOf b
  let wait := s.unready ops
  match wait with
  | (slot, _) :: _ =>
    if ¬ c.region then s.block core x (wait.map Prod.snd)
    else if b.tmpl = 1 then s
    else s.trapBefore core x ⟨0x101, 0, some slot, none⟩
  | [] =>
    match ((if b.tmpl = 1 then s.atRelease else s).countOps b ops).issueFault b ops with
    | some f => s.trapBefore core x f
    | none => if b.tmpl = 1 then s.setCtx core x { c with arrived := true } else s.beginBundle core x b

/-! ### Vizin's resident trap routine (R432) -/

/-- Where the routine stands once its XHADD is issued (log 61). -/
def servedPc (tvec : W32) : W32 := tvec + 16

/-- The context stands in the routine that serves HIBLIST registration, its code page mapped. -/
def State.serves (s : State) (core : Nat) (x : Fin 4) : Bool :=
  let c := s.ctx core x
  c.sys.intrap && c.sys.cause.extractLsb' 0 10 == 0x3C4#10 && (c.pc == c.bind.tvec || c.pc == servedPc c.bind.tvec)
    && ((s.core core).fetchWord x c.bind.tvec).isSome

/-- The entry that the routine registers for a window. -/
def regionEntry (c : Ctx) (core : Nat) (w : Win) (prio : Nat) : HibEntry :=
  { w0 := w64 (2 ^ 63 + prio * 2 ^ 59 + 2 ^ 58 + w.addr core), w1 := w64 (c.bind.asid.toNat * 2 ^ 48 + w.len / 64), w2 := c.sys.taskid }

/-- The routine returns past the TRAP bundle. -/
def State.serviceReturn (s : State) (core : Nat) (x : Fin 4) : State :=
  let s := s.returnFromTrap core x
  s.setCtx core x { s.ctx core x with pc := (s.ctx core x).sys.epc }

/-- The routine in the clk in which its context holds issue (R432): of a window of KIND 0 it gives s6 all ones and returns; for
another it issues an XHADD on channel 7, whose index lands in s6, and waits for its token; then it lists the entry and returns. A
full XHADD table of R285 holds it. An entry that XHADD does not take is a fault of the handler (log 61). -/
def State.service (s : State) (core : Nat) (x : Fin 4) : State :=
  let c := s.ctx core x
  let t := s.setFr { core := core, ctx := x, next := c.pc }
  let w := winOf c.sys.wins (BitVec.ofNat 3 (t.nowS 4).toNat)
  let h := regionEntry c core w (fld (t.nowS 5) 0 4)
  if c.pc ≠ c.bind.tvec then
    let new := s.hiblist.find? fun e => decide (e.2 = h) && !s.kept.any fun (k : HibKept) => k.index == e.1
    { (s.serviceReturn core x) with kept := s.kept ++ (new.toList.map fun e => ⟨c.sys.wid, c.sys.taskid, e.1, h⟩) }
  else if w.kind = 0 then (t.putS 0 1 6 (BitVec.allOnes 64)).serviceReturn core x
  else if ¬ h.ok then s.trapBefore core x ⟨0x004, 0, some 7, none⟩
  else if (limitFault t).isSome then s
  else
    let y := { t.mkXfer (.xhadd ⟨true, false, 0⟩ 0 4 0) 7 0x00E00000#32 [h.w0, h.w1, h.w2] [] with late := physReg c.sys.rot 6 }
    let s := t.addXfer y 7
    (s.setCtx core x { s.ctx core x with pc := servedPc c.bind.tvec }).block core x [tokenOf y.x]

/-- Vizin's handler of a code-page fault maps the page as its first bundle issues (R240). -/
def State.handlerMaps (s : State) (core : Nat) (x : Fin 4) : State :=
  let c := s.ctx core x
  if c.sys.intrap ∧ c.sys.cause.extractLsb' 0 10 = 0x003#10 ∧ c.pc = c.bind.tvec then s.mapCodePage core x c.sys.faddr.toNat else s

/-- The context comes to the bundle at its program counter. -/
def State.newBundle (s : State) (core : Nat) (x : Fin 4) : State :=
  match s.frontEnd core x with
  | .inl t => t
  | .inr (b, t) =>
    if (s.ctx core x).lsk then t.scanBundle core x b
    else
      let t := t.handlerMaps core x
      if (t.ctx core x).frozen ≠ .none then t else t.startBundle core x b

/-- The context that holds issue has this clk: the next issue of its bundle, one bundle of a scan, a trestle wait, or a new
bundle; a chest that cannot be reloaded freezes it again (R216). -/
def State.issueCtx (s : State) (core : Nat) (x : Fin 4) : State :=
  let c := s.ctx core x
  if c.run.isSome then s.issueRun core x
  else if c.report.isNone ∧ c.arrived ∧ c.release ≠ some 0 then s
  else if (s.core core).badChest x then s.trapBefore core x ⟨0x30A, 0, none, none⟩
  else
    match c.report, c.release, (s.core core).fetch x with
    | some t, _, _ => s.trapBefore core x t
    | none, some 0, .ok b => (match s.lateFault core x b with
      | some f => s.trapBefore core x f
      | none => s.beginBundle core x b)
    | none, _, _ => if s.serves core x then s.service core x else s.newBundle core x

/-! ### A core's part of a clk -/

/-- A report freezes the context that takes it (R208). -/
def Ctx.freezesOn (c : Ctx) (t : Trap) : Bool := c.sys.intrap || freezeCodes.contains t.code || c.region

/-- Between bundles a context takes what waits for its boundary: a freeze that was asked for, a report of the core that freezes
it, the end of its energy budget (R207, R213, R235). A report that its handler takes waits for its next first issue (R209). -/
def State.boundary (s : State) (core : Nat) (x : Fin 4) : State :=
  let c := s.ctx core x
  if ¬ c.bound ∨ c.frozen ≠ .none ∨ c.run.isSome then s
  else
    match c.wantF, c.report with
    | some w, _ => s.freezeOne core x 0 w
    | none, some t => if c.freezesOn t then s.trapBefore core x t else s.budgetFreeze core x
    | none, none => s.budgetFreeze core x

/-- The starts of a core's contexts and their boundaries, before anything of the clk issues. -/
def State.boundaries (s : State) (core : Nat) : State :=
  if (s.core core).did.getLsbD 0 then s
  else (List.finRange 4).foldl (fun s x => s.boundary core x)
    ((List.finRange 4).foldl (fun s x => s.slotStep (clusterIndex core) (entryOf core x)) s)

/-- A core with no holder passes issue on (R87). -/
def Core.select (k : Core) : Core :=
  match k.holder with
  | some _ => k
  | none =>
    match k.nextHolder with
    | some y => k.passTo y
    | none => k

/-- The issue of a core in this clk. -/
def State.issueCore (s : State) (core : Nat) : State :=
  let k := (s.core core).select
  let s := s.setCore core { k with payer := k.holder }
  match k.holder with
  | none => s
  | some x => if 0 < k.wait then s.setCore core { k with payer := k.holder, wait := k.wait - 1 } else s.issueCtx core x

/-- The issue of a core happens once in a clk (log 2). -/
def State.issueOnce (s : State) (core : Nat) : State :=
  let k := s.core core
  if k.did.getLsbD 0 then s else (s.setCore core { k with did := k.did ||| 1#5 }).issueCore core

/-- The issue of a core in the clk in hand. -/
def State.clkIssue (s : State) (core : Nat) : State :=
  if core < moduleCores ∧ s.runs (dieOf core) then (s.boundaries core).issueOnce core else s

/-- BUNDLE_ISSUE (R79): the core's issue in the clk in hand. -/
def execBundleIssue (s : State) : Out := .next (s.clkIssue s.ev.core)

/-- The context that would hold issue in the clk in hand. -/
def State.willHold (s : State) (core : Nat) : Option (Fin 4) :=
  let k := (s.core core).select
  if k.did.getLsbD 0 ∨ 0 < k.wait then none else k.holder

/-- LOOP_SKIP_SCAN (R113): the core's clk, when its context scans. -/
def execLoopSkipScan (s : State) : Out :=
  .next (match s.willHold s.ev.core with
    | some x => if (s.ctx s.ev.core x).lsk then s.clkIssue s.ev.core else s
    | none => s)

/-- CONTEXT_SWITCH (R87): a core with no holder passes issue to the next context that can issue. -/
def execContextSwitch (s : State) : Out :=
  let k := s.core s.ev.core
  .next (if s.ev.core < moduleCores ∧ s.runs (dieOf s.ev.core) ∧ ¬ k.did.getLsbD 0 then s.setCore s.ev.core k.select else s)

/-- TRESTLE_ARRIVE (R257): the core's clk, when its context stands at a sync bundle and has not arrived. -/
def execTrestleArrive (s : State) : Out :=
  let k := s.core s.ev.core
  .next (match s.willHold s.ev.core with
    | some x =>
      let c := k.ctx x
      (match k.fetch x with
       | .ok b => if x = ctxNo s.ev.ctx ∧ ¬ c.lsk ∧ ¬ c.arrived ∧ c.run.isNone ∧ b.tmpl = 1 then s.clkIssue s.ev.core else s
       | .error _ => s)
    | none => s)

/-- TRESTLE_RELEASE (R257): the line is true in the clk in hand, and its members are released four clk on. -/
def execTrestleRelease (s : State) : Out :=
  .next (if s.runs s.ev.die then s.trestleTrue s.ev.die (some s.ev.index) else s)

/-- IDLE_CLK_CHARGE (R234): the clk in hand of a core in which no context holds issue. -/
def execIdleClkCharge (s : State) : Out :=
  let s := s.clkIssue s.ev.core
  .next (if s.ev.core < moduleCores ∧ s.runs (dieOf s.ev.core) then
      s.setCore s.ev.core ((s.core s.ev.core).once 4 Core.idleCharge)
    else s)

end Sys2Proof.Machine
end

