-- ==== Sys2Proof/Machine/Clock.lean ====
section
/-! DEFINITION. One clk of the module: what issues, performs, lands and is charged in it (R5, R79, R83, R185, R214, R226, R235,
R249, R254, R257, R276). -/

namespace Sys2Proof.Machine

/-! ### Loading and starts (R276) -/

/-- Loading that ends and contexts that start in this clk. -/
def State.slotClk (s : State) : State :=
  s.clusters.foldl (fun s c => c.2.slots.foldl (fun s e => s.slotStep c.1 e.1) s) s

/-! ### Commit records (R226) -/

/-- A transfer as bytes: its syllable, literal and operands. -/
def Xfer.record (t : Xfer) : List Byte :=
  ((encode t.op).flatMap fun w => leBytes 4 w.toNat) ++ leBytes 4 t.lit.toNat ++ t.args.flatMap fun w => leBytes 8 w.toNat

/-- The commit record of a leading core's clk; empty when nothing issued in it. -/
def State.commitRecord (s : State) (core : Nat) : List Byte :=
  let k := s.core core
  let z := s.pair (core / 2)
  match k.issued with
  | none => []
  | some (pc, r) =>
    leBytes 4 pc.toNat ++ [BitVec.ofNat 8 r] ++ (sortLandings (z.lands ++ k.dueLandings)).flatMap Landing.record ++ z.perf
      ++ (k.xfers.filter fun (t : Xfer) => t.since == (s.die (dieOf core)).scc.toNat).flatMap Xfer.record

/-- A leading core commits the clk once everything of it has performed, and the pair is compared (R226, R227). -/
def State.commitCore (s : State) (core : Nat) : State :=
  let z := s.pair (core / 2)
  if core % 2 = 1 ∨ ¬ z.prot then s
  else (s.setPair (core / 2) { z.commit (s.commitRecord core) with lands := [], perf := [] }).comparePair (core / 2)

/-! ### Charges (R233 to R235) -/

/-- The array clk of the nests that run for a context in this clk (class 13). -/
def Core.arrayCharge (k : Core) (x : Fin 4) : Nat :=
  ((k.nests.filter fun n => n.ctx == x.val && !n.frozen && decide (0 < n.array)).map fun _ => (k.ewt[(13 : Fin 16)]).toNat).sum

/-- A charge added to a context's count. -/
def Ctx.addEnergy (c : Ctx) (n : Nat) : Ctx :=
  if n = 0 then c
  else
    let r := addCharge c.sys.ecnt c.sys.eres n
    { c with charge := 0, sys := { c.sys with ecnt := r.1, eres := r.2.1, esat := c.sys.esat || r.2.2 } }

/-- The context that pays the clk's SP: one that has been frozen and has not issued in it does not (R219, R234). -/
def Core.pays (k : Core) : Core :=
  match k.payer with
  | some x => if (k.ctx x).frozen ≠ .none ∧ k.issued.isNone then { k with payer := none } else k
  | none => k

/-- The charges of a clk, its array charges given. -/
def Core.chargeClk (k : Core) (array : List Nat) : Core :=
  let k := k.pays
  let k := (List.finRange 4).foldl (fun k x =>
    let c := k.ctx x
    let n := c.charge + array.getD x.val 0 + (if k.payer = some x then k.spwr.toNat else 0)
    if n = 0 then k else k.setCtx x (c.addEnergy n)) k
  k.once 4 Core.idleCharge

/-! ### The end of a clk -/

/-- The results of a core land (R83, R84). -/
def Core.landClk (k : Core) : Core :=
  (List.finRange 4).foldl (fun k x =>
    let c := k.ctx x
    if c.land = [] ∧ c.sets = 0 ∧ c.fsets = 0 then k else k.setCtx x c.landAll) k

/-- A context that resumes comes a clk nearer to its first issue (R217); one of a gang or with a reservation issues in it (R218,
R248). -/
def Core.resumeClk (k : Core) : Core :=
  (List.finRange 4).foldl (fun k x =>
    let c := k.ctx x
    match c.resumeIn with
    | none => k
    | some n =>
      if 1 < n then k.setCtx x { c with resumeIn := some (n - 1) }
      else
        let k := k.setCtx x { c with resumeIn := none }
        if c.pinned then k.claim x else k) k

/-- The capture of a trap is complete 32 clk after its boundary, and its image stands in the save area (R209, R214). -/
def State.trapClk (s : State) (core : Nat) (x : Fin 4) : State :=
  let c := s.ctx core x
  match c.tsaveIn with
  | none => s
  | some n =>
    if 1 < n then s.setCtx core x { c with tsaveIn := some (n - 1) }
    else (s.setCtx core x { c with tsaveIn := none }).writeTrapImage core x

/-- Capture is complete 32 clk after a boundary, and the save area is written (R214); one in a die at retention is written later
(R374). -/
def State.saveClk (s : State) (core : Nat) : State :=
  (List.finRange 4).foldl (fun s x =>
    let s := s.trapClk core x
    let c := s.ctx core x
    match c.saveIn with
    | none => s
    | some n =>
      if 1 < n then s.setCtx core x { c with saveIn := some (n - 1) }
      else if s.vwaits c.bind.asid.toNat c.bind.save.toNat 64 .write then s
      else ((s.setCtx core x { c with saveIn := none }).writeSave core x).afterSave core x) s

/-- The marks of the clk in hand are cleared. -/
def Core.endClk (k : Core) : Core := { k with did := 0, issued := none, payer := none }

/-- What a running core does in a clk after its issue and its die's accesses. -/
def State.coreEnd (s : State) (core : Nat) : State :=
  let k := s.core core
  let array := (List.finRange 4).map k.arrayCharge
  let s := (s.setCore core k.matrixEnd).commitCore core
  let k := (s.core core).landClk.chargeClk array
  let s := s.setCore core k.endClk
  -- a die that was unparked is parked no more once a context of it issues (R373)
  let d := s.die (dieOf core)
  let s := if k.issued.isSome ∧ d.park = .unparking then s.setDie (dieOf core) { d with park := .none } else s
  let s := s.saveClk core
  s.setCore core (s.core core).resumeClk

/-- A core of a die in a hold clk: its holder pays SP (R234). -/
def Core.holdClk (k : Core) : Core := (({ k with payer := k.holder } : Core).chargeClk []).endClk

/-- A clk of the die's window of 64 has passed (R370). When what is left of the window is no more than its hold clk still to
come, the next clk is one. -/
def Die.windowClk (x : Die) : Die :=
  let held := x.winHeld + (if x.held then 1 else 0)
  let n := x.winClk + 1
  let y := if n < 64 then { x with winClk := n, winHeld := held } else { x with winClk := 0, winHeld := 0 }
  { y with held := decide (0 < y.hold ∧ 64 - y.winClk + y.winHeld ≤ y.hold) }

/-- The end of a clk for a die: a running die's trestle lines, accesses and SCC come a clk on. A die at retention has no clk
(R371). -/
def State.dieEnd (s : State) (d : Nat) : State :=
  if s.runs d then
    let s := s.trestleClk d
    let x := (s.die d).accClk
    s.setDie d ({ x with scc := x.scc + 1, performed := false } : Die).windowClk
  else if (s.die d).park = .retained then s
  else s.setDie d ({ s.die d with performed := false } : Die).windowClk

/-- A number joins an ascending list. -/
def insertAsc (n : Nat) (l : List Nat) : List Nat := l.takeWhile (fun m => decide (m < n)) ++ n :: l.dropWhile fun m => decide (m < n)

/-- Every core the state lists, in ascending module-wide number (R66). -/
def State.coreList (s : State) : List Nat := s.cores.foldl (fun l e => insertAsc e.1 l) []

/-- One clk of the module (R5), but for the trailing cores. A module that S3 has closed counts WCC only. -/
def State.clkLead (s : State) : State :=
  if s.power.s3 = .closed then { s with wcc := s.wcc + 1 }
  else
    let dies := List.range numDies
    let s := s.slotClk
    let cores := s.coreList.filter fun c => s.runs (dieOf c)
    let s := cores.foldl State.boundaries s
    let s := cores.foldl State.issueOnce s
    let s := cores.foldl State.nestReadPhase s
    let s := dies.foldl (fun s d => if (s.die d).park = .retained then s else s.staticPhase d) s
    let s := dies.foldl (fun s d => if s.runs d then s.statPhase d else s) s
    let s := if s.owed = [] then s else s.payOwed
    let s := cores.foldl State.coreEnd s
    let s := (s.coreList.filter fun c => (s.die (dieOf c)).held && (s.die (dieOf c)).park != .retained).foldl (fun s c => s.setCore c (s.core c).holdClk) s
    let s := s.serveSeeds s.coreList
    let s := dies.foldl State.dieEnd s
    { s with wcc := s.wcc + 1 }

/-! ### Trailing cores (R225)

The trailing core of a protected pair computes what the leading one does until the arrays of the two differ by a defective
processing element (R197). From then on it runs a computation of its own: the same clk, on its own registers, tiles, nests and results
in flight, with what events bring to the leading core and what that reads from memory (log 38). -/

/-- The trailing core's part, unless the leading core's has changed by an event since the last clk. -/
def trailPart {α : Type} [DecidableEq α] (before own now : α) : α := if now = before then own else now

/-- The trailing core's context: what has come to the leading core's comes to it. -/
def Ctx.trailing (before own now : Ctx) : Ctx :=
  if now.bound ≠ before.bound ∨ now.frozen ≠ before.frozen then now
  else
    { now with
      regs := trailPart before.regs own.regs now.regs, sys := trailPart before.sys own.sys now.sys
      land := own.land ++ now.land.filter fun l => !before.land.contains l
      run := trailPart before.run own.run now.run, cur := trailPart before.cur own.cur now.cur, pc := trailPart before.pc own.pc now.pc
      lsk := trailPart before.lsk own.lsk now.lsk, wait := trailPart before.wait own.wait now.wait }

/-- The trailing core at the start of a clk. -/
def Trail.core (t : Trail) (now : Core) : Core :=
  { now with
    ctxs := Vector.ofFn fun x => (t.lead.ctx x).trailing (t.own.ctx x) (now.ctx x)
    tiles := Vector.ofFn fun i => trailPart t.lead.tiles[i] t.own.tiles[i] now.tiles[i]
    nests := trailPart t.lead.nests t.own.nests now.nests, twr := trailPart t.lead.twr t.own.twr now.twr
    active := trailPart t.lead.active t.own.active now.active, shadow := trailPart t.lead.shadow t.own.shadow now.shadow
    holder := trailPart t.lead.holder t.own.holder now.holder, wait := trailPart t.lead.wait t.own.wait now.wait
    upsets := t.own.upsets }

/-- The trailing core's computation as a clk begins: none while it is the leading core's. -/
def State.trailOf (s : State) (p : Nat) : Option Trail :=
  let z := s.pair p
  let lead := s.core (2 * p)
  let bad := (s.core (2 * p + 1)).upsets.filter fun u => u matches .pe _
  if ¬ z.prot then none
  else match z.trail with
    | some t => some { t with own := t.core lead }
    | none =>
      if lead.badPes = (s.core (2 * p + 1)).badPes then none
      else some ⟨lead, { lead with upsets := (lead.upsets.filter fun u => !(u matches .pe _)) ++ bad },
        (s.die (dieOf (2 * p))).acc.filter fun a => a.core == 2 * p⟩

/-- The trailing core's last commit record is its own. -/
def Pair.ownRecord (z : Pair) (rec : List Byte) : Pair :=
  match z.lag.getLast? with
  | some e => { z with lag := z.lag.dropLast ++ [(e.1, rec)] }
  | none => z

/-- The clk of a pair's trailing core: the clk of the module with its computation in the leading core's place; only its commit record
leaves it (R225). A clk of which an event has brought parts forward is the leading core's. -/
def State.trailClk (before after : State) (p : Nat) : State :=
  match before.trailOf p with
  | none => after
  | some t =>
    let d := dieOf (2 * p)
    let lead := after.core (2 * p)
    if (before.core (2 * p)).did ≠ 0 then after.setPair p { after.pair p with trail := some ⟨lead, t.core lead, t.acc⟩ }
    else
      let x := before.die d
      let own := { (before.setCore (2 * p) t.own).setDie d { x with acc := (x.acc.filter fun (a : Access) => a.core != 2 * p) ++ t.acc } with
        pairs := [(p, { before.pair p with lag := [] })] }.clkLead
      let mine := match (own.pair p).lag with
        | e :: _ => e.2
        | [] => []
      let z := after.pair p
      -- a mismatch that freezes the contexts ends the computation with them
      after.setPair p (if z.lag = [] then z else
        { z.ownRecord mine with trail := some ⟨lead, own.core (2 * p), (own.die d).acc.filter fun (a : Access) => a.core == 2 * p⟩ })

/-- One clk of the module (R5). -/
def State.clk (s : State) : State :=
  (s.pairs.filter fun z => (s.trailOf z.1).isSome).foldl (fun t z => s.trailClk t z.1) s.clkLead

/-! ### The parts of a clk as events of their own (log 2)

What a clk does is done in the order of `State.clk`: an event that brings a part of the clk in hand forward brings forward all
that comes before it. -/

/-- A core's issue and its nests' reads come before anything performs in the clk (R250). -/
def State.coreFirst (s : State) (core : Nat) : State :=
  if s.runs (dieOf core) then (s.clkIssue core).nestReadPhase core else s

/-- The issues and nest reads of a die's cores in the clk in hand. -/
def State.readFirst (s : State) (d : Nat) : State := (s.coreList.filter fun c => dieOf c == d).foldl State.coreFirst s

/-- All that performs in a die in the clk in hand, once (R251, R252). A die at retention does nothing. -/
def State.performFirst (s : State) (d : Nat) : State :=
  if (s.die d).park = .retained ∨ s.power.s3 = .closed then s
  else
    let s := if (s.die d).held then s.staticPhase d else ((s.readFirst d).staticPhase d).statPhase d
    s.setDie d { s.die d with performed := true }

/-- STATIC_ACCESS_PERFORM (R159). -/
def execStaticAccessPerform (s : State) : Out := .next (s.performFirst s.ev.die)

/-- HOLD_CLK (R370): the clk in hand is a hold clk of the die, when its window has one left to come and nothing of the clk has been
done yet. -/
def execHoldClk (s : State) : Out :=
  let x := s.die s.ev.die
  .next (if s.ev.die < numDies ∧ x.winHeld < x.hold ∧ ¬ (s.cores.any fun e => dieOf e.1 == s.ev.die && e.2.did != 0) then
      s.setDie s.ev.die { x with held := true }
    else s)

/-- NEST_STEP_READ (R185). -/
def execNestStepRead (s : State) : Out := .next (s.coreFirst s.ev.core)

/-- NEST_STEP_UPDATE (R185): the reads of the clk come before its updates. -/
def execNestStepUpdate (s : State) : Out :=
  .next (if ¬ s.runs (dieOf s.ev.core) then s
    else let s := s.coreFirst s.ev.core; s.setCore s.ev.core ((s.core s.ev.core).once 2 Core.nestUpdate))

/-- NEST_END (R197): the nests whose last clk is in hand are compared and leave. -/
def execNestEnd (s : State) : Out :=
  .next (if ¬ s.runs (dieOf s.ev.core) then s
    else
      let s := s.coreFirst s.ev.core
      let k := ((s.core s.ev.core).once 2 Core.nestUpdate).tileLand
      let overs := k.nests.filter fun n => !n.frozen && decide (n.remain ≤ 1)
      let k := overs.foldl Core.nestEnd k
      s.setCore s.ev.core { k with nests := k.nests.filter fun n => n.frozen || decide (1 < n.remain) })

/-- ARRIVAL_UNIT_APPLY (R192): at most one unit in a clk. -/
def execArrivalUnitApply (s : State) : Out :=
  .next (if ¬ s.runs (dieOf s.ev.core) then s
    else let s := s.coreFirst s.ev.core; s.setCore s.ev.core ((s.core s.ev.core).once 3 Core.arrivalApply))

/-- STATIC_COPY_READ (R299). -/
def execStaticCopyRead (s : State) : Out :=
  let d := dieOf s.ev.core
  let mine (a : Access) : Bool := a.kind == .copyRead && a.core == s.ev.core && decide (a.x = s.ev.x) && decide (a.left ≤ 1)
  .next (if ¬ s.runs d then s
    else
      let s := s.readFirst d
      let x := s.die d
      (x.acc.filter mine).foldl (fun t a => t.performCopyRead s.mem a) (s.setDie d { x with acc := x.acc.filter fun a => !mine a }))

/-- STATIC_COPY_WRITE (R299): the write performs with all that performs in its clk. -/
def execStaticCopyWrite (s : State) : Out :=
  let d := dieOf s.ev.core
  .next (if (s.die d).acc.any fun a => a.kind == .copyWrite && a.core == s.ev.core && decide (a.x = s.ev.x) && decide (a.left ≤ 1)
    then s.performFirst d else s)

/-- RESULT_LAND (R83): the results of the core's contexts that land with the clk in hand. -/
def execResultLand (s : State) : Out :=
  .next (if ¬ s.runs (dieOf s.ev.core) then s
    else
      let s := s.performFirst (dieOf s.ev.core)
      let s := s.noteLandings s.ev.core (s.core s.ev.core).dueLandings
      (List.finRange 4).foldl (fun s x => s.setCtx s.ev.core x (s.ctx s.ev.core x).landDue) s)

/-- CHEST_ENTRY_LAND (R217): the context's entries that land with the clk in hand. -/
def execChestEntryLand (s : State) : Out :=
  .next (if ¬ s.runs (dieOf s.ev.core) then s
    else
      let s := s.performFirst (dieOf s.ev.core)
      let s := s.noteLandings s.ev.core ((s.ctx s.ev.core (ctxNo s.ev.ctx)).land.filter fun l => decide (l.left ≤ 1))
      s.setCtx s.ev.core (ctxNo s.ev.ctx) (s.ctx s.ev.core (ctxNo s.ev.ctx)).landDue)

end Sys2Proof.Machine
end

