-- ==== Sys2Proof/Machine/Dispatch.lean ====
section
/-! DEFINITION. One arm for each constructor of Instr: the meaning of each row of spec/opcode_table.json. -/

namespace Sys2Proof.Machine

def exec (i : Instr) (s : State) : Host.Outcome State Fault Refusal :=
  match i with
  | .bundleIssue => Sys2Proof.Machine.execBundleIssue s
  | .loopSkipScan => Sys2Proof.Machine.execLoopSkipScan s
  | .contextSwitch => Sys2Proof.Machine.execContextSwitch s
  | .resultLand => Sys2Proof.Machine.execResultLand s
  | .energyBudgetFreeze => Sys2Proof.Machine.execEnergyBudgetFreeze s
  | .freezeRequest => Sys2Proof.Machine.execFreezeRequest s
  | .chestEntryLand => Sys2Proof.Machine.execChestEntryLand s
  | .csigCompare => Sys2Proof.Machine.execCsigCompare s
  | .reexecutionVote => Sys2Proof.Machine.execReexecutionVote s
  | .suspectScoreDecay => Sys2Proof.Machine.execSuspectScoreDecay s
  | .pairModeChange => Sys2Proof.Machine.execPairModeChange s
  | .migration => Sys2Proof.Machine.execMigration s
  | .staticAccessPerform => Sys2Proof.Machine.execStaticAccessPerform s
  | .trestleArrive => Sys2Proof.Machine.execTrestleArrive s
  | .trestleRelease => Sys2Proof.Machine.execTrestleRelease s
  | .holdClk => Sys2Proof.Machine.execHoldClk s
  | .nestStepRead => Sys2Proof.Machine.execNestStepRead s
  | .nestStepUpdate => Sys2Proof.Machine.execNestStepUpdate s
  | .nestEnd => Sys2Proof.Machine.execNestEnd s
  | .arrivalUnitQueue => Sys2Proof.Machine.execArrivalUnitQueue s
  | .arrivalUnitRetry => Sys2Proof.Machine.execArrivalUnitRetry s
  | .arrivalUnitApply => Sys2Proof.Machine.execArrivalUnitApply s
  | .transferStart => Sys2Proof.Machine.execTransferStart s
  | .transferPiecePerform => Sys2Proof.Machine.execTransferPiecePerform s
  | .transferComplete => Sys2Proof.Machine.execTransferComplete s
  | .faultBufferFree => Sys2Proof.Machine.execFaultBufferFree s
  | .staticCopyRead => Sys2Proof.Machine.execStaticCopyRead s
  | .staticCopyWrite => Sys2Proof.Machine.execStaticCopyWrite s
  | .indexRowMove => Sys2Proof.Machine.execIndexRowMove s
  | .hutchPack => Sys2Proof.Machine.execHutchPack s
  | .hutchUnpack => Sys2Proof.Machine.execHutchUnpack s
  | .hutchConvert => Sys2Proof.Machine.execHutchConvert s
  | .hutchReblock => Sys2Proof.Machine.execHutchReblock s
  | .hutchTranspose => Sys2Proof.Machine.execHutchTranspose s
  | .hutchDpenc => Sys2Proof.Machine.execHutchDpenc s
  | .hutchDpdec => Sys2Proof.Machine.execHutchDpdec s
  | .barrierArrival => Sys2Proof.Machine.execBarrierArrival s
  | .translationWalk => Sys2Proof.Machine.execTranslationWalk s
  | .tinv => Sys2Proof.Machine.execTinv s
  | .tinvComplete => Sys2Proof.Machine.execTinvComplete s
  | .transferResume => Sys2Proof.Machine.execTransferResume s
  | .writeQueueAccept => Sys2Proof.Machine.execWriteQueueAccept s
  | .writeQueueDrain => Sys2Proof.Machine.execWriteQueueDrain s
  | .reductionBarrierSend => Sys2Proof.Machine.execReductionBarrierSend s
  | .xmvbOutput => Sys2Proof.Machine.execXmvbOutput s
  | .patrolRead => Sys2Proof.Machine.execPatrolRead s
  | .powerLimitExceeded => Sys2Proof.Machine.execPowerLimitExceeded s
  | .s1Exit => Sys2Proof.Machine.execS1Exit s
  | .undervoltageSag => Sys2Proof.Machine.execUndervoltageSag s
  | .parkNextDie => Sys2Proof.Machine.execParkNextDie s
  | .parkGraceExpiry => Sys2Proof.Machine.execParkGraceExpiry s
  | .supplyRecovery => Sys2Proof.Machine.execSupplyRecovery s
  | .unparkDie => Sys2Proof.Machine.execUnparkDie s
  | .pfwNAssert => Sys2Proof.Machine.execPfwNAssert s
  | .undervoltageTrip => Sys2Proof.Machine.execUndervoltageTrip s
  | .shedExhausted => Sys2Proof.Machine.execShedExhausted s
  | .quiesceEnd => Sys2Proof.Machine.execQuiesceEnd s
  | .restart => Sys2Proof.Machine.execRestart s
  | .reserveGaugeUpdate => Sys2Proof.Machine.execReserveGaugeUpdate s
  | .retainedWait => Sys2Proof.Machine.execRetainedWait s
  | .checkpointWrite => Sys2Proof.Machine.execCheckpointWrite s
  | .tenantScrub => Sys2Proof.Machine.execTenantScrub s
  | .moduleReset => Sys2Proof.Machine.execModuleReset s
  | .attestationRequest => Sys2Proof.Machine.execAttestationRequest s
  | .benchTest => Sys2Proof.Machine.execBenchTest s
  | .firmwareInstall => Sys2Proof.Machine.execFirmwareInstall s
  | .riskUpdate => Sys2Proof.Machine.execRiskUpdate s
  | .checkpointDue => Sys2Proof.Machine.execCheckpointDue s
  | .checkpointAck => Sys2Proof.Machine.execCheckpointAck s
  | .checkpointWithdraw => Sys2Proof.Machine.execCheckpointWithdraw s
  | .restoreTimeout => Sys2Proof.Machine.execRestoreTimeout s
  | .submitDoorbell => Sys2Proof.Machine.execSubmitDoorbell s
  | .launchAccept => Sys2Proof.Machine.execLaunchAccept s
  | .launchContinue => Sys2Proof.Machine.execLaunchContinue s
  | .launchAbort => Sys2Proof.Machine.execLaunchAbort s
  | .taskNodeActivate => Sys2Proof.Machine.execTaskNodeActivate s
  | .condNodeActivate => Sys2Proof.Machine.execCondNodeActivate s
  | .whileNodeActivate => Sys2Proof.Machine.execWhileNodeActivate s
  | .joinNodeActivate => Sys2Proof.Machine.execJoinNodeActivate s
  | .endNodeActivate => Sys2Proof.Machine.execEndNodeActivate s
  | .instanceEnqueue => Sys2Proof.Machine.execInstanceEnqueue s
  | .instanceBind => Sys2Proof.Machine.execInstanceBind s
  | .gangReserve => Sys2Proof.Machine.execGangReserve s
  | .workSteal => Sys2Proof.Machine.execWorkSteal s
  | .dispatchGo => Sys2Proof.Machine.execDispatchGo s
  | .loadingEnd => Sys2Proof.Machine.execLoadingEnd s
  | .firstIssue => Sys2Proof.Machine.execFirstIssue s
  | .taskComplete => Sys2Proof.Machine.execTaskComplete s
  | .preemptExamine => Sys2Proof.Machine.execPreemptExamine s
  | .launchHold => Sys2Proof.Machine.execLaunchHold s
  | .completionRecord => Sys2Proof.Machine.execCompletionRecord s
  | .seedreqComplete => Sys2Proof.Machine.execSeedreqComplete s
  | .linkUnitReceive => Sys2Proof.Machine.execLinkUnitReceive s
  | .linkReplay => Sys2Proof.Machine.execLinkReplay s
  | .portDead => Sys2Proof.Machine.execPortDead s
  | .linkStateUpdate => Sys2Proof.Machine.execLinkStateUpdate s
  | .readRequest => Sys2Proof.Machine.execReadRequest s
  | .writeRequest => Sys2Proof.Machine.execWriteRequest s
  | .reductionRequest => Sys2Proof.Machine.execReductionRequest s
  | .planeData => Sys2Proof.Machine.execPlaneData s
  | .messageData => Sys2Proof.Machine.execMessageData s
  | .readData => Sys2Proof.Machine.execReadData s
  | .done => Sys2Proof.Machine.execDone s
  | .planeAcknowledgement => Sys2Proof.Machine.execPlaneAcknowledgement s
  | .oldValue => Sys2Proof.Machine.execOldValue s
  | .exponent => Sys2Proof.Machine.execExponent s
  | .cutRequest => Sys2Proof.Machine.execCutRequest s
  | .errorNotice => Sys2Proof.Machine.execErrorNotice s
  | .rejoin => Sys2Proof.Machine.execRejoin s
  | .rejack => Sys2Proof.Machine.execRejack s
  | .readyToSend => Sys2Proof.Machine.execReadyToSend s
  | .clearToSend => Sys2Proof.Machine.execClearToSend s
  | .restoreDigest => Sys2Proof.Machine.execRestoreDigest s
  | .drainRound => Sys2Proof.Machine.execDrainRound s
  | .streamResume => Sys2Proof.Machine.execStreamResume s
  | .waitlimExpiry => Sys2Proof.Machine.execWaitlimExpiry s
  | .waitsReexamine => Sys2Proof.Machine.execWaitsReexamine s
  | .hostMemRead => Sys2Proof.Machine.execHostMemRead s
  | .hostMemWrite => Sys2Proof.Machine.execHostMemWrite s
  | .hostSnoop => Sys2Proof.Machine.execHostSnoop s
  | .registerWrite => Sys2Proof.Machine.execRegisterWrite s
  | .nop tg => Sys2Proof.Machine.execNop tg s
  | .add tg d a b => Sys2Proof.Machine.execAdd tg d a b s
  | .sub tg d a b => Sys2Proof.Machine.execSub tg d a b s
  | .mul tg d a b => Sys2Proof.Machine.execMul tg d a b s
  | .mulh tg d a b => Sys2Proof.Machine.execMulh tg d a b s
  | .and tg d a b => Sys2Proof.Machine.execAnd tg d a b s
  | .or tg d a b => Sys2Proof.Machine.execOr tg d a b s
  | .xor tg d a b => Sys2Proof.Machine.execXor tg d a b s
  | .andn tg d a b => Sys2Proof.Machine.execAndn tg d a b s
  | .shl tg d a b => Sys2Proof.Machine.execShl tg d a b s
  | .shr tg d a b => Sys2Proof.Machine.execShr tg d a b s
  | .sra tg d a b => Sys2Proof.Machine.execSra tg d a b s
  | .min tg d a b => Sys2Proof.Machine.execMin tg d a b s
  | .max tg d a b => Sys2Proof.Machine.execMax tg d a b s
  | .addi tg d a imm => Sys2Proof.Machine.execAddi tg d a imm s
  | .muli tg d a imm => Sys2Proof.Machine.execMuli tg d a imm s
  | .andi tg d a imm => Sys2Proof.Machine.execAndi tg d a imm s
  | .ori tg d a imm => Sys2Proof.Machine.execOri tg d a imm s
  | .xori tg d a imm => Sys2Proof.Machine.execXori tg d a imm s
  | .shli tg d a imm => Sys2Proof.Machine.execShli tg d a imm s
  | .shri tg d a imm => Sys2Proof.Machine.execShri tg d a imm s
  | .srai tg d a imm => Sys2Proof.Machine.execSrai tg d a imm s
  | .addl tg d a l => Sys2Proof.Machine.execAddl tg d a l s
  | .addx3 tg d a b => Sys2Proof.Machine.execAddx3 tg d a b s
  | .movi tg d imm => Sys2Proof.Machine.execMovi tg d imm s
  | .movl tg d l => Sys2Proof.Machine.execMovl tg d l s
  | .movl64 tg d l => Sys2Proof.Machine.execMovl64 tg d l s
  | .clz tg d a => Sys2Proof.Machine.execClz tg d a s
  | .popc tg d a => Sys2Proof.Machine.execPopc tg d a s
  | .cmpeq tg pd a b => Sys2Proof.Machine.execCmpeq tg pd a b s
  | .cmpne tg pd a b => Sys2Proof.Machine.execCmpne tg pd a b s
  | .cmplt tg pd a b => Sys2Proof.Machine.execCmplt tg pd a b s
  | .cmpge tg pd a b => Sys2Proof.Machine.execCmpge tg pd a b s
  | .cmpltu tg pd a b => Sys2Proof.Machine.execCmpltu tg pd a b s
  | .cmpgeu tg pd a b => Sys2Proof.Machine.execCmpgeu tg pd a b s
  | .cmpeqi tg pd a imm => Sys2Proof.Machine.execCmpeqi tg pd a imm s
  | .cmplti tg pd a imm => Sys2Proof.Machine.execCmplti tg pd a imm s
  | .cmpltui tg pd a imm => Sys2Proof.Machine.execCmpltui tg pd a imm s
  | .pand tg pd pa pb na nb => Sys2Proof.Machine.execPand tg pd pa pb na nb s
  | .por tg pd pa pb na nb => Sys2Proof.Machine.execPor tg pd pa pb na nb s
  | .pxor tg pd pa pb na nb => Sys2Proof.Machine.execPxor tg pd pa pb na nb s
  | .sel tg d a b => Sys2Proof.Machine.execSel tg d a b s
  | .br tg off => Sys2Proof.Machine.execBr tg off s
  | .call tg off => Sys2Proof.Machine.execCall tg off s
  | .jr tg a => Sys2Proof.Machine.execJr tg a s
  | .callr tg a => Sys2Proof.Machine.execCallr tg a s
  | .ret tg => Sys2Proof.Machine.execRet tg s
  | .brl tg l => Sys2Proof.Machine.execBrl tg l s
  | .loop tg ns a => Sys2Proof.Machine.execLoop tg ns a s
  | .sync tg => Sys2Proof.Machine.execSync tg s
  | .kwait tg ka kb => Sys2Proof.Machine.execKwait tg ka kb s
  | .trap tg code => Sys2Proof.Machine.execTrap tg code s
  | .eret tg => Sys2Proof.Machine.execEret tg s
  | .yield tg => Sys2Proof.Machine.execYield tg s
  | .tend tg => Sys2Proof.Machine.execTend tg s
  | .mfsr tg d sr => Sys2Proof.Machine.execMfsr tg d sr s
  | .mtsr tg d sr => Sys2Proof.Machine.execMtsr tg d sr s
  | .rden tg d => Sys2Proof.Machine.execRden tg d s
  | .rand tg d => Sys2Proof.Machine.execRand tg d s
  | .seedreq tg d kd => Sys2Proof.Machine.execSeedreq tg d kd s
  | .vaddF32 tg d a b => Sys2Proof.Machine.execVaddF32 tg d a b s
  | .vsubF32 tg d a b => Sys2Proof.Machine.execVsubF32 tg d a b s
  | .vmulF32 tg d a b => Sys2Proof.Machine.execVmulF32 tg d a b s
  | .vfmaF32 tg d a b => Sys2Proof.Machine.execVfmaF32 tg d a b s
  | .vminF32 tg d a b => Sys2Proof.Machine.execVminF32 tg d a b s
  | .vmaxF32 tg d a b => Sys2Proof.Machine.execVmaxF32 tg d a b s
  | .vaddBf16 tg d a b => Sys2Proof.Machine.execVaddBf16 tg d a b s
  | .vsubBf16 tg d a b => Sys2Proof.Machine.execVsubBf16 tg d a b s
  | .vmulBf16 tg d a b => Sys2Proof.Machine.execVmulBf16 tg d a b s
  | .vfmaBf16 tg d a b => Sys2Proof.Machine.execVfmaBf16 tg d a b s
  | .vminBf16 tg d a b => Sys2Proof.Machine.execVminBf16 tg d a b s
  | .vmaxBf16 tg d a b => Sys2Proof.Machine.execVmaxBf16 tg d a b s
  | .vaddF16 tg d a b => Sys2Proof.Machine.execVaddF16 tg d a b s
  | .vmulF16 tg d a b => Sys2Proof.Machine.execVmulF16 tg d a b s
  | .vfmaF16 tg d a b => Sys2Proof.Machine.execVfmaF16 tg d a b s
  | .vaddI32 tg d a b => Sys2Proof.Machine.execVaddI32 tg d a b s
  | .vsubI32 tg d a b => Sys2Proof.Machine.execVsubI32 tg d a b s
  | .vmulI32 tg d a b => Sys2Proof.Machine.execVmulI32 tg d a b s
  | .vaddsI32 tg d a b => Sys2Proof.Machine.execVaddsI32 tg d a b s
  | .vminI32 tg d a b => Sys2Proof.Machine.execVminI32 tg d a b s
  | .vmaxI32 tg d a b => Sys2Proof.Machine.execVmaxI32 tg d a b s
  | .vaddI16 tg d a b => Sys2Proof.Machine.execVaddI16 tg d a b s
  | .vsubI16 tg d a b => Sys2Proof.Machine.execVsubI16 tg d a b s
  | .vmulI16 tg d a b => Sys2Proof.Machine.execVmulI16 tg d a b s
  | .vaddsI16 tg d a b => Sys2Proof.Machine.execVaddsI16 tg d a b s
  | .vaddI8 tg d a b => Sys2Proof.Machine.execVaddI8 tg d a b s
  | .vsubI8 tg d a b => Sys2Proof.Machine.execVsubI8 tg d a b s
  | .vaddsI8 tg d a b => Sys2Proof.Machine.execVaddsI8 tg d a b s
  | .vcmpeqF32 tg md a b => Sys2Proof.Machine.execVcmpeqF32 tg md a b s
  | .vcmpltF32 tg md a b => Sys2Proof.Machine.execVcmpltF32 tg md a b s
  | .vcmpleF32 tg md a b => Sys2Proof.Machine.execVcmpleF32 tg md a b s
  | .vcmpeqI32 tg md a b => Sys2Proof.Machine.execVcmpeqI32 tg md a b s
  | .vcmpltI32 tg md a b => Sys2Proof.Machine.execVcmpltI32 tg md a b s
  | .vcmpleI32 tg md a b => Sys2Proof.Machine.execVcmpleI32 tg md a b s
  | .vmand tg md ma mb => Sys2Proof.Machine.execVmand tg md ma mb s
  | .vmor tg md ma mb => Sys2Proof.Machine.execVmor tg md ma mb s
  | .vmxor tg md ma mb => Sys2Proof.Machine.execVmxor tg md ma mb s
  | .vmovm tg md a => Sys2Proof.Machine.execVmovm tg md a s
  | .vsel tg d a b => Sys2Proof.Machine.execVsel tg d a b s
  | .vand tg d a b => Sys2Proof.Machine.execVand tg d a b s
  | .vor tg d a b => Sys2Proof.Machine.execVor tg d a b s
  | .vxor tg d a b => Sys2Proof.Machine.execVxor tg d a b s
  | .vshlI32 tg d a b => Sys2Proof.Machine.execVshlI32 tg d a b s
  | .vshrI32 tg d a b => Sys2Proof.Machine.execVshrI32 tg d a b s
  | .vsraI32 tg d a b => Sys2Proof.Machine.execVsraI32 tg d a b s
  | .vcvt tg d a sf df => Sys2Proof.Machine.execVcvt tg d a sf df s
  | .vcvtSr tg d a sf df => Sys2Proof.Machine.execVcvtSr tg d a sf df s
  | .vpack tg d a f => Sys2Proof.Machine.execVpack tg d a f s
  | .vunpk tg d a f => Sys2Proof.Machine.execVunpk tg d a f s
  | .vredAddF32 tg d a => Sys2Proof.Machine.execVredAddF32 tg d a s
  | .vredMinF32 tg d a => Sys2Proof.Machine.execVredMinF32 tg d a s
  | .vredMaxF32 tg d a => Sys2Proof.Machine.execVredMaxF32 tg d a s
  | .vredAddI32 tg d a => Sys2Proof.Machine.execVredAddI32 tg d a s
  | .vscanAddF32 tg d a => Sys2Proof.Machine.execVscanAddF32 tg d a s
  | .vscanAddI32 tg d a => Sys2Proof.Machine.execVscanAddI32 tg d a s
  | .vperm tg d a b => Sys2Proof.Machine.execVperm tg d a b s
  | .vbcast tg d a imm => Sys2Proof.Machine.execVbcast tg d a imm s
  | .vsplat tg d a => Sys2Proof.Machine.execVsplat tg d a s
  | .vpart tg d ma sd => Sys2Proof.Machine.execVpart tg d ma sd s
  | .vexp2 tg d a => Sys2Proof.Machine.execVexp2 tg d a s
  | .vlog2 tg d a => Sys2Proof.Machine.execVlog2 tg d a s
  | .vrcp tg d a => Sys2Proof.Machine.execVrcp tg d a s
  | .vrsq tg d a => Sys2Proof.Machine.execVrsq tg d a s
  | .vrand tg d => Sys2Proof.Machine.execVrand tg d s
  | .vld tg d w a => Sys2Proof.Machine.execVld tg d w a s
  | .vst tg d w a => Sys2Proof.Machine.execVst tg d w a s
  | .sld tg d w a => Sys2Proof.Machine.execSld tg d w a s
  | .sst tg d w a => Sys2Proof.Machine.execSst tg d w a s
  | .sldd tg d w a => Sys2Proof.Machine.execSldd tg d w a s
  | .sstd tg d w a => Sys2Proof.Machine.execSstd tg d w a s
  | .vlds tg d w a l => Sys2Proof.Machine.execVlds tg d w a l s
  | .vsts tg d w a l => Sys2Proof.Machine.execVsts tg d w a l s
  | .vldg tg d w vi => Sys2Proof.Machine.execVldg tg d w vi s
  | .vstg tg d w vi => Sys2Proof.Machine.execVstg tg d w vi s
  | .vldm tg md w a => Sys2Proof.Machine.execVldm tg md w a s
  | .vstm tg d w a mk => Sys2Proof.Machine.execVstm tg d w a mk s
  | .aadd tg d w a => Sys2Proof.Machine.execAadd tg d w a s
  | .aaddF32 tg d w a => Sys2Proof.Machine.execAaddF32 tg d w a s
  | .amin tg d w a => Sys2Proof.Machine.execAmin tg d w a s
  | .amax tg d w a => Sys2Proof.Machine.execAmax tg d w a s
  | .axchg tg d w a => Sys2Proof.Machine.execAxchg tg d w a s
  | .acas tg d w a => Sys2Proof.Machine.execAcas tg d w a s
  | .pfxld tg d w a => Sys2Proof.Machine.execPfxld tg d w a s
  | .mcfg tg cr a => Sys2Proof.Machine.execMcfg tg cr a s
  | .mcfgl tg cr l => Sys2Proof.Machine.execMcfgl tg cr l s
  | .mnest tg => Sys2Proof.Machine.execMnest tg s
  | .accinit tg t a => Sys2Proof.Machine.execAccinit tg t a s
  | .accinitU tg t => Sys2Proof.Machine.execAccinitU tg t s
  | .accnorm tg t a => Sys2Proof.Machine.execAccnorm tg t a s
  | .accnormRow tg t a => Sys2Proof.Machine.execAccnormRow tg t a s
  | .accrd tg d t a f => Sys2Proof.Machine.execAccrd tg d t a f s
  | .accwr tg d t a f => Sys2Proof.Machine.execAccwr tg d t a f s
  | .accscale tg t a => Sys2Proof.Machine.execAccscale tg t a s
  | .accscaleRow tg t a => Sys2Proof.Machine.execAccscaleRow tg t a s
  | .msmx tg ts tout w a => Sys2Proof.Machine.execMsmx tg ts tout w a s
  | .mchk tg mode => Sys2Proof.Machine.execMchk tg mode s
  | .accst tg d t a => Sys2Proof.Machine.execAccst tg d t a s
  | .accexp tg d t a => Sys2Proof.Machine.execAccexp tg d t a s
  | .accloss tg d t a => Sys2Proof.Machine.execAccloss tg d t a s
  | .acclog tg d t a => Sys2Proof.Machine.execAcclog tg d t a s
  | .accside tg d t a => Sys2Proof.Machine.execAccside tg d t a s
  | .mcfgrd tg cr a => Sys2Proof.Machine.execMcfgrd tg cr a s
  | .xcopy tg kd a l => Sys2Proof.Machine.execXcopy tg kd a l s
  | .xlin tg kd a l => Sys2Proof.Machine.execXlin tg kd a l s
  | .xidx tg a => Sys2Proof.Machine.execXidx tg a s
  | .xgath tg kd a l => Sys2Proof.Machine.execXgath tg kd a l s
  | .xscat tg kd a l => Sys2Proof.Machine.execXscat tg kd a l s
  | .xmove tg op w a => Sys2Proof.Machine.execXmove tg op w a s
  | .xchain tg kd a l => Sys2Proof.Machine.execXchain tg kd a l s
  | .xstat tg d ch => Sys2Proof.Machine.execXstat tg d ch s
  | .xfence tg kd sc => Sys2Proof.Machine.execXfence tg kd sc s
  | .xred tg kd a l => Sys2Proof.Machine.execXred tg kd a l s
  | .xatom tg kd a l => Sys2Proof.Machine.execXatom tg kd a l s
  | .xredv tg kd a l => Sys2Proof.Machine.execXredv tg kd a l s
  | .xbara tg kd a l => Sys2Proof.Machine.execXbara tg kd a l s
  | .xbarw tg kd a l => Sys2Proof.Machine.execXbarw tg kd a l s
  | .xallr tg kd a l => Sys2Proof.Machine.execXallr tg kd a l s
  | .xrdsc tg kd a l => Sys2Proof.Machine.execXrdsc tg kd a l s
  | .xallg tg kd a l => Sys2Proof.Machine.execXallg tg kd a l s
  | .xbcst tg kd a l => Sys2Proof.Machine.execXbcst tg kd a l s
  | .xpcnt tg d a => Sys2Proof.Machine.execXpcnt tg d a s
  | .xpcan tg kd a l => Sys2Proof.Machine.execXpcan tg kd a l s
  | .xmvb tg kd a l => Sys2Proof.Machine.execXmvb tg kd a l s
  | .xlaunch tg kd a l => Sys2Proof.Machine.execXlaunch tg kd a l s
  | .xckpt tg kd a l => Sys2Proof.Machine.execXckpt tg kd a l s
  | .xhadd tg kd a l => Sys2Proof.Machine.execXhadd tg kd a l s
  | .xhdel tg kd a l => Sys2Proof.Machine.execXhdel tg kd a l s
  | .xsend tg kd a l => Sys2Proof.Machine.execXsend tg kd a l s
  | .xrecv tg kd a l => Sys2Proof.Machine.execXrecv tg kd a l s
  | .xsig tg kd a l => Sys2Proof.Machine.execXsig tg kd a l s
  | .portUp => Sys2Proof.Machine.execPortUp s
  | .entropyHealthTest => Sys2Proof.Machine.execEntropyHealthTest s
  | .idleClkCharge => Sys2Proof.Machine.execIdleClkCharge s

end Sys2Proof.Machine
end

