-- ==== Sys2Proof/Machine/Idle.lean ====
section
/-! DEFINITION. What the engines and Vizin do of their own accord when the agenda is empty (notes/assumptions/3.md), and how a
program is placed for the next clk (notes/assumptions/8.md). -/

namespace Sys2Proof.Machine

/-- The events that may bring one transfer forward. A transfer that waits for a retained die is left to RETAINED_WAIT. -/
def xferEvents (s : State) (t : Xfer) : List (Instr × Subject) :=
  if t.round ≠ 0 then []
  else
    let n := ((List.range (s.goal t)).find? fun i => !t.pieces.contains i).getD 0
    let at_ (i : Instr) : Instr × Subject := (i, { core := t.core, x := t.x, index := n })
    [at_ .transferStart, at_ .transferPiecePerform, at_ .indexRowMove, at_ .writeQueueAccept, at_ .reductionBarrierSend]
      ++ [at_ .hutchPack, at_ .hutchUnpack, at_ .hutchConvert, at_ .hutchReblock, at_ .hutchTranspose, at_ .hutchDpenc, at_ .hutchDpdec]
      ++ [at_ .xmvbOutput, at_ .checkpointWrite, at_ .seedreqComplete, at_ .transferComplete]

/-- The events that may bring a launch forward. -/
def launchEvents (l : Launch) : List (Instr × Subject) :=
  (l.pending.flatMap fun n =>
    [.taskNodeActivate, .condNodeActivate, .whileNodeActivate, .joinNodeActivate, .endNodeActivate].map fun (i : Instr) =>
      (i, ({ lnum := l.num, node := n } : Subject))) ++ [(.completionRecord, { lnum := l.num })]

/-- The events that may bring a cluster forward. -/
def clusterEvents (c : Nat) (k : Cluster) : List (Instr × Subject) :=
  (if k.walk = [] then [] else [(.instanceEnqueue, { cluster := c })])
    ++ (if k.queue.any fun q => q.2.st == .ready then [(.instanceBind, { cluster := c })] else [])
    ++ k.slots.flatMap fun e =>
      (if e.2.entry.isSome then [(.dispatchGo, { cluster := c, entry := e.1 })] else [])
        ++ (if e.2.dst = .loading then [(.loadingEnd, { cluster := c, entry := e.1 })] else [])

/-- The contexts whose task has ended. -/
def coreEvents (s : State) (c : Nat) (k : Core) : List (Instr × Subject) :=
  (k.xfers.flatMap (xferEvents s)) ++ (List.finRange 4).filterMap fun x =>
    if (k.ctx x).ended.isSome then some (.taskComplete, { core := c, ctx := x.val }) else none

/-- What an idle module could do. -/
def State.candidates (s : State) : List (Instr × Subject) :=
  (s.cores.flatMap fun e => coreEvents s e.1 e.2)
    ++ (s.subqs.flatMap fun q => if q.2.head ≠ q.2.tail then [(.launchAccept, ({ queue := q.1 } : Subject))] else [])
    ++ (if s.xlaunches = [] then [] else [(.launchAccept, { queue := 64 })])
    ++ s.launches.flatMap launchEvents ++ s.clusters.flatMap fun c => clusterEvents c.1 c.2

/-- The first event of an idle module that changes anything. -/
def State.idle (s : State) : Option (Instr × Subject) :=
  s.candidates.find? fun p =>
    match exec p.1 { s with ev := p.2 } with
    | .next t => decide (t ≠ { s with ev := p.2 })
    | _ => false

/-! ### Placing a program -/

/-- A bundle that holds one syllable word: the NOP of slot X follows a word that is not the last, fifteen literals of 0 stand
ready, and SYNC stands in a sync bundle. A word of slot X is always the last. -/
def wordBundle (w : W32) : Bundle :=
  { tmpl := if isSyncWord w then 1 else 0, rep := 0, clr := 0, rsv := 0
    syls := if wordStop w then [w] else if wordSlot w = 7 then [w ||| 0x80000000#32] else [w, 0xF0000000#32]
    lits := List.replicate 15 0 }

/-- Context 0 of core 0 as it stands before its first bundle, at code address 0 in frame 0: bound, started, with the matrix
grant and every tile. -/
def placedCtx (c : Ctx) (w : W32) : Ctx :=
  { c with
    pc := 0, lsk := false, bound := true, started := true, frozen := .none, wantF := none, resumeIn := none, report := none
    ended := none, wait := [], run := none, stepBk := true, arrived := isSyncWord w
    release := if isSyncWord w then some 0 else none
    bind := { c.bind with map := c.bind.map.set 0 (mapWord 0 0), mgrant := true, tiles := 0xFF } }

/-- The machine about to issue a bundle of one word from context 0 of core 0. -/
def State.placeWord (s : State) (w : W32) : State :=
  let k := s.core 0
  let k := k.setCtx 0 (placedCtx (k.ctx 0) w)
  let d := s.die 0
  let s := s.setCore 0 { k with
    istore := k.istore.write 0 ((bundleWords (wordBundle w)).flatMap wordBytes), holder := some 0, wait := 0, ran := true, did := 0 }
  { (s.setDie 0 { d with held := false, park := .none }) with agenda := none :: s.agenda, power := { s.power with s3 := .none } }

end Sys2Proof.Machine
end

