-- ==== Sys2Proof/Machine/Step.lean ====
section
/-! DEFINITION. One step of the module: the next of the agenda, or, when nothing is scheduled, the event an idle
module makes, or one clk (notes/assumptions/2.md, 3.md). -/

namespace Sys2Proof.Machine

def step (s : State) : Host.Outcome State Fault Refusal :=
  match s.agenda with
  | some p :: l => exec p.1 { s with agenda := l, ev := p.2 }
  | none :: l => .next ({ s with agenda := l }).clk
  | [] =>
    match s.idle with
    | some p => exec p.1 { s with ev := p.2 }
    | none => .next s.clk

/-- The state with one instruction placed where the next step fetches it: the rows with an encoding are words of 32 bits. -/
def State.withFetchWord (s : State) (_nbits w : Nat) : State := s.placeWord (BitVec.ofNat 32 w)

end Sys2Proof.Machine
end

