-- ==== Sys2Proof/Laws/Encoding.lean ====
section
/-! SUPPORT. The encoder and the decoder, form by form (R73, R76): every field of a packed operand field is read back, and
every tag of a syllable word. -/

namespace Sys2Proof

/-! ### Fields of a concatenation -/

theorem cut_high {v w : Nat} (x : BitVec v) (y : BitVec w) (s n : Nat) :
    (x ++ y).extractLsb' (w + s) n = x.extractLsb' s n := by
  rw [BitVec.extractLsb'_append_eq_of_le (Nat.le_add_right w s), Nat.add_sub_cancel_left]

theorem cut_low {v w : Nat} (x : BitVec v) (y : BitVec w) : (x ++ y).extractLsb' 0 w = y := by
  rw [BitVec.extractLsb'_append_eq_of_add_le (Nat.le_of_eq (Nat.zero_add w)), BitVec.extractLsb'_eq_self]

/-- One bit, as a field of one. -/
theorem bit_eq_cut {n : Nat} (w : BitVec n) (i : Nat) : w.getLsbD i = (w.extractLsb' i 1).getLsbD 0 := by simp

/-! ### The operand forms of R76 -/

theorem unpack_packDAB (d : BitVec 5) (a : BitVec 5) (b : BitVec 5) (k : BitVec 5 → BitVec 5 → BitVec 5 → Instr) : unpackDAB (packDAB d a b) k = .ok (k d a b) := by
  have h0 : (packDAB d a b).extractLsb' 11 5 = d := (cut_high _ _ 10 5).trans ((cut_high _ _ 5 5).trans ((cut_high _ _ 0 5).trans BitVec.extractLsb'_eq_self))
  have h1 : (packDAB d a b).extractLsb' 6 5 = a := (cut_high _ _ 5 5).trans ((cut_high _ _ 0 5).trans (cut_low _ _))
  have h2 : (packDAB d a b).extractLsb' 1 5 = b := (cut_high _ _ 0 5).trans (cut_low _ _)
  have h3 : (packDAB d a b).extractLsb' 0 1 = 0#1 := cut_low _ _
  simp [unpackDAB, h0, h1, h2, h3]

theorem unpack_packDAI (d : BitVec 5) (a : BitVec 5) (imm : BitVec 6) (k : BitVec 5 → BitVec 5 → BitVec 6 → Instr) : unpackDAI (packDAI d a imm) k = .ok (k d a imm) := by
  have h0 : (packDAI d a imm).extractLsb' 11 5 = d := (cut_high _ _ 5 5).trans ((cut_high _ _ 0 5).trans BitVec.extractLsb'_eq_self)
  have h1 : (packDAI d a imm).extractLsb' 6 5 = a := (cut_high _ _ 0 5).trans (cut_low _ _)
  have h2 : (packDAI d a imm).extractLsb' 0 6 = imm := cut_low _ _
  simp [unpackDAI, h0, h1, h2]

theorem unpack_packDAL (d : BitVec 5) (a : BitVec 5) (l : BitVec 4) (k : BitVec 5 → BitVec 5 → BitVec 4 → Instr) : unpackDAL (packDAL d a l) k = .ok (k d a l) := by
  have h0 : (packDAL d a l).extractLsb' 11 5 = d := (cut_high _ _ 9 5).trans ((cut_high _ _ 5 5).trans ((cut_high _ _ 0 5).trans BitVec.extractLsb'_eq_self))
  have h1 : (packDAL d a l).extractLsb' 6 5 = a := (cut_high _ _ 4 5).trans ((cut_high _ _ 0 5).trans (cut_low _ _))
  have h2 : (packDAL d a l).extractLsb' 2 4 = l := (cut_high _ _ 0 4).trans (cut_low _ _)
  have h3 : (packDAL d a l).extractLsb' 0 2 = 0#2 := cut_low _ _
  simp [unpackDAL, h0, h1, h2, h3]

theorem unpack_packDI (d : BitVec 5) (imm : BitVec 11) (k : BitVec 5 → BitVec 11 → Instr) : unpackDI (packDI d imm) k = .ok (k d imm) := by
  have h0 : (packDI d imm).extractLsb' 11 5 = d := (cut_high _ _ 0 5).trans BitVec.extractLsb'_eq_self
  have h1 : (packDI d imm).extractLsb' 0 11 = imm := cut_low _ _
  simp [unpackDI, h0, h1]

theorem unpack_packDL (d : BitVec 5) (l : BitVec 4) (k : BitVec 5 → BitVec 4 → Instr) : unpackDL (packDL d l) k = .ok (k d l) := by
  have h0 : (packDL d l).extractLsb' 11 5 = d := (cut_high _ _ 4 5).trans ((cut_high _ _ 0 5).trans BitVec.extractLsb'_eq_self)
  have h1 : (packDL d l).extractLsb' 7 4 = l := (cut_high _ _ 0 4).trans (cut_low _ _)
  have h2 : (packDL d l).extractLsb' 0 7 = 0#7 := cut_low _ _
  simp [unpackDL, h0, h1, h2]

theorem unpack_packDA (d : BitVec 5) (a : BitVec 5) (k : BitVec 5 → BitVec 5 → Instr) : unpackDA (packDA d a) k = .ok (k d a) := by
  have h0 : (packDA d a).extractLsb' 11 5 = d := (cut_high _ _ 5 5).trans ((cut_high _ _ 0 5).trans BitVec.extractLsb'_eq_self)
  have h1 : (packDA d a).extractLsb' 6 5 = a := (cut_high _ _ 0 5).trans (cut_low _ _)
  have h2 : (packDA d a).extractLsb' 0 6 = 0#6 := cut_low _ _
  simp [unpackDA, h0, h1, h2]

theorem unpack_packPAB (pd : BitVec 3) (a : BitVec 5) (b : BitVec 5) (k : BitVec 3 → BitVec 5 → BitVec 5 → Instr) : unpackPAB (packPAB pd a b) k = .ok (k pd a b) := by
  have h0 : (packPAB pd a b).extractLsb' 13 3 = pd := (cut_high _ _ 10 3).trans ((cut_high _ _ 5 3).trans ((cut_high _ _ 0 3).trans BitVec.extractLsb'_eq_self))
  have h1 : (packPAB pd a b).extractLsb' 8 5 = a := (cut_high _ _ 5 5).trans ((cut_high _ _ 0 5).trans (cut_low _ _))
  have h2 : (packPAB pd a b).extractLsb' 3 5 = b := (cut_high _ _ 0 5).trans (cut_low _ _)
  have h3 : (packPAB pd a b).extractLsb' 0 3 = 0#3 := cut_low _ _
  simp [unpackPAB, h0, h1, h2, h3]

theorem unpack_packPAI (pd : BitVec 3) (a : BitVec 5) (imm : BitVec 8) (k : BitVec 3 → BitVec 5 → BitVec 8 → Instr) : unpackPAI (packPAI pd a imm) k = .ok (k pd a imm) := by
  have h0 : (packPAI pd a imm).extractLsb' 13 3 = pd := (cut_high _ _ 5 3).trans ((cut_high _ _ 0 3).trans BitVec.extractLsb'_eq_self)
  have h1 : (packPAI pd a imm).extractLsb' 8 5 = a := (cut_high _ _ 0 5).trans (cut_low _ _)
  have h2 : (packPAI pd a imm).extractLsb' 0 8 = imm := cut_low _ _
  simp [unpackPAI, h0, h1, h2]

theorem unpack_packPPP (pd : BitVec 3) (pa : BitVec 3) (pb : BitVec 3) (na : BitVec 1) (nb : BitVec 1) (k : BitVec 3 → BitVec 3 → BitVec 3 → BitVec 1 → BitVec 1 → Instr) : unpackPPP (packPPP pd pa pb na nb) k = .ok (k pd pa pb na nb) := by
  have h0 : (packPPP pd pa pb na nb).extractLsb' 13 3 = pd := (cut_high _ _ 8 3).trans ((cut_high _ _ 7 3).trans ((cut_high _ _ 6 3).trans ((cut_high _ _ 3 3).trans ((cut_high _ _ 0 3).trans BitVec.extractLsb'_eq_self))))
  have h1 : (packPPP pd pa pb na nb).extractLsb' 10 3 = pa := (cut_high _ _ 5 3).trans ((cut_high _ _ 4 3).trans ((cut_high _ _ 3 3).trans ((cut_high _ _ 0 3).trans (cut_low _ _))))
  have h2 : (packPPP pd pa pb na nb).extractLsb' 7 3 = pb := (cut_high _ _ 2 3).trans ((cut_high _ _ 1 3).trans ((cut_high _ _ 0 3).trans (cut_low _ _)))
  have h3 : (packPPP pd pa pb na nb).extractLsb' 6 1 = na := (cut_high _ _ 1 1).trans ((cut_high _ _ 0 1).trans (cut_low _ _))
  have h4 : (packPPP pd pa pb na nb).extractLsb' 5 1 = nb := (cut_high _ _ 0 1).trans (cut_low _ _)
  have h5 : (packPPP pd pa pb na nb).extractLsb' 0 5 = 0#5 := cut_low _ _
  simp [unpackPPP, h0, h1, h2, h3, h4, h5]

theorem unpack_packBO (off : BitVec 16) (k : BitVec 16 → Instr) : unpackBO (packBO off) k = .ok (k off) := by
  simp [unpackBO, packBO]

theorem unpack_packA (a : BitVec 5) (k : BitVec 5 → Instr) : unpackA (packA a) k = .ok (k a) := by
  have h0 : (packA a).extractLsb' 11 5 = 0#5 := (cut_high _ _ 5 5).trans ((cut_high _ _ 0 5).trans BitVec.extractLsb'_eq_self)
  have h1 : (packA a).extractLsb' 6 5 = a := (cut_high _ _ 0 5).trans (cut_low _ _)
  have h2 : (packA a).extractLsb' 0 6 = 0#6 := cut_low _ _
  simp [unpackA, h0, h1, h2]

theorem unpack_packZ (k : Instr) : unpackZ packZ k = .ok (k) := by
  simp [unpackZ, packZ]

theorem unpack_packBL (l : BitVec 4) (k : BitVec 4 → Instr) : unpackBL (packBL l) k = .ok (k l) := by
  have h0 : (packBL l).extractLsb' 12 4 = l := (cut_high _ _ 0 4).trans BitVec.extractLsb'_eq_self
  have h1 : (packBL l).extractLsb' 0 12 = 0#12 := cut_low _ _
  simp [unpackBL, h0, h1]

theorem unpack_packLP (ns : BitVec 2) (a : BitVec 5) (k : BitVec 2 → BitVec 5 → Instr) : unpackLP (packLP ns a) k = .ok (k ns a) := by
  have h0 : (packLP ns a).extractLsb' 14 2 = ns := (cut_high _ _ 5 2).trans ((cut_high _ _ 0 2).trans BitVec.extractLsb'_eq_self)
  have h1 : (packLP ns a).extractLsb' 9 5 = a := (cut_high _ _ 0 5).trans (cut_low _ _)
  have h2 : (packLP ns a).extractLsb' 0 9 = 0#9 := cut_low _ _
  simp [unpackLP, h0, h1, h2]

theorem unpack_packKW (ka : BitVec 6) (kb : BitVec 6) (k : BitVec 6 → BitVec 6 → Instr) : unpackKW (packKW ka kb) k = .ok (k ka kb) := by
  have h0 : (packKW ka kb).extractLsb' 10 6 = ka := (cut_high _ _ 6 6).trans ((cut_high _ _ 0 6).trans BitVec.extractLsb'_eq_self)
  have h1 : (packKW ka kb).extractLsb' 4 6 = kb := (cut_high _ _ 0 6).trans (cut_low _ _)
  have h2 : (packKW ka kb).extractLsb' 0 4 = 0#4 := cut_low _ _
  simp [unpackKW, h0, h1, h2]

theorem unpack_packTC (code : BitVec 10) (k : BitVec 10 → Instr) : unpackTC (packTC code) k = .ok (k code) := by
  have h0 : (packTC code).extractLsb' 6 10 = code := (cut_high _ _ 0 10).trans BitVec.extractLsb'_eq_self
  have h1 : (packTC code).extractLsb' 0 6 = 0#6 := cut_low _ _
  simp [unpackTC, h0, h1]

theorem unpack_packSY (d : BitVec 5) (sr : BitVec 8) (k : BitVec 5 → BitVec 8 → Instr) : unpackSY (packSY d sr) k = .ok (k d sr) := by
  have h0 : (packSY d sr).extractLsb' 11 5 = d := (cut_high _ _ 8 5).trans ((cut_high _ _ 0 5).trans BitVec.extractLsb'_eq_self)
  have h1 : (packSY d sr).extractLsb' 3 8 = sr := (cut_high _ _ 0 8).trans (cut_low _ _)
  have h2 : (packSY d sr).extractLsb' 0 3 = 0#3 := cut_low _ _
  simp [unpackSY, h0, h1, h2]

theorem unpack_packD (d : BitVec 5) (k : BitVec 5 → Instr) : unpackD (packD d) k = .ok (k d) := by
  have h0 : (packD d).extractLsb' 11 5 = d := (cut_high _ _ 0 5).trans BitVec.extractLsb'_eq_self
  have h1 : (packD d).extractLsb' 0 11 = 0#11 := cut_low _ _
  simp [unpackD, h0, h1]

theorem unpack_packDK (d : BitVec 5) (kd : BitVec 6) (k : BitVec 5 → BitVec 6 → Instr) : unpackDK (packDK d kd) k = .ok (k d kd) := by
  have h0 : (packDK d kd).extractLsb' 11 5 = d := (cut_high _ _ 6 5).trans ((cut_high _ _ 0 5).trans BitVec.extractLsb'_eq_self)
  have h1 : (packDK d kd).extractLsb' 5 6 = kd := (cut_high _ _ 0 6).trans (cut_low _ _)
  have h2 : (packDK d kd).extractLsb' 0 5 = 0#5 := cut_low _ _
  simp [unpackDK, h0, h1, h2]

theorem unpack_packMAB (md : BitVec 3) (a : BitVec 5) (b : BitVec 5) (k : BitVec 3 → BitVec 5 → BitVec 5 → Instr) : unpackMAB (packMAB md a b) k = .ok (k md a b) := by
  have h0 : (packMAB md a b).extractLsb' 13 3 = md := (cut_high _ _ 10 3).trans ((cut_high _ _ 5 3).trans ((cut_high _ _ 0 3).trans BitVec.extractLsb'_eq_self))
  have h1 : (packMAB md a b).extractLsb' 8 5 = a := (cut_high _ _ 5 5).trans ((cut_high _ _ 0 5).trans (cut_low _ _))
  have h2 : (packMAB md a b).extractLsb' 3 5 = b := (cut_high _ _ 0 5).trans (cut_low _ _)
  have h3 : (packMAB md a b).extractLsb' 0 3 = 0#3 := cut_low _ _
  simp [unpackMAB, h0, h1, h2, h3]

theorem unpack_packMMM (md : BitVec 3) (ma : BitVec 3) (mb : BitVec 3) (k : BitVec 3 → BitVec 3 → BitVec 3 → Instr) : unpackMMM (packMMM md ma mb) k = .ok (k md ma mb) := by
  have h0 : (packMMM md ma mb).extractLsb' 13 3 = md := (cut_high _ _ 6 3).trans ((cut_high _ _ 3 3).trans ((cut_high _ _ 0 3).trans BitVec.extractLsb'_eq_self))
  have h1 : (packMMM md ma mb).extractLsb' 10 3 = ma := (cut_high _ _ 3 3).trans ((cut_high _ _ 0 3).trans (cut_low _ _))
  have h2 : (packMMM md ma mb).extractLsb' 7 3 = mb := (cut_high _ _ 0 3).trans (cut_low _ _)
  have h3 : (packMMM md ma mb).extractLsb' 0 7 = 0#7 := cut_low _ _
  simp [unpackMMM, h0, h1, h2, h3]

theorem unpack_packMSC (md : BitVec 3) (a : BitVec 5) (k : BitVec 3 → BitVec 5 → Instr) : unpackMSC (packMSC md a) k = .ok (k md a) := by
  have h0 : (packMSC md a).extractLsb' 13 3 = md := (cut_high _ _ 5 3).trans ((cut_high _ _ 0 3).trans BitVec.extractLsb'_eq_self)
  have h1 : (packMSC md a).extractLsb' 8 5 = a := (cut_high _ _ 0 5).trans (cut_low _ _)
  have h2 : (packMSC md a).extractLsb' 0 8 = 0#8 := cut_low _ _
  simp [unpackMSC, h0, h1, h2]

theorem unpack_packVCV (d : BitVec 5) (a : BitVec 5) (sf : BitVec 3) (df : BitVec 3) (k : BitVec 5 → BitVec 5 → BitVec 3 → BitVec 3 → Instr) : unpackVCV (packVCV d a sf df) k = .ok (k d a sf df) := by
  have h0 : (packVCV d a sf df).extractLsb' 11 5 = d := (cut_high _ _ 8 5).trans ((cut_high _ _ 5 5).trans ((cut_high _ _ 0 5).trans BitVec.extractLsb'_eq_self))
  have h1 : (packVCV d a sf df).extractLsb' 6 5 = a := (cut_high _ _ 3 5).trans ((cut_high _ _ 0 5).trans (cut_low _ _))
  have h2 : (packVCV d a sf df).extractLsb' 3 3 = sf := (cut_high _ _ 0 3).trans (cut_low _ _)
  have h3 : (packVCV d a sf df).extractLsb' 0 3 = df := cut_low _ _
  simp [unpackVCV, h0, h1, h2, h3]

theorem unpack_packVPK (d : BitVec 5) (a : BitVec 5) (f : BitVec 2) (k : BitVec 5 → BitVec 5 → BitVec 2 → Instr) : unpackVPK (packVPK d a f) k = .ok (k d a f) := by
  have h0 : (packVPK d a f).extractLsb' 11 5 = d := (cut_high _ _ 7 5).trans ((cut_high _ _ 5 5).trans ((cut_high _ _ 0 5).trans BitVec.extractLsb'_eq_self))
  have h1 : (packVPK d a f).extractLsb' 6 5 = a := (cut_high _ _ 2 5).trans ((cut_high _ _ 0 5).trans (cut_low _ _))
  have h2 : (packVPK d a f).extractLsb' 4 2 = f := (cut_high _ _ 0 2).trans (cut_low _ _)
  have h3 : (packVPK d a f).extractLsb' 0 4 = 0#4 := cut_low _ _
  simp [unpackVPK, h0, h1, h2, h3]

theorem unpack_packVS (d : BitVec 5) (a : BitVec 5) (k : BitVec 5 → BitVec 5 → Instr) : unpackVS (packVS d a) k = .ok (k d a) := by
  have h0 : (packVS d a).extractLsb' 11 5 = d := (cut_high _ _ 5 5).trans ((cut_high _ _ 0 5).trans BitVec.extractLsb'_eq_self)
  have h1 : (packVS d a).extractLsb' 6 5 = a := (cut_high _ _ 0 5).trans (cut_low _ _)
  have h2 : (packVS d a).extractLsb' 0 6 = 0#6 := cut_low _ _
  simp [unpackVS, h0, h1, h2]

theorem unpack_packVPT (d : BitVec 5) (ma : BitVec 3) (sd : BitVec 5) (k : BitVec 5 → BitVec 3 → BitVec 5 → Instr) : unpackVPT (packVPT d ma sd) k = .ok (k d ma sd) := by
  have h0 : (packVPT d ma sd).extractLsb' 11 5 = d := (cut_high _ _ 8 5).trans ((cut_high _ _ 3 5).trans ((cut_high _ _ 0 5).trans BitVec.extractLsb'_eq_self))
  have h1 : (packVPT d ma sd).extractLsb' 8 3 = ma := (cut_high _ _ 5 3).trans ((cut_high _ _ 0 3).trans (cut_low _ _))
  have h2 : (packVPT d ma sd).extractLsb' 3 5 = sd := (cut_high _ _ 0 5).trans (cut_low _ _)
  have h3 : (packVPT d ma sd).extractLsb' 0 3 = 0#3 := cut_low _ _
  simp [unpackVPT, h0, h1, h2, h3]

theorem unpack_packLM (d : BitVec 5) (w : BitVec 3) (a : BitVec 5) (k : BitVec 5 → BitVec 3 → BitVec 5 → Instr) : unpackLM (packLM d w a) k = .ok (k d w a) := by
  have h0 : (packLM d w a).extractLsb' 11 5 = d := (cut_high _ _ 8 5).trans ((cut_high _ _ 3 5).trans ((cut_high _ _ 0 5).trans BitVec.extractLsb'_eq_self))
  have h1 : (packLM d w a).extractLsb' 8 3 = w := (cut_high _ _ 5 3).trans ((cut_high _ _ 0 3).trans (cut_low _ _))
  have h2 : (packLM d w a).extractLsb' 3 5 = a := (cut_high _ _ 0 5).trans (cut_low _ _)
  have h3 : (packLM d w a).extractLsb' 0 3 = 0#3 := cut_low _ _
  simp [unpackLM, h0, h1, h2, h3]

theorem unpack_packLML (d : BitVec 5) (w : BitVec 3) (a : BitVec 5) (l : BitVec 3) (k : BitVec 5 → BitVec 3 → BitVec 5 → BitVec 3 → Instr) : unpackLML (packLML d w a l) k = .ok (k d w a l) := by
  have h0 : (packLML d w a l).extractLsb' 11 5 = d := (cut_high _ _ 8 5).trans ((cut_high _ _ 3 5).trans ((cut_high _ _ 0 5).trans BitVec.extractLsb'_eq_self))
  have h1 : (packLML d w a l).extractLsb' 8 3 = w := (cut_high _ _ 5 3).trans ((cut_high _ _ 0 3).trans (cut_low _ _))
  have h2 : (packLML d w a l).extractLsb' 3 5 = a := (cut_high _ _ 0 5).trans (cut_low _ _)
  have h3 : (packLML d w a l).extractLsb' 0 3 = l := cut_low _ _
  simp [unpackLML, h0, h1, h2, h3]

theorem unpack_packLG (d : BitVec 5) (w : BitVec 3) (vi : BitVec 5) (k : BitVec 5 → BitVec 3 → BitVec 5 → Instr) : unpackLG (packLG d w vi) k = .ok (k d w vi) := by
  have h0 : (packLG d w vi).extractLsb' 11 5 = d := (cut_high _ _ 8 5).trans ((cut_high _ _ 3 5).trans ((cut_high _ _ 0 5).trans BitVec.extractLsb'_eq_self))
  have h1 : (packLG d w vi).extractLsb' 8 3 = w := (cut_high _ _ 5 3).trans ((cut_high _ _ 0 3).trans (cut_low _ _))
  have h2 : (packLG d w vi).extractLsb' 3 5 = vi := (cut_high _ _ 0 5).trans (cut_low _ _)
  have h3 : (packLG d w vi).extractLsb' 0 3 = 0#3 := cut_low _ _
  simp [unpackLG, h0, h1, h2, h3]

theorem unpack_packLMM (md : BitVec 3) (w : BitVec 3) (a : BitVec 5) (k : BitVec 3 → BitVec 3 → BitVec 5 → Instr) : unpackLMM (packLMM md w a) k = .ok (k md w a) := by
  have h0 : (packLMM md w a).extractLsb' 13 3 = md := (cut_high _ _ 8 3).trans ((cut_high _ _ 3 3).trans ((cut_high _ _ 0 3).trans BitVec.extractLsb'_eq_self))
  have h1 : (packLMM md w a).extractLsb' 10 3 = w := (cut_high _ _ 5 3).trans ((cut_high _ _ 0 3).trans (cut_low _ _))
  have h2 : (packLMM md w a).extractLsb' 5 5 = a := (cut_high _ _ 0 5).trans (cut_low _ _)
  have h3 : (packLMM md w a).extractLsb' 0 5 = 0#5 := cut_low _ _
  simp [unpackLMM, h0, h1, h2, h3]

theorem unpack_packLMK (d : BitVec 5) (w : BitVec 3) (a : BitVec 5) (mk : BitVec 3) (k : BitVec 5 → BitVec 3 → BitVec 5 → BitVec 3 → Instr) : unpackLMK (packLMK d w a mk) k = .ok (k d w a mk) := by
  have h0 : (packLMK d w a mk).extractLsb' 11 5 = d := (cut_high _ _ 8 5).trans ((cut_high _ _ 3 5).trans ((cut_high _ _ 0 5).trans BitVec.extractLsb'_eq_self))
  have h1 : (packLMK d w a mk).extractLsb' 8 3 = w := (cut_high _ _ 5 3).trans ((cut_high _ _ 0 3).trans (cut_low _ _))
  have h2 : (packLMK d w a mk).extractLsb' 3 5 = a := (cut_high _ _ 0 5).trans (cut_low _ _)
  have h3 : (packLMK d w a mk).extractLsb' 0 3 = mk := cut_low _ _
  simp [unpackLMK, h0, h1, h2, h3]

theorem unpack_packMCR (cr : BitVec 8) (a : BitVec 5) (k : BitVec 8 → BitVec 5 → Instr) : unpackMCR (packMCR cr a) k = .ok (k cr a) := by
  have h0 : (packMCR cr a).extractLsb' 8 8 = cr := (cut_high _ _ 5 8).trans ((cut_high _ _ 0 8).trans BitVec.extractLsb'_eq_self)
  have h1 : (packMCR cr a).extractLsb' 3 5 = a := (cut_high _ _ 0 5).trans (cut_low _ _)
  have h2 : (packMCR cr a).extractLsb' 0 3 = 0#3 := cut_low _ _
  simp [unpackMCR, h0, h1, h2]

theorem unpack_packMCL (cr : BitVec 8) (l : BitVec 4) (k : BitVec 8 → BitVec 4 → Instr) : unpackMCL (packMCL cr l) k = .ok (k cr l) := by
  have h0 : (packMCL cr l).extractLsb' 8 8 = cr := (cut_high _ _ 4 8).trans ((cut_high _ _ 0 8).trans BitVec.extractLsb'_eq_self)
  have h1 : (packMCL cr l).extractLsb' 4 4 = l := (cut_high _ _ 0 4).trans (cut_low _ _)
  have h2 : (packMCL cr l).extractLsb' 0 4 = 0#4 := cut_low _ _
  simp [unpackMCL, h0, h1, h2]

theorem unpack_packMT0 (t : BitVec 3) (a : BitVec 5) (k : BitVec 3 → BitVec 5 → Instr) : unpackMT0 (packMT0 t a) k = .ok (k t a) := by
  have h0 : (packMT0 t a).extractLsb' 13 3 = t := (cut_high _ _ 6 3).trans ((cut_high _ _ 1 3).trans ((cut_high _ _ 0 3).trans BitVec.extractLsb'_eq_self))
  have h1 : (packMT0 t a).extractLsb' 12 1 = 0#1 := (cut_high _ _ 5 1).trans ((cut_high _ _ 0 1).trans (cut_low _ _))
  have h2 : (packMT0 t a).extractLsb' 7 5 = a := (cut_high _ _ 0 5).trans (cut_low _ _)
  have h3 : (packMT0 t a).extractLsb' 0 7 = 0#7 := cut_low _ _
  simp [unpackMT0, h0, h1, h2, h3]

theorem unpack_packMTU (t : BitVec 3) (k : BitVec 3 → Instr) : unpackMTU (packMTU t) k = .ok (k t) := by
  have h0 : (packMTU t).extractLsb' 13 3 = t := (cut_high _ _ 1 3).trans ((cut_high _ _ 0 3).trans BitVec.extractLsb'_eq_self)
  have h1 : (packMTU t).extractLsb' 12 1 = 1#1 := (cut_high _ _ 0 1).trans (cut_low _ _)
  have h2 : (packMTU t).extractLsb' 0 12 = 0#12 := cut_low _ _
  simp [unpackMTU, h0, h1, h2]

theorem unpack_packMT1 (t : BitVec 3) (a : BitVec 5) (k : BitVec 3 → BitVec 5 → Instr) : unpackMT1 (packMT1 t a) k = .ok (k t a) := by
  have h0 : (packMT1 t a).extractLsb' 13 3 = t := (cut_high _ _ 6 3).trans ((cut_high _ _ 1 3).trans ((cut_high _ _ 0 3).trans BitVec.extractLsb'_eq_self))
  have h1 : (packMT1 t a).extractLsb' 12 1 = 1#1 := (cut_high _ _ 5 1).trans ((cut_high _ _ 0 1).trans (cut_low _ _))
  have h2 : (packMT1 t a).extractLsb' 7 5 = a := (cut_high _ _ 0 5).trans (cut_low _ _)
  have h3 : (packMT1 t a).extractLsb' 0 7 = 0#7 := cut_low _ _
  simp [unpackMT1, h0, h1, h2, h3]

theorem unpack_packMRW (d : BitVec 5) (t : BitVec 3) (a : BitVec 5) (f : BitVec 3) (k : BitVec 5 → BitVec 3 → BitVec 5 → BitVec 3 → Instr) : unpackMRW (packMRW d t a f) k = .ok (k d t a f) := by
  have h0 : (packMRW d t a f).extractLsb' 11 5 = d := (cut_high _ _ 8 5).trans ((cut_high _ _ 3 5).trans ((cut_high _ _ 0 5).trans BitVec.extractLsb'_eq_self))
  have h1 : (packMRW d t a f).extractLsb' 8 3 = t := (cut_high _ _ 5 3).trans ((cut_high _ _ 0 3).trans (cut_low _ _))
  have h2 : (packMRW d t a f).extractLsb' 3 5 = a := (cut_high _ _ 0 5).trans (cut_low _ _)
  have h3 : (packMRW d t a f).extractLsb' 0 3 = f := cut_low _ _
  simp [unpackMRW, h0, h1, h2, h3]

theorem unpack_packMSX (ts : BitVec 3) (tout : BitVec 3) (w : BitVec 3) (a : BitVec 5) (k : BitVec 3 → BitVec 3 → BitVec 3 → BitVec 5 → Instr) : unpackMSX (packMSX ts tout w a) k = .ok (k ts tout w a) := by
  have h0 : (packMSX ts tout w a).extractLsb' 13 3 = ts := (cut_high _ _ 11 3).trans ((cut_high _ _ 6 3).trans ((cut_high _ _ 3 3).trans ((cut_high _ _ 0 3).trans BitVec.extractLsb'_eq_self)))
  have h1 : (packMSX ts tout w a).extractLsb' 10 3 = tout := (cut_high _ _ 8 3).trans ((cut_high _ _ 3 3).trans ((cut_high _ _ 0 3).trans (cut_low _ _)))
  have h2 : (packMSX ts tout w a).extractLsb' 7 3 = w := (cut_high _ _ 5 3).trans ((cut_high _ _ 0 3).trans (cut_low _ _))
  have h3 : (packMSX ts tout w a).extractLsb' 2 5 = a := (cut_high _ _ 0 5).trans (cut_low _ _)
  have h4 : (packMSX ts tout w a).extractLsb' 0 2 = 0#2 := cut_low _ _
  simp [unpackMSX, h0, h1, h2, h3, h4]

theorem unpack_packMMD (mode : BitVec 2) (k : BitVec 2 → Instr) : unpackMMD (packMMD mode) k = .ok (k mode) := by
  have h0 : (packMMD mode).extractLsb' 14 2 = mode := (cut_high _ _ 0 2).trans BitVec.extractLsb'_eq_self
  have h1 : (packMMD mode).extractLsb' 0 14 = 0#14 := cut_low _ _
  simp [unpackMMD, h0, h1]

theorem unpack_packMTS (d : BitVec 5) (t : BitVec 3) (a : BitVec 5) (k : BitVec 5 → BitVec 3 → BitVec 5 → Instr) : unpackMTS (packMTS d t a) k = .ok (k d t a) := by
  have h0 : (packMTS d t a).extractLsb' 11 5 = d := (cut_high _ _ 8 5).trans ((cut_high _ _ 3 5).trans ((cut_high _ _ 0 5).trans BitVec.extractLsb'_eq_self))
  have h1 : (packMTS d t a).extractLsb' 8 3 = t := (cut_high _ _ 5 3).trans ((cut_high _ _ 0 3).trans (cut_low _ _))
  have h2 : (packMTS d t a).extractLsb' 3 5 = a := (cut_high _ _ 0 5).trans (cut_low _ _)
  have h3 : (packMTS d t a).extractLsb' 0 3 = 0#3 := cut_low _ _
  simp [unpackMTS, h0, h1, h2, h3]

theorem unpack_packXT (kd : BitVec 6) (a : BitVec 5) (l : BitVec 4) (k : BitVec 6 → BitVec 5 → BitVec 4 → Instr) : unpackXT (packXT kd a l) k = .ok (k kd a l) := by
  have h0 : (packXT kd a l).extractLsb' 10 6 = kd := (cut_high _ _ 9 6).trans ((cut_high _ _ 5 6).trans ((cut_high _ _ 0 6).trans BitVec.extractLsb'_eq_self))
  have h1 : (packXT kd a l).extractLsb' 5 5 = a := (cut_high _ _ 4 5).trans ((cut_high _ _ 0 5).trans (cut_low _ _))
  have h2 : (packXT kd a l).extractLsb' 1 4 = l := (cut_high _ _ 0 4).trans (cut_low _ _)
  have h3 : (packXT kd a l).extractLsb' 0 1 = 0#1 := cut_low _ _
  simp [unpackXT, h0, h1, h2, h3]

theorem unpack_packXP (op : BitVec 4) (w : BitVec 3) (a : BitVec 5) (k : BitVec 4 → BitVec 3 → BitVec 5 → Instr) : unpackXP (packXP op w a) k = .ok (k op w a) := by
  have h0 : (packXP op w a).extractLsb' 12 4 = op := (cut_high _ _ 9 4).trans ((cut_high _ _ 4 4).trans ((cut_high _ _ 1 4).trans ((cut_high _ _ 0 4).trans BitVec.extractLsb'_eq_self)))
  have h1 : (packXP op w a).extractLsb' 11 1 = 0#1 := (cut_high _ _ 8 1).trans ((cut_high _ _ 3 1).trans ((cut_high _ _ 0 1).trans (cut_low _ _)))
  have h2 : (packXP op w a).extractLsb' 8 3 = w := (cut_high _ _ 5 3).trans ((cut_high _ _ 0 3).trans (cut_low _ _))
  have h3 : (packXP op w a).extractLsb' 3 5 = a := (cut_high _ _ 0 5).trans (cut_low _ _)
  have h4 : (packXP op w a).extractLsb' 0 3 = 0#3 := cut_low _ _
  simp [unpackXP, h0, h1, h2, h3, h4]

theorem unpack_packXS (d : BitVec 5) (ch : BitVec 3) (k : BitVec 5 → BitVec 3 → Instr) : unpackXS (packXS d ch) k = .ok (k d ch) := by
  have h0 : (packXS d ch).extractLsb' 11 5 = d := (cut_high _ _ 3 5).trans ((cut_high _ _ 0 5).trans BitVec.extractLsb'_eq_self)
  have h1 : (packXS d ch).extractLsb' 8 3 = ch := (cut_high _ _ 0 3).trans (cut_low _ _)
  have h2 : (packXS d ch).extractLsb' 0 8 = 0#8 := cut_low _ _
  simp [unpackXS, h0, h1, h2]

theorem unpack_packXF (kd : BitVec 6) (sc : BitVec 3) (k : BitVec 6 → BitVec 3 → Instr) : unpackXF (packXF kd sc) k = .ok (k kd sc) := by
  have h0 : (packXF kd sc).extractLsb' 10 6 = kd := (cut_high _ _ 3 6).trans ((cut_high _ _ 0 6).trans BitVec.extractLsb'_eq_self)
  have h1 : (packXF kd sc).extractLsb' 7 3 = sc := (cut_high _ _ 0 3).trans (cut_low _ _)
  have h2 : (packXF kd sc).extractLsb' 0 7 = 0#7 := cut_low _ _
  simp [unpackXF, h0, h1, h2]
/-- Bit 12 tells the two forms of a tile operand apart (R76). -/
theorem bit_packMT0 (t : BitVec 3) (a : BitVec 5) : (packMT0 t a).getLsbD 12 = false := by
  have h : (packMT0 t a).extractLsb' 12 1 = 0#1 := (cut_high _ _ 5 1).trans ((cut_high _ _ 0 1).trans (cut_low _ _))
  rw [bit_eq_cut, h]; rfl

theorem bit_packMTU (t : BitVec 3) : (packMTU t).getLsbD 12 = true := by
  have h : (packMTU t).extractLsb' 12 1 = 1#1 := (cut_high _ _ 0 1).trans (cut_low _ _)
  rw [bit_eq_cut, h]; rfl

theorem bit_packMT1 (t : BitVec 3) (a : BitVec 5) : (packMT1 t a).getLsbD 12 = true := by
  have h : (packMT1 t a).extractLsb' 12 1 = 1#1 := (cut_high _ _ 5 1).trans ((cut_high _ _ 0 1).trans (cut_low _ _))
  rw [bit_eq_cut, h]; rfl

/-! ### The tag of R73 -/

section
variable (stop : Bool) (slot : BitVec 3) (inv : Bool) (pidx : BitVec 3) (opc : BitVec 8) (o : BitVec 16)

theorem wordOpnd_sylWord : wordOpnd (sylWord stop slot inv pidx opc o) = o := cut_low _ _

theorem wordOpc_sylWord : wordOpc (sylWord stop slot inv pidx opc o) = opc := (cut_high _ _ 0 8).trans (cut_low _ _)

theorem wordPidx_sylWord : wordPidx (sylWord stop slot inv pidx opc o) = pidx :=
  (cut_high _ _ 8 3).trans ((cut_high _ _ 0 3).trans (cut_low _ _))

theorem wordSlot_sylWord : wordSlot (sylWord stop slot inv pidx opc o) = slot :=
  (cut_high _ _ 12 3).trans ((cut_high _ _ 4 3).trans ((cut_high _ _ 1 3).trans ((cut_high _ _ 0 3).trans (cut_low _ _))))

theorem wordStop_sylWord : wordStop (sylWord stop slot inv pidx opc o) = stop := by
  have h : (sylWord stop slot inv pidx opc o).extractLsb' 31 1 = BitVec.ofBool stop :=
    (cut_high _ _ 15 1).trans ((cut_high _ _ 7 1).trans ((cut_high _ _ 4 1).trans ((cut_high _ _ 3 1).trans
      ((cut_high _ _ 0 1).trans BitVec.extractLsb'_eq_self))))
  rw [wordStop, bit_eq_cut, h]; cases stop <;> rfl

theorem wordInv_sylWord : wordInv (sylWord stop slot inv pidx opc o) = inv := by
  have h : (sylWord stop slot inv pidx opc o).extractLsb' 27 1 = BitVec.ofBool inv :=
    (cut_high _ _ 11 1).trans ((cut_high _ _ 3 1).trans ((cut_high _ _ 0 1).trans (cut_low _ _)))
  rw [wordInv, bit_eq_cut, h]; cases inv <;> rfl

end

theorem wordTag_tagWord (t : Tag) (slot : BitVec 3) (opc : BitVec 8) (o : BitVec 16) : wordTag (tagWord t slot opc o) = t := by
  simp [wordTag, tagWord, wordStop_sylWord, wordInv_sylWord, wordPidx_sylWord]

/-- The low bit of the slot encoding is the tag's `second` (R69). -/
theorem second_tag2Word (t : Tag2) (cls : BitVec 2) (opc : BitVec 8) (o : BitVec 16) :
    (tag2Word t cls opc o).getLsbD 28 = t.second := by
  have h : (tag2Word t cls opc o).extractLsb' 28 1 = BitVec.ofBool t.second :=
    (cut_high _ _ 12 1).trans ((cut_high _ _ 4 1).trans ((cut_high _ _ 1 1).trans ((cut_high _ _ 0 1).trans
      ((BitVec.extractLsb'_append_eq_of_add_le (by decide)).trans (cut_low _ _)))))
  rw [bit_eq_cut, h]; cases t.second <;> rfl

theorem wordTag2_tag2Word (t : Tag2) (cls : BitVec 2) (opc : BitVec 8) (o : BitVec 16) : wordTag2 (tag2Word t cls opc o) = t := by
  have h := second_tag2Word t cls opc o
  simp only [wordTag2, h]
  simp [tag2Word, wordStop_sylWord, wordInv_sylWord, wordPidx_sylWord]

/-! ### A word reaches the map of its slot (R69, R90) -/

theorem decode_scalar (t : Tag2) (opc : BitVec 8) (o : BitVec 16) (h : opc ≠ 0x00#8) :
    decodeSyl (tag2Word t 0#2 opc o) = decodeScalar t opc o := by
  unfold decodeSyl
  rw [wordTag2_tag2Word]
  unfold tag2Word
  rw [wordOpc_sylWord, if_neg h, wordOpnd_sylWord, wordSlot_sylWord]
  cases t.second <;> rfl

theorem decode_vector (t : Tag2) (opc : BitVec 8) (o : BitVec 16) (h : opc ≠ 0x00#8) :
    decodeSyl (tag2Word t 1#2 opc o) = decodeVector t opc o := by
  unfold decodeSyl
  rw [wordTag2_tag2Word]
  unfold tag2Word
  rw [wordOpc_sylWord, if_neg h, wordOpnd_sylWord, wordSlot_sylWord]
  cases t.second <;> rfl

theorem decode_local (t : Tag2) (opc : BitVec 8) (o : BitVec 16) (h : opc ≠ 0x00#8) :
    decodeSyl (tag2Word t 2#2 opc o) = decodeLocal t opc o := by
  unfold decodeSyl
  rw [wordTag2_tag2Word]
  unfold tag2Word
  rw [wordOpc_sylWord, if_neg h, wordOpnd_sylWord, wordSlot_sylWord]
  cases t.second <;> rfl

theorem decode_matrix (t : Tag) (opc : BitVec 8) (o : BitVec 16) (h : opc ≠ 0x00#8) :
    decodeSyl (tagWord t 6#3 opc o) = decodeMatrix t opc o := by
  unfold decodeSyl
  rw [wordTag_tagWord]
  unfold tagWord
  rw [wordOpc_sylWord, if_neg h, wordOpnd_sylWord, wordSlot_sylWord]
  rfl

theorem decode_async (t : Tag) (opc : BitVec 8) (o : BitVec 16) (h : opc ≠ 0x00#8) :
    decodeSyl (tagWord t 7#3 opc o) = decodeAsync t opc o := by
  unfold decodeSyl
  rw [wordTag_tagWord]
  unfold tagWord
  rw [wordOpc_sylWord, if_neg h, wordOpnd_sylWord, wordSlot_sylWord]
  rfl

theorem decode_nop (t : TagAny) (o : BitVec 16) :
    decodeSyl (sylWord t.stop t.slot t.inv t.pidx 0x00#8 o) = unpackZ o (.nop t) := by
  unfold decodeSyl wordTagAny
  rw [wordOpc_sylWord, if_pos rfl, wordOpnd_sylWord, wordSlot_sylWord, wordStop_sylWord, wordInv_sylWord, wordPidx_sylWord]

end Sys2Proof
end

