-- ==== Sys2Proof/Laws/PerInstr.lean ====
section
/-! SUPPORT. One lemma per instruction: the decoder reads back the word the encoder writes (R73, R76, R90 to R95). An
instruction without an encoding has no word. -/

namespace Sys2Proof.Laws.Encoding

/-- Every word of the instruction's encoding decodes to the instruction. -/
def Statement (i : Instr) : Prop := ∀ w ∈ encode i, decodeSyl w = .ok i

/-- An instruction of one word. -/
theorem of_word {i : Instr} {w : W32} (e : encode i = [w]) (d : decodeSyl w = .ok i) : Statement i := by
  intro u hu
  rw [e, List.mem_singleton] at hu
  rw [hu, d]

/-- An instruction without an encoding. -/
theorem of_none {i : Instr} (e : encode i = []) : Statement i := by
  intro u hu
  rw [e] at hu
  cases hu

theorem bundleIssue : Statement .bundleIssue := of_none rfl
theorem loopSkipScan : Statement .loopSkipScan := of_none rfl
theorem contextSwitch : Statement .contextSwitch := of_none rfl
theorem resultLand : Statement .resultLand := of_none rfl
theorem energyBudgetFreeze : Statement .energyBudgetFreeze := of_none rfl
theorem freezeRequest : Statement .freezeRequest := of_none rfl
theorem chestEntryLand : Statement .chestEntryLand := of_none rfl
theorem csigCompare : Statement .csigCompare := of_none rfl
theorem reexecutionVote : Statement .reexecutionVote := of_none rfl
theorem suspectScoreDecay : Statement .suspectScoreDecay := of_none rfl
theorem pairModeChange : Statement .pairModeChange := of_none rfl
theorem migration : Statement .migration := of_none rfl
theorem staticAccessPerform : Statement .staticAccessPerform := of_none rfl
theorem trestleArrive : Statement .trestleArrive := of_none rfl
theorem trestleRelease : Statement .trestleRelease := of_none rfl
theorem holdClk : Statement .holdClk := of_none rfl
theorem nestStepRead : Statement .nestStepRead := of_none rfl
theorem nestStepUpdate : Statement .nestStepUpdate := of_none rfl
theorem nestEnd : Statement .nestEnd := of_none rfl
theorem arrivalUnitQueue : Statement .arrivalUnitQueue := of_none rfl
theorem arrivalUnitRetry : Statement .arrivalUnitRetry := of_none rfl
theorem arrivalUnitApply : Statement .arrivalUnitApply := of_none rfl
theorem transferStart : Statement .transferStart := of_none rfl
theorem transferPiecePerform : Statement .transferPiecePerform := of_none rfl
theorem transferComplete : Statement .transferComplete := of_none rfl
theorem faultBufferFree : Statement .faultBufferFree := of_none rfl
theorem staticCopyRead : Statement .staticCopyRead := of_none rfl
theorem staticCopyWrite : Statement .staticCopyWrite := of_none rfl
theorem indexRowMove : Statement .indexRowMove := of_none rfl
theorem hutchPack : Statement .hutchPack := of_none rfl
theorem hutchUnpack : Statement .hutchUnpack := of_none rfl
theorem hutchConvert : Statement .hutchConvert := of_none rfl
theorem hutchReblock : Statement .hutchReblock := of_none rfl
theorem hutchTranspose : Statement .hutchTranspose := of_none rfl
theorem hutchDpenc : Statement .hutchDpenc := of_none rfl
theorem hutchDpdec : Statement .hutchDpdec := of_none rfl
theorem barrierArrival : Statement .barrierArrival := of_none rfl
theorem translationWalk : Statement .translationWalk := of_none rfl
theorem tinv : Statement .tinv := of_none rfl
theorem tinvComplete : Statement .tinvComplete := of_none rfl
theorem transferResume : Statement .transferResume := of_none rfl
theorem writeQueueAccept : Statement .writeQueueAccept := of_none rfl
theorem writeQueueDrain : Statement .writeQueueDrain := of_none rfl
theorem reductionBarrierSend : Statement .reductionBarrierSend := of_none rfl
theorem xmvbOutput : Statement .xmvbOutput := of_none rfl
theorem patrolRead : Statement .patrolRead := of_none rfl
theorem powerLimitExceeded : Statement .powerLimitExceeded := of_none rfl
theorem s1Exit : Statement .s1Exit := of_none rfl
theorem undervoltageSag : Statement .undervoltageSag := of_none rfl
theorem parkNextDie : Statement .parkNextDie := of_none rfl
theorem parkGraceExpiry : Statement .parkGraceExpiry := of_none rfl
theorem supplyRecovery : Statement .supplyRecovery := of_none rfl
theorem unparkDie : Statement .unparkDie := of_none rfl
theorem pfwNAssert : Statement .pfwNAssert := of_none rfl
theorem undervoltageTrip : Statement .undervoltageTrip := of_none rfl
theorem shedExhausted : Statement .shedExhausted := of_none rfl
theorem quiesceEnd : Statement .quiesceEnd := of_none rfl
theorem restart : Statement .restart := of_none rfl
theorem reserveGaugeUpdate : Statement .reserveGaugeUpdate := of_none rfl
theorem retainedWait : Statement .retainedWait := of_none rfl
theorem checkpointWrite : Statement .checkpointWrite := of_none rfl
theorem tenantScrub : Statement .tenantScrub := of_none rfl
theorem moduleReset : Statement .moduleReset := of_none rfl
theorem attestationRequest : Statement .attestationRequest := of_none rfl
theorem benchTest : Statement .benchTest := of_none rfl
theorem firmwareInstall : Statement .firmwareInstall := of_none rfl
theorem riskUpdate : Statement .riskUpdate := of_none rfl
theorem checkpointDue : Statement .checkpointDue := of_none rfl
theorem checkpointAck : Statement .checkpointAck := of_none rfl
theorem checkpointWithdraw : Statement .checkpointWithdraw := of_none rfl
theorem restoreTimeout : Statement .restoreTimeout := of_none rfl
theorem submitDoorbell : Statement .submitDoorbell := of_none rfl
theorem launchAccept : Statement .launchAccept := of_none rfl
theorem launchContinue : Statement .launchContinue := of_none rfl
theorem launchAbort : Statement .launchAbort := of_none rfl
theorem taskNodeActivate : Statement .taskNodeActivate := of_none rfl
theorem condNodeActivate : Statement .condNodeActivate := of_none rfl
theorem whileNodeActivate : Statement .whileNodeActivate := of_none rfl
theorem joinNodeActivate : Statement .joinNodeActivate := of_none rfl
theorem endNodeActivate : Statement .endNodeActivate := of_none rfl
theorem instanceEnqueue : Statement .instanceEnqueue := of_none rfl
theorem instanceBind : Statement .instanceBind := of_none rfl
theorem gangReserve : Statement .gangReserve := of_none rfl
theorem workSteal : Statement .workSteal := of_none rfl
theorem dispatchGo : Statement .dispatchGo := of_none rfl
theorem loadingEnd : Statement .loadingEnd := of_none rfl
theorem firstIssue : Statement .firstIssue := of_none rfl
theorem taskComplete : Statement .taskComplete := of_none rfl
theorem preemptExamine : Statement .preemptExamine := of_none rfl
theorem launchHold : Statement .launchHold := of_none rfl
theorem completionRecord : Statement .completionRecord := of_none rfl
theorem seedreqComplete : Statement .seedreqComplete := of_none rfl
theorem linkUnitReceive : Statement .linkUnitReceive := of_none rfl
theorem linkReplay : Statement .linkReplay := of_none rfl
theorem portDead : Statement .portDead := of_none rfl
theorem linkStateUpdate : Statement .linkStateUpdate := of_none rfl
theorem readRequest : Statement .readRequest := of_none rfl
theorem writeRequest : Statement .writeRequest := of_none rfl
theorem reductionRequest : Statement .reductionRequest := of_none rfl
theorem planeData : Statement .planeData := of_none rfl
theorem messageData : Statement .messageData := of_none rfl
theorem readData : Statement .readData := of_none rfl
theorem done : Statement .done := of_none rfl
theorem planeAcknowledgement : Statement .planeAcknowledgement := of_none rfl
theorem oldValue : Statement .oldValue := of_none rfl
theorem exponent : Statement .exponent := of_none rfl
theorem cutRequest : Statement .cutRequest := of_none rfl
theorem errorNotice : Statement .errorNotice := of_none rfl
theorem rejoin : Statement .rejoin := of_none rfl
theorem rejack : Statement .rejack := of_none rfl
theorem readyToSend : Statement .readyToSend := of_none rfl
theorem clearToSend : Statement .clearToSend := of_none rfl
theorem restoreDigest : Statement .restoreDigest := of_none rfl
theorem drainRound : Statement .drainRound := of_none rfl
theorem streamResume : Statement .streamResume := of_none rfl
theorem waitlimExpiry : Statement .waitlimExpiry := of_none rfl
theorem waitsReexamine : Statement .waitsReexamine := of_none rfl
theorem hostMemRead : Statement .hostMemRead := of_none rfl
theorem hostMemWrite : Statement .hostMemWrite := of_none rfl
theorem hostSnoop : Statement .hostSnoop := of_none rfl
theorem registerWrite : Statement .registerWrite := of_none rfl
theorem nop (tg : TagAny) : Statement (.nop tg) := of_word rfl <| decode_nop _ _
theorem add (tg : Tag2) (d a b : BitVec 5) : Statement (.add tg d a b) := of_word rfl <| (decode_scalar _ _ _ (by decide)).trans (unpack_packDAB _ _ _ _)
theorem sub (tg : Tag2) (d a b : BitVec 5) : Statement (.sub tg d a b) := of_word rfl <| (decode_scalar _ _ _ (by decide)).trans (unpack_packDAB _ _ _ _)
theorem mul (tg : Tag2) (d a b : BitVec 5) : Statement (.mul tg d a b) := of_word rfl <| (decode_scalar _ _ _ (by decide)).trans (unpack_packDAB _ _ _ _)
theorem mulh (tg : Tag2) (d a b : BitVec 5) : Statement (.mulh tg d a b) := of_word rfl <| (decode_scalar _ _ _ (by decide)).trans (unpack_packDAB _ _ _ _)
theorem and (tg : Tag2) (d a b : BitVec 5) : Statement (.and tg d a b) := of_word rfl <| (decode_scalar _ _ _ (by decide)).trans (unpack_packDAB _ _ _ _)
theorem or (tg : Tag2) (d a b : BitVec 5) : Statement (.or tg d a b) := of_word rfl <| (decode_scalar _ _ _ (by decide)).trans (unpack_packDAB _ _ _ _)
theorem xor (tg : Tag2) (d a b : BitVec 5) : Statement (.xor tg d a b) := of_word rfl <| (decode_scalar _ _ _ (by decide)).trans (unpack_packDAB _ _ _ _)
theorem andn (tg : Tag2) (d a b : BitVec 5) : Statement (.andn tg d a b) := of_word rfl <| (decode_scalar _ _ _ (by decide)).trans (unpack_packDAB _ _ _ _)
theorem shl (tg : Tag2) (d a b : BitVec 5) : Statement (.shl tg d a b) := of_word rfl <| (decode_scalar _ _ _ (by decide)).trans (unpack_packDAB _ _ _ _)
theorem shr (tg : Tag2) (d a b : BitVec 5) : Statement (.shr tg d a b) := of_word rfl <| (decode_scalar _ _ _ (by decide)).trans (unpack_packDAB _ _ _ _)
theorem sra (tg : Tag2) (d a b : BitVec 5) : Statement (.sra tg d a b) := of_word rfl <| (decode_scalar _ _ _ (by decide)).trans (unpack_packDAB _ _ _ _)
theorem min (tg : Tag2) (d a b : BitVec 5) : Statement (.min tg d a b) := of_word rfl <| (decode_scalar _ _ _ (by decide)).trans (unpack_packDAB _ _ _ _)
theorem max (tg : Tag2) (d a b : BitVec 5) : Statement (.max tg d a b) := of_word rfl <| (decode_scalar _ _ _ (by decide)).trans (unpack_packDAB _ _ _ _)
theorem addi (tg : Tag2) (d a : BitVec 5) (imm : BitVec 6) : Statement (.addi tg d a imm) := of_word rfl <| (decode_scalar _ _ _ (by decide)).trans (unpack_packDAI _ _ _ _)
theorem muli (tg : Tag2) (d a : BitVec 5) (imm : BitVec 6) : Statement (.muli tg d a imm) := of_word rfl <| (decode_scalar _ _ _ (by decide)).trans (unpack_packDAI _ _ _ _)
theorem andi (tg : Tag2) (d a : BitVec 5) (imm : BitVec 6) : Statement (.andi tg d a imm) := of_word rfl <| (decode_scalar _ _ _ (by decide)).trans (unpack_packDAI _ _ _ _)
theorem ori (tg : Tag2) (d a : BitVec 5) (imm : BitVec 6) : Statement (.ori tg d a imm) := of_word rfl <| (decode_scalar _ _ _ (by decide)).trans (unpack_packDAI _ _ _ _)
theorem xori (tg : Tag2) (d a : BitVec 5) (imm : BitVec 6) : Statement (.xori tg d a imm) := of_word rfl <| (decode_scalar _ _ _ (by decide)).trans (unpack_packDAI _ _ _ _)
theorem shli (tg : Tag2) (d a : BitVec 5) (imm : BitVec 6) : Statement (.shli tg d a imm) := of_word rfl <| (decode_scalar _ _ _ (by decide)).trans (unpack_packDAI _ _ _ _)
theorem shri (tg : Tag2) (d a : BitVec 5) (imm : BitVec 6) : Statement (.shri tg d a imm) := of_word rfl <| (decode_scalar _ _ _ (by decide)).trans (unpack_packDAI _ _ _ _)
theorem srai (tg : Tag2) (d a : BitVec 5) (imm : BitVec 6) : Statement (.srai tg d a imm) := of_word rfl <| (decode_scalar _ _ _ (by decide)).trans (unpack_packDAI _ _ _ _)
theorem addl (tg : Tag2) (d a : BitVec 5) (l : BitVec 4) : Statement (.addl tg d a l) := of_word rfl <| (decode_scalar _ _ _ (by decide)).trans (unpack_packDAL _ _ _ _)
theorem addx3 (tg : Tag2) (d a b : BitVec 5) : Statement (.addx3 tg d a b) := of_word rfl <| (decode_scalar _ _ _ (by decide)).trans (unpack_packDAB _ _ _ _)
theorem movi (tg : Tag2) (d : BitVec 5) (imm : BitVec 11) : Statement (.movi tg d imm) := of_word rfl <| (decode_scalar _ _ _ (by decide)).trans (unpack_packDI _ _ _)
theorem movl (tg : Tag2) (d : BitVec 5) (l : BitVec 4) : Statement (.movl tg d l) := of_word rfl <| (decode_scalar _ _ _ (by decide)).trans (unpack_packDL _ _ _)
theorem movl64 (tg : Tag2) (d : BitVec 5) (l : BitVec 4) : Statement (.movl64 tg d l) := of_word rfl <| (decode_scalar _ _ _ (by decide)).trans (unpack_packDL _ _ _)
theorem clz (tg : Tag2) (d a : BitVec 5) : Statement (.clz tg d a) := of_word rfl <| (decode_scalar _ _ _ (by decide)).trans (unpack_packDA _ _ _)
theorem popc (tg : Tag2) (d a : BitVec 5) : Statement (.popc tg d a) := of_word rfl <| (decode_scalar _ _ _ (by decide)).trans (unpack_packDA _ _ _)
theorem cmpeq (tg : Tag2) (pd : BitVec 3) (a b : BitVec 5) : Statement (.cmpeq tg pd a b) := of_word rfl <| (decode_scalar _ _ _ (by decide)).trans (unpack_packPAB _ _ _ _)
theorem cmpne (tg : Tag2) (pd : BitVec 3) (a b : BitVec 5) : Statement (.cmpne tg pd a b) := of_word rfl <| (decode_scalar _ _ _ (by decide)).trans (unpack_packPAB _ _ _ _)
theorem cmplt (tg : Tag2) (pd : BitVec 3) (a b : BitVec 5) : Statement (.cmplt tg pd a b) := of_word rfl <| (decode_scalar _ _ _ (by decide)).trans (unpack_packPAB _ _ _ _)
theorem cmpge (tg : Tag2) (pd : BitVec 3) (a b : BitVec 5) : Statement (.cmpge tg pd a b) := of_word rfl <| (decode_scalar _ _ _ (by decide)).trans (unpack_packPAB _ _ _ _)
theorem cmpltu (tg : Tag2) (pd : BitVec 3) (a b : BitVec 5) : Statement (.cmpltu tg pd a b) := of_word rfl <| (decode_scalar _ _ _ (by decide)).trans (unpack_packPAB _ _ _ _)
theorem cmpgeu (tg : Tag2) (pd : BitVec 3) (a b : BitVec 5) : Statement (.cmpgeu tg pd a b) := of_word rfl <| (decode_scalar _ _ _ (by decide)).trans (unpack_packPAB _ _ _ _)
theorem cmpeqi (tg : Tag2) (pd : BitVec 3) (a : BitVec 5) (imm : BitVec 8) : Statement (.cmpeqi tg pd a imm) := of_word rfl <| (decode_scalar _ _ _ (by decide)).trans (unpack_packPAI _ _ _ _)
theorem cmplti (tg : Tag2) (pd : BitVec 3) (a : BitVec 5) (imm : BitVec 8) : Statement (.cmplti tg pd a imm) := of_word rfl <| (decode_scalar _ _ _ (by decide)).trans (unpack_packPAI _ _ _ _)
theorem cmpltui (tg : Tag2) (pd : BitVec 3) (a : BitVec 5) (imm : BitVec 8) : Statement (.cmpltui tg pd a imm) := of_word rfl <| (decode_scalar _ _ _ (by decide)).trans (unpack_packPAI _ _ _ _)
theorem pand (tg : Tag2) (pd pa pb : BitVec 3) (na nb : BitVec 1) : Statement (.pand tg pd pa pb na nb) := of_word rfl <| (decode_scalar _ _ _ (by decide)).trans (unpack_packPPP _ _ _ _ _ _)
theorem por (tg : Tag2) (pd pa pb : BitVec 3) (na nb : BitVec 1) : Statement (.por tg pd pa pb na nb) := of_word rfl <| (decode_scalar _ _ _ (by decide)).trans (unpack_packPPP _ _ _ _ _ _)
theorem pxor (tg : Tag2) (pd pa pb : BitVec 3) (na nb : BitVec 1) : Statement (.pxor tg pd pa pb na nb) := of_word rfl <| (decode_scalar _ _ _ (by decide)).trans (unpack_packPPP _ _ _ _ _ _)
theorem sel (tg : Tag2) (d a b : BitVec 5) : Statement (.sel tg d a b) := of_word rfl <| (decode_scalar _ _ _ (by decide)).trans (unpack_packDAB _ _ _ _)
theorem br (tg : Tag2) (off : BitVec 16) : Statement (.br tg off) := of_word rfl <| (decode_scalar _ _ _ (by decide)).trans (unpack_packBO _ _)
theorem call (tg : Tag2) (off : BitVec 16) : Statement (.call tg off) := of_word rfl <| (decode_scalar _ _ _ (by decide)).trans (unpack_packBO _ _)
theorem jr (tg : Tag2) (a : BitVec 5) : Statement (.jr tg a) := of_word rfl <| (decode_scalar _ _ _ (by decide)).trans (unpack_packA _ _)
theorem callr (tg : Tag2) (a : BitVec 5) : Statement (.callr tg a) := of_word rfl <| (decode_scalar _ _ _ (by decide)).trans (unpack_packA _ _)
theorem ret (tg : Tag2) : Statement (.ret tg) := of_word rfl <| (decode_scalar _ _ _ (by decide)).trans (unpack_packZ _)
theorem brl (tg : Tag2) (l : BitVec 4) : Statement (.brl tg l) := of_word rfl <| (decode_scalar _ _ _ (by decide)).trans (unpack_packBL _ _)
theorem loop (tg : Tag2) (ns : BitVec 2) (a : BitVec 5) : Statement (.loop tg ns a) := of_word rfl <| (decode_scalar _ _ _ (by decide)).trans (unpack_packLP _ _ _)
theorem sync (tg : Tag2) : Statement (.sync tg) := of_word rfl <| (decode_scalar _ _ _ (by decide)).trans (unpack_packZ _)
theorem kwait (tg : Tag2) (ka kb : BitVec 6) : Statement (.kwait tg ka kb) := of_word rfl <| (decode_scalar _ _ _ (by decide)).trans (unpack_packKW _ _ _)
theorem trap (tg : Tag2) (code : BitVec 10) : Statement (.trap tg code) := of_word rfl <| (decode_scalar _ _ _ (by decide)).trans (unpack_packTC _ _)
theorem eret (tg : Tag2) : Statement (.eret tg) := of_word rfl <| (decode_scalar _ _ _ (by decide)).trans (unpack_packZ _)
theorem yield (tg : Tag2) : Statement (.yield tg) := of_word rfl <| (decode_scalar _ _ _ (by decide)).trans (unpack_packZ _)
theorem tend (tg : Tag2) : Statement (.tend tg) := of_word rfl <| (decode_scalar _ _ _ (by decide)).trans (unpack_packZ _)
theorem mfsr (tg : Tag2) (d : BitVec 5) (sr : BitVec 8) : Statement (.mfsr tg d sr) := of_word rfl <| (decode_scalar _ _ _ (by decide)).trans (unpack_packSY _ _ _)
theorem mtsr (tg : Tag2) (d : BitVec 5) (sr : BitVec 8) : Statement (.mtsr tg d sr) := of_word rfl <| (decode_scalar _ _ _ (by decide)).trans (unpack_packSY _ _ _)
theorem rden (tg : Tag2) (d : BitVec 5) : Statement (.rden tg d) := of_word rfl <| (decode_scalar _ _ _ (by decide)).trans (unpack_packD _ _)
theorem rand (tg : Tag2) (d : BitVec 5) : Statement (.rand tg d) := of_word rfl <| (decode_scalar _ _ _ (by decide)).trans (unpack_packD _ _)
theorem seedreq (tg : Tag2) (d : BitVec 5) (kd : BitVec 6) : Statement (.seedreq tg d kd) := of_word rfl <| (decode_scalar _ _ _ (by decide)).trans (unpack_packDK _ _ _)
theorem vaddF32 (tg : Tag2) (d a b : BitVec 5) : Statement (.vaddF32 tg d a b) := of_word rfl <| (decode_vector _ _ _ (by decide)).trans (unpack_packDAB _ _ _ _)
theorem vsubF32 (tg : Tag2) (d a b : BitVec 5) : Statement (.vsubF32 tg d a b) := of_word rfl <| (decode_vector _ _ _ (by decide)).trans (unpack_packDAB _ _ _ _)
theorem vmulF32 (tg : Tag2) (d a b : BitVec 5) : Statement (.vmulF32 tg d a b) := of_word rfl <| (decode_vector _ _ _ (by decide)).trans (unpack_packDAB _ _ _ _)
theorem vfmaF32 (tg : Tag2) (d a b : BitVec 5) : Statement (.vfmaF32 tg d a b) := of_word rfl <| (decode_vector _ _ _ (by decide)).trans (unpack_packDAB _ _ _ _)
theorem vminF32 (tg : Tag2) (d a b : BitVec 5) : Statement (.vminF32 tg d a b) := of_word rfl <| (decode_vector _ _ _ (by decide)).trans (unpack_packDAB _ _ _ _)
theorem vmaxF32 (tg : Tag2) (d a b : BitVec 5) : Statement (.vmaxF32 tg d a b) := of_word rfl <| (decode_vector _ _ _ (by decide)).trans (unpack_packDAB _ _ _ _)
theorem vaddBf16 (tg : Tag2) (d a b : BitVec 5) : Statement (.vaddBf16 tg d a b) := of_word rfl <| (decode_vector _ _ _ (by decide)).trans (unpack_packDAB _ _ _ _)
theorem vsubBf16 (tg : Tag2) (d a b : BitVec 5) : Statement (.vsubBf16 tg d a b) := of_word rfl <| (decode_vector _ _ _ (by decide)).trans (unpack_packDAB _ _ _ _)
theorem vmulBf16 (tg : Tag2) (d a b : BitVec 5) : Statement (.vmulBf16 tg d a b) := of_word rfl <| (decode_vector _ _ _ (by decide)).trans (unpack_packDAB _ _ _ _)
theorem vfmaBf16 (tg : Tag2) (d a b : BitVec 5) : Statement (.vfmaBf16 tg d a b) := of_word rfl <| (decode_vector _ _ _ (by decide)).trans (unpack_packDAB _ _ _ _)
theorem vminBf16 (tg : Tag2) (d a b : BitVec 5) : Statement (.vminBf16 tg d a b) := of_word rfl <| (decode_vector _ _ _ (by decide)).trans (unpack_packDAB _ _ _ _)
theorem vmaxBf16 (tg : Tag2) (d a b : BitVec 5) : Statement (.vmaxBf16 tg d a b) := of_word rfl <| (decode_vector _ _ _ (by decide)).trans (unpack_packDAB _ _ _ _)
theorem vaddF16 (tg : Tag2) (d a b : BitVec 5) : Statement (.vaddF16 tg d a b) := of_word rfl <| (decode_vector _ _ _ (by decide)).trans (unpack_packDAB _ _ _ _)
theorem vmulF16 (tg : Tag2) (d a b : BitVec 5) : Statement (.vmulF16 tg d a b) := of_word rfl <| (decode_vector _ _ _ (by decide)).trans (unpack_packDAB _ _ _ _)
theorem vfmaF16 (tg : Tag2) (d a b : BitVec 5) : Statement (.vfmaF16 tg d a b) := of_word rfl <| (decode_vector _ _ _ (by decide)).trans (unpack_packDAB _ _ _ _)
theorem vaddI32 (tg : Tag2) (d a b : BitVec 5) : Statement (.vaddI32 tg d a b) := of_word rfl <| (decode_vector _ _ _ (by decide)).trans (unpack_packDAB _ _ _ _)
theorem vsubI32 (tg : Tag2) (d a b : BitVec 5) : Statement (.vsubI32 tg d a b) := of_word rfl <| (decode_vector _ _ _ (by decide)).trans (unpack_packDAB _ _ _ _)
theorem vmulI32 (tg : Tag2) (d a b : BitVec 5) : Statement (.vmulI32 tg d a b) := of_word rfl <| (decode_vector _ _ _ (by decide)).trans (unpack_packDAB _ _ _ _)
theorem vaddsI32 (tg : Tag2) (d a b : BitVec 5) : Statement (.vaddsI32 tg d a b) := of_word rfl <| (decode_vector _ _ _ (by decide)).trans (unpack_packDAB _ _ _ _)
theorem vminI32 (tg : Tag2) (d a b : BitVec 5) : Statement (.vminI32 tg d a b) := of_word rfl <| (decode_vector _ _ _ (by decide)).trans (unpack_packDAB _ _ _ _)
theorem vmaxI32 (tg : Tag2) (d a b : BitVec 5) : Statement (.vmaxI32 tg d a b) := of_word rfl <| (decode_vector _ _ _ (by decide)).trans (unpack_packDAB _ _ _ _)
theorem vaddI16 (tg : Tag2) (d a b : BitVec 5) : Statement (.vaddI16 tg d a b) := of_word rfl <| (decode_vector _ _ _ (by decide)).trans (unpack_packDAB _ _ _ _)
theorem vsubI16 (tg : Tag2) (d a b : BitVec 5) : Statement (.vsubI16 tg d a b) := of_word rfl <| (decode_vector _ _ _ (by decide)).trans (unpack_packDAB _ _ _ _)
theorem vmulI16 (tg : Tag2) (d a b : BitVec 5) : Statement (.vmulI16 tg d a b) := of_word rfl <| (decode_vector _ _ _ (by decide)).trans (unpack_packDAB _ _ _ _)
theorem vaddsI16 (tg : Tag2) (d a b : BitVec 5) : Statement (.vaddsI16 tg d a b) := of_word rfl <| (decode_vector _ _ _ (by decide)).trans (unpack_packDAB _ _ _ _)
theorem vaddI8 (tg : Tag2) (d a b : BitVec 5) : Statement (.vaddI8 tg d a b) := of_word rfl <| (decode_vector _ _ _ (by decide)).trans (unpack_packDAB _ _ _ _)
theorem vsubI8 (tg : Tag2) (d a b : BitVec 5) : Statement (.vsubI8 tg d a b) := of_word rfl <| (decode_vector _ _ _ (by decide)).trans (unpack_packDAB _ _ _ _)
theorem vaddsI8 (tg : Tag2) (d a b : BitVec 5) : Statement (.vaddsI8 tg d a b) := of_word rfl <| (decode_vector _ _ _ (by decide)).trans (unpack_packDAB _ _ _ _)
theorem vcmpeqF32 (tg : Tag2) (md : BitVec 3) (a b : BitVec 5) : Statement (.vcmpeqF32 tg md a b) := of_word rfl <| (decode_vector _ _ _ (by decide)).trans (unpack_packMAB _ _ _ _)
theorem vcmpltF32 (tg : Tag2) (md : BitVec 3) (a b : BitVec 5) : Statement (.vcmpltF32 tg md a b) := of_word rfl <| (decode_vector _ _ _ (by decide)).trans (unpack_packMAB _ _ _ _)
theorem vcmpleF32 (tg : Tag2) (md : BitVec 3) (a b : BitVec 5) : Statement (.vcmpleF32 tg md a b) := of_word rfl <| (decode_vector _ _ _ (by decide)).trans (unpack_packMAB _ _ _ _)
theorem vcmpeqI32 (tg : Tag2) (md : BitVec 3) (a b : BitVec 5) : Statement (.vcmpeqI32 tg md a b) := of_word rfl <| (decode_vector _ _ _ (by decide)).trans (unpack_packMAB _ _ _ _)
theorem vcmpltI32 (tg : Tag2) (md : BitVec 3) (a b : BitVec 5) : Statement (.vcmpltI32 tg md a b) := of_word rfl <| (decode_vector _ _ _ (by decide)).trans (unpack_packMAB _ _ _ _)
theorem vcmpleI32 (tg : Tag2) (md : BitVec 3) (a b : BitVec 5) : Statement (.vcmpleI32 tg md a b) := of_word rfl <| (decode_vector _ _ _ (by decide)).trans (unpack_packMAB _ _ _ _)
theorem vmand (tg : Tag2) (md ma mb : BitVec 3) : Statement (.vmand tg md ma mb) := of_word rfl <| (decode_vector _ _ _ (by decide)).trans (unpack_packMMM _ _ _ _)
theorem vmor (tg : Tag2) (md ma mb : BitVec 3) : Statement (.vmor tg md ma mb) := of_word rfl <| (decode_vector _ _ _ (by decide)).trans (unpack_packMMM _ _ _ _)
theorem vmxor (tg : Tag2) (md ma mb : BitVec 3) : Statement (.vmxor tg md ma mb) := of_word rfl <| (decode_vector _ _ _ (by decide)).trans (unpack_packMMM _ _ _ _)
theorem vmovm (tg : Tag2) (md : BitVec 3) (a : BitVec 5) : Statement (.vmovm tg md a) := of_word rfl <| (decode_vector _ _ _ (by decide)).trans (unpack_packMSC _ _ _)
theorem vsel (tg : Tag2) (d a b : BitVec 5) : Statement (.vsel tg d a b) := of_word rfl <| (decode_vector _ _ _ (by decide)).trans (unpack_packDAB _ _ _ _)
theorem vand (tg : Tag2) (d a b : BitVec 5) : Statement (.vand tg d a b) := of_word rfl <| (decode_vector _ _ _ (by decide)).trans (unpack_packDAB _ _ _ _)
theorem vor (tg : Tag2) (d a b : BitVec 5) : Statement (.vor tg d a b) := of_word rfl <| (decode_vector _ _ _ (by decide)).trans (unpack_packDAB _ _ _ _)
theorem vxor (tg : Tag2) (d a b : BitVec 5) : Statement (.vxor tg d a b) := of_word rfl <| (decode_vector _ _ _ (by decide)).trans (unpack_packDAB _ _ _ _)
theorem vshlI32 (tg : Tag2) (d a b : BitVec 5) : Statement (.vshlI32 tg d a b) := of_word rfl <| (decode_vector _ _ _ (by decide)).trans (unpack_packDAB _ _ _ _)
theorem vshrI32 (tg : Tag2) (d a b : BitVec 5) : Statement (.vshrI32 tg d a b) := of_word rfl <| (decode_vector _ _ _ (by decide)).trans (unpack_packDAB _ _ _ _)
theorem vsraI32 (tg : Tag2) (d a b : BitVec 5) : Statement (.vsraI32 tg d a b) := of_word rfl <| (decode_vector _ _ _ (by decide)).trans (unpack_packDAB _ _ _ _)
theorem vcvt (tg : Tag2) (d a : BitVec 5) (sf df : BitVec 3) : Statement (.vcvt tg d a sf df) := of_word rfl <| (decode_vector _ _ _ (by decide)).trans (unpack_packVCV _ _ _ _ _)
theorem vcvtSr (tg : Tag2) (d a : BitVec 5) (sf df : BitVec 3) : Statement (.vcvtSr tg d a sf df) := of_word rfl <| (decode_vector _ _ _ (by decide)).trans (unpack_packVCV _ _ _ _ _)
theorem vpack (tg : Tag2) (d a : BitVec 5) (f : BitVec 2) : Statement (.vpack tg d a f) := of_word rfl <| (decode_vector _ _ _ (by decide)).trans (unpack_packVPK _ _ _ _)
theorem vunpk (tg : Tag2) (d a : BitVec 5) (f : BitVec 2) : Statement (.vunpk tg d a f) := of_word rfl <| (decode_vector _ _ _ (by decide)).trans (unpack_packVPK _ _ _ _)
theorem vredAddF32 (tg : Tag2) (d a : BitVec 5) : Statement (.vredAddF32 tg d a) := of_word rfl <| (decode_vector _ _ _ (by decide)).trans (unpack_packDA _ _ _)
theorem vredMinF32 (tg : Tag2) (d a : BitVec 5) : Statement (.vredMinF32 tg d a) := of_word rfl <| (decode_vector _ _ _ (by decide)).trans (unpack_packDA _ _ _)
theorem vredMaxF32 (tg : Tag2) (d a : BitVec 5) : Statement (.vredMaxF32 tg d a) := of_word rfl <| (decode_vector _ _ _ (by decide)).trans (unpack_packDA _ _ _)
theorem vredAddI32 (tg : Tag2) (d a : BitVec 5) : Statement (.vredAddI32 tg d a) := of_word rfl <| (decode_vector _ _ _ (by decide)).trans (unpack_packDA _ _ _)
theorem vscanAddF32 (tg : Tag2) (d a : BitVec 5) : Statement (.vscanAddF32 tg d a) := of_word rfl <| (decode_vector _ _ _ (by decide)).trans (unpack_packDA _ _ _)
theorem vscanAddI32 (tg : Tag2) (d a : BitVec 5) : Statement (.vscanAddI32 tg d a) := of_word rfl <| (decode_vector _ _ _ (by decide)).trans (unpack_packDA _ _ _)
theorem vperm (tg : Tag2) (d a b : BitVec 5) : Statement (.vperm tg d a b) := of_word rfl <| (decode_vector _ _ _ (by decide)).trans (unpack_packDAB _ _ _ _)
theorem vbcast (tg : Tag2) (d a : BitVec 5) (imm : BitVec 6) : Statement (.vbcast tg d a imm) := of_word rfl <| (decode_vector _ _ _ (by decide)).trans (unpack_packDAI _ _ _ _)
theorem vsplat (tg : Tag2) (d a : BitVec 5) : Statement (.vsplat tg d a) := of_word rfl <| (decode_vector _ _ _ (by decide)).trans (unpack_packVS _ _ _)
theorem vpart (tg : Tag2) (d : BitVec 5) (ma : BitVec 3) (sd : BitVec 5) : Statement (.vpart tg d ma sd) := of_word rfl <| (decode_vector _ _ _ (by decide)).trans (unpack_packVPT _ _ _ _)
theorem vexp2 (tg : Tag2) (d a : BitVec 5) : Statement (.vexp2 tg d a) := of_word rfl <| (decode_vector _ _ _ (by decide)).trans (unpack_packDA _ _ _)
theorem vlog2 (tg : Tag2) (d a : BitVec 5) : Statement (.vlog2 tg d a) := of_word rfl <| (decode_vector _ _ _ (by decide)).trans (unpack_packDA _ _ _)
theorem vrcp (tg : Tag2) (d a : BitVec 5) : Statement (.vrcp tg d a) := of_word rfl <| (decode_vector _ _ _ (by decide)).trans (unpack_packDA _ _ _)
theorem vrsq (tg : Tag2) (d a : BitVec 5) : Statement (.vrsq tg d a) := of_word rfl <| (decode_vector _ _ _ (by decide)).trans (unpack_packDA _ _ _)
theorem vrand (tg : Tag2) (d : BitVec 5) : Statement (.vrand tg d) := of_word rfl <| (decode_vector _ _ _ (by decide)).trans (unpack_packD _ _)
theorem vld (tg : Tag2) (d : BitVec 5) (w : BitVec 3) (a : BitVec 5) : Statement (.vld tg d w a) := of_word rfl <| (decode_local _ _ _ (by decide)).trans (unpack_packLM _ _ _ _)
theorem vst (tg : Tag2) (d : BitVec 5) (w : BitVec 3) (a : BitVec 5) : Statement (.vst tg d w a) := of_word rfl <| (decode_local _ _ _ (by decide)).trans (unpack_packLM _ _ _ _)
theorem sld (tg : Tag2) (d : BitVec 5) (w : BitVec 3) (a : BitVec 5) : Statement (.sld tg d w a) := of_word rfl <| (decode_local _ _ _ (by decide)).trans (unpack_packLM _ _ _ _)
theorem sst (tg : Tag2) (d : BitVec 5) (w : BitVec 3) (a : BitVec 5) : Statement (.sst tg d w a) := of_word rfl <| (decode_local _ _ _ (by decide)).trans (unpack_packLM _ _ _ _)
theorem sldd (tg : Tag2) (d : BitVec 5) (w : BitVec 3) (a : BitVec 5) : Statement (.sldd tg d w a) := of_word rfl <| (decode_local _ _ _ (by decide)).trans (unpack_packLM _ _ _ _)
theorem sstd (tg : Tag2) (d : BitVec 5) (w : BitVec 3) (a : BitVec 5) : Statement (.sstd tg d w a) := of_word rfl <| (decode_local _ _ _ (by decide)).trans (unpack_packLM _ _ _ _)
theorem vlds (tg : Tag2) (d : BitVec 5) (w : BitVec 3) (a : BitVec 5) (l : BitVec 3) : Statement (.vlds tg d w a l) := of_word rfl <| (decode_local _ _ _ (by decide)).trans (unpack_packLML _ _ _ _ _)
theorem vsts (tg : Tag2) (d : BitVec 5) (w : BitVec 3) (a : BitVec 5) (l : BitVec 3) : Statement (.vsts tg d w a l) := of_word rfl <| (decode_local _ _ _ (by decide)).trans (unpack_packLML _ _ _ _ _)
theorem vldg (tg : Tag2) (d : BitVec 5) (w : BitVec 3) (vi : BitVec 5) : Statement (.vldg tg d w vi) := of_word rfl <| (decode_local _ _ _ (by decide)).trans (unpack_packLG _ _ _ _)
theorem vstg (tg : Tag2) (d : BitVec 5) (w : BitVec 3) (vi : BitVec 5) : Statement (.vstg tg d w vi) := of_word rfl <| (decode_local _ _ _ (by decide)).trans (unpack_packLG _ _ _ _)
theorem vldm (tg : Tag2) (md w : BitVec 3) (a : BitVec 5) : Statement (.vldm tg md w a) := of_word rfl <| (decode_local _ _ _ (by decide)).trans (unpack_packLMM _ _ _ _)
theorem vstm (tg : Tag2) (d : BitVec 5) (w : BitVec 3) (a : BitVec 5) (mk : BitVec 3) : Statement (.vstm tg d w a mk) := of_word rfl <| (decode_local _ _ _ (by decide)).trans (unpack_packLMK _ _ _ _ _)
theorem aadd (tg : Tag2) (d : BitVec 5) (w : BitVec 3) (a : BitVec 5) : Statement (.aadd tg d w a) := of_word rfl <| (decode_local _ _ _ (by decide)).trans (unpack_packLM _ _ _ _)
theorem aaddF32 (tg : Tag2) (d : BitVec 5) (w : BitVec 3) (a : BitVec 5) : Statement (.aaddF32 tg d w a) := of_word rfl <| (decode_local _ _ _ (by decide)).trans (unpack_packLM _ _ _ _)
theorem amin (tg : Tag2) (d : BitVec 5) (w : BitVec 3) (a : BitVec 5) : Statement (.amin tg d w a) := of_word rfl <| (decode_local _ _ _ (by decide)).trans (unpack_packLM _ _ _ _)
theorem amax (tg : Tag2) (d : BitVec 5) (w : BitVec 3) (a : BitVec 5) : Statement (.amax tg d w a) := of_word rfl <| (decode_local _ _ _ (by decide)).trans (unpack_packLM _ _ _ _)
theorem axchg (tg : Tag2) (d : BitVec 5) (w : BitVec 3) (a : BitVec 5) : Statement (.axchg tg d w a) := of_word rfl <| (decode_local _ _ _ (by decide)).trans (unpack_packLM _ _ _ _)
theorem acas (tg : Tag2) (d : BitVec 5) (w : BitVec 3) (a : BitVec 5) : Statement (.acas tg d w a) := of_word rfl <| (decode_local _ _ _ (by decide)).trans (unpack_packLM _ _ _ _)
theorem pfxld (tg : Tag2) (d : BitVec 5) (w : BitVec 3) (a : BitVec 5) : Statement (.pfxld tg d w a) := of_word rfl <| (decode_local _ _ _ (by decide)).trans (unpack_packLM _ _ _ _)
theorem mcfg (tg : Tag) (cr : BitVec 8) (a : BitVec 5) : Statement (.mcfg tg cr a) := of_word rfl <| (decode_matrix _ _ _ (by decide)).trans (unpack_packMCR _ _ _)
theorem mcfgl (tg : Tag) (cr : BitVec 8) (l : BitVec 4) : Statement (.mcfgl tg cr l) := of_word rfl <| (decode_matrix _ _ _ (by decide)).trans (unpack_packMCL _ _ _)
theorem mnest (tg : Tag) : Statement (.mnest tg) := of_word rfl <| (decode_matrix _ _ _ (by decide)).trans (unpack_packZ _)
theorem accinit (tg : Tag) (t : BitVec 3) (a : BitVec 5) : Statement (.accinit tg t a) := of_word rfl <| (decode_matrix _ _ _ (by decide)).trans ((if_neg (by rw [bit_packMT0]; decide)).trans (unpack_packMT0 _ _ _))
theorem accinitU (tg : Tag) (t : BitVec 3) : Statement (.accinitU tg t) := of_word rfl <| (decode_matrix _ _ _ (by decide)).trans ((if_pos (by exact bit_packMTU _)).trans (unpack_packMTU _ _))
theorem accnorm (tg : Tag) (t : BitVec 3) (a : BitVec 5) : Statement (.accnorm tg t a) := of_word rfl <| (decode_matrix _ _ _ (by decide)).trans ((if_neg (by rw [bit_packMT0]; decide)).trans (unpack_packMT0 _ _ _))
theorem accnormRow (tg : Tag) (t : BitVec 3) (a : BitVec 5) : Statement (.accnormRow tg t a) := of_word rfl <| (decode_matrix _ _ _ (by decide)).trans ((if_pos (by exact bit_packMT1 _ _)).trans (unpack_packMT1 _ _ _))
theorem accrd (tg : Tag) (d : BitVec 5) (t : BitVec 3) (a : BitVec 5) (f : BitVec 3) : Statement (.accrd tg d t a f) := of_word rfl <| (decode_matrix _ _ _ (by decide)).trans (unpack_packMRW _ _ _ _ _)
theorem accwr (tg : Tag) (d : BitVec 5) (t : BitVec 3) (a : BitVec 5) (f : BitVec 3) : Statement (.accwr tg d t a f) := of_word rfl <| (decode_matrix _ _ _ (by decide)).trans (unpack_packMRW _ _ _ _ _)
theorem accscale (tg : Tag) (t : BitVec 3) (a : BitVec 5) : Statement (.accscale tg t a) := of_word rfl <| (decode_matrix _ _ _ (by decide)).trans ((if_neg (by rw [bit_packMT0]; decide)).trans (unpack_packMT0 _ _ _))
theorem accscaleRow (tg : Tag) (t : BitVec 3) (a : BitVec 5) : Statement (.accscaleRow tg t a) := of_word rfl <| (decode_matrix _ _ _ (by decide)).trans ((if_pos (by exact bit_packMT1 _ _)).trans (unpack_packMT1 _ _ _))
theorem msmx (tg : Tag) (ts tout w : BitVec 3) (a : BitVec 5) : Statement (.msmx tg ts tout w a) := of_word rfl <| (decode_matrix _ _ _ (by decide)).trans (unpack_packMSX _ _ _ _ _)
theorem mchk (tg : Tag) (mode : BitVec 2) : Statement (.mchk tg mode) := of_word rfl <| (decode_matrix _ _ _ (by decide)).trans (unpack_packMMD _ _)
theorem accst (tg : Tag) (d : BitVec 5) (t : BitVec 3) (a : BitVec 5) : Statement (.accst tg d t a) := of_word rfl <| (decode_matrix _ _ _ (by decide)).trans (unpack_packMTS _ _ _ _)
theorem accexp (tg : Tag) (d : BitVec 5) (t : BitVec 3) (a : BitVec 5) : Statement (.accexp tg d t a) := of_word rfl <| (decode_matrix _ _ _ (by decide)).trans (unpack_packMTS _ _ _ _)
theorem accloss (tg : Tag) (d : BitVec 5) (t : BitVec 3) (a : BitVec 5) : Statement (.accloss tg d t a) := of_word rfl <| (decode_matrix _ _ _ (by decide)).trans (unpack_packMTS _ _ _ _)
theorem acclog (tg : Tag) (d : BitVec 5) (t : BitVec 3) (a : BitVec 5) : Statement (.acclog tg d t a) := of_word rfl <| (decode_matrix _ _ _ (by decide)).trans (unpack_packMTS _ _ _ _)
theorem accside (tg : Tag) (d : BitVec 5) (t : BitVec 3) (a : BitVec 5) : Statement (.accside tg d t a) := of_word rfl <| (decode_matrix _ _ _ (by decide)).trans (unpack_packMTS _ _ _ _)
theorem mcfgrd (tg : Tag) (cr : BitVec 8) (a : BitVec 5) : Statement (.mcfgrd tg cr a) := of_word rfl <| (decode_matrix _ _ _ (by decide)).trans (unpack_packMCR _ _ _)
theorem xcopy (tg : Tag) (kd : BitVec 6) (a : BitVec 5) (l : BitVec 4) : Statement (.xcopy tg kd a l) := of_word rfl <| (decode_async _ _ _ (by decide)).trans (unpack_packXT _ _ _ _)
theorem xlin (tg : Tag) (kd : BitVec 6) (a : BitVec 5) (l : BitVec 4) : Statement (.xlin tg kd a l) := of_word rfl <| (decode_async _ _ _ (by decide)).trans (unpack_packXT _ _ _ _)
theorem xidx (tg : Tag) (a : BitVec 5) : Statement (.xidx tg a) := of_word rfl <| (decode_async _ _ _ (by decide)).trans (unpack_packA _ _)
theorem xgath (tg : Tag) (kd : BitVec 6) (a : BitVec 5) (l : BitVec 4) : Statement (.xgath tg kd a l) := of_word rfl <| (decode_async _ _ _ (by decide)).trans (unpack_packXT _ _ _ _)
theorem xscat (tg : Tag) (kd : BitVec 6) (a : BitVec 5) (l : BitVec 4) : Statement (.xscat tg kd a l) := of_word rfl <| (decode_async _ _ _ (by decide)).trans (unpack_packXT _ _ _ _)
theorem xmove (tg : Tag) (op : BitVec 4) (w : BitVec 3) (a : BitVec 5) : Statement (.xmove tg op w a) := of_word rfl <| (decode_async _ _ _ (by decide)).trans (unpack_packXP _ _ _ _)
theorem xchain (tg : Tag) (kd : BitVec 6) (a : BitVec 5) (l : BitVec 4) : Statement (.xchain tg kd a l) := of_word rfl <| (decode_async _ _ _ (by decide)).trans (unpack_packXT _ _ _ _)
theorem xstat (tg : Tag) (d : BitVec 5) (ch : BitVec 3) : Statement (.xstat tg d ch) := of_word rfl <| (decode_async _ _ _ (by decide)).trans (unpack_packXS _ _ _)
theorem xfence (tg : Tag) (kd : BitVec 6) (sc : BitVec 3) : Statement (.xfence tg kd sc) := of_word rfl <| (decode_async _ _ _ (by decide)).trans (unpack_packXF _ _ _)
theorem xred (tg : Tag) (kd : BitVec 6) (a : BitVec 5) (l : BitVec 4) : Statement (.xred tg kd a l) := of_word rfl <| (decode_async _ _ _ (by decide)).trans (unpack_packXT _ _ _ _)
theorem xatom (tg : Tag) (kd : BitVec 6) (a : BitVec 5) (l : BitVec 4) : Statement (.xatom tg kd a l) := of_word rfl <| (decode_async _ _ _ (by decide)).trans (unpack_packXT _ _ _ _)
theorem xredv (tg : Tag) (kd : BitVec 6) (a : BitVec 5) (l : BitVec 4) : Statement (.xredv tg kd a l) := of_word rfl <| (decode_async _ _ _ (by decide)).trans (unpack_packXT _ _ _ _)
theorem xbara (tg : Tag) (kd : BitVec 6) (a : BitVec 5) (l : BitVec 4) : Statement (.xbara tg kd a l) := of_word rfl <| (decode_async _ _ _ (by decide)).trans (unpack_packXT _ _ _ _)
theorem xbarw (tg : Tag) (kd : BitVec 6) (a : BitVec 5) (l : BitVec 4) : Statement (.xbarw tg kd a l) := of_word rfl <| (decode_async _ _ _ (by decide)).trans (unpack_packXT _ _ _ _)
theorem xallr (tg : Tag) (kd : BitVec 6) (a : BitVec 5) (l : BitVec 4) : Statement (.xallr tg kd a l) := of_word rfl <| (decode_async _ _ _ (by decide)).trans (unpack_packXT _ _ _ _)
theorem xrdsc (tg : Tag) (kd : BitVec 6) (a : BitVec 5) (l : BitVec 4) : Statement (.xrdsc tg kd a l) := of_word rfl <| (decode_async _ _ _ (by decide)).trans (unpack_packXT _ _ _ _)
theorem xallg (tg : Tag) (kd : BitVec 6) (a : BitVec 5) (l : BitVec 4) : Statement (.xallg tg kd a l) := of_word rfl <| (decode_async _ _ _ (by decide)).trans (unpack_packXT _ _ _ _)
theorem xbcst (tg : Tag) (kd : BitVec 6) (a : BitVec 5) (l : BitVec 4) : Statement (.xbcst tg kd a l) := of_word rfl <| (decode_async _ _ _ (by decide)).trans (unpack_packXT _ _ _ _)
theorem xpcnt (tg : Tag) (d a : BitVec 5) : Statement (.xpcnt tg d a) := of_word rfl <| (decode_async _ _ _ (by decide)).trans (unpack_packDA _ _ _)
theorem xpcan (tg : Tag) (kd : BitVec 6) (a : BitVec 5) (l : BitVec 4) : Statement (.xpcan tg kd a l) := of_word rfl <| (decode_async _ _ _ (by decide)).trans (unpack_packXT _ _ _ _)
theorem xmvb (tg : Tag) (kd : BitVec 6) (a : BitVec 5) (l : BitVec 4) : Statement (.xmvb tg kd a l) := of_word rfl <| (decode_async _ _ _ (by decide)).trans (unpack_packXT _ _ _ _)
theorem xlaunch (tg : Tag) (kd : BitVec 6) (a : BitVec 5) (l : BitVec 4) : Statement (.xlaunch tg kd a l) := of_word rfl <| (decode_async _ _ _ (by decide)).trans (unpack_packXT _ _ _ _)
theorem xckpt (tg : Tag) (kd : BitVec 6) (a : BitVec 5) (l : BitVec 4) : Statement (.xckpt tg kd a l) := of_word rfl <| (decode_async _ _ _ (by decide)).trans (unpack_packXT _ _ _ _)
theorem xhadd (tg : Tag) (kd : BitVec 6) (a : BitVec 5) (l : BitVec 4) : Statement (.xhadd tg kd a l) := of_word rfl <| (decode_async _ _ _ (by decide)).trans (unpack_packXT _ _ _ _)
theorem xhdel (tg : Tag) (kd : BitVec 6) (a : BitVec 5) (l : BitVec 4) : Statement (.xhdel tg kd a l) := of_word rfl <| (decode_async _ _ _ (by decide)).trans (unpack_packXT _ _ _ _)
theorem xsend (tg : Tag) (kd : BitVec 6) (a : BitVec 5) (l : BitVec 4) : Statement (.xsend tg kd a l) := of_word rfl <| (decode_async _ _ _ (by decide)).trans (unpack_packXT _ _ _ _)
theorem xrecv (tg : Tag) (kd : BitVec 6) (a : BitVec 5) (l : BitVec 4) : Statement (.xrecv tg kd a l) := of_word rfl <| (decode_async _ _ _ (by decide)).trans (unpack_packXT _ _ _ _)
theorem xsig (tg : Tag) (kd : BitVec 6) (a : BitVec 5) (l : BitVec 4) : Statement (.xsig tg kd a l) := of_word rfl <| (decode_async _ _ _ (by decide)).trans (unpack_packXT _ _ _ _)
theorem portUp : Statement .portUp := of_none rfl
theorem entropyHealthTest : Statement .entropyHealthTest := of_none rfl
theorem idleClkCharge : Statement .idleClkCharge := of_none rfl

end Sys2Proof.Laws.Encoding
end

