-- ==== Sys2Proof/Safety/Rules.lean ====
section
/-! DEFINITION. The terms in which statements about issues are made: what every issue of a bundle of one syllable does beside
the syllable's own effect (R79, R84, R112, R233). -/

namespace Sys2Proof.Rules

open Sys2Proof.Machine

/-- A result that enters flight: its latency, the rank of its slot, its register and its value (R83, R84). -/
structure Result where
  slot  : Nat
  lat   : Nat
  dest  : Dest
  word  : Word := 0
  vec   : Lanes := []
  lanes : Word := 0
  flags : Fl := 0
deriving DecidableEq, Repr

/-- The result in flight of the issue numbered `ord`. -/
def Result.landing (r : Result) (ord : Nat) : Landing :=
  ⟨r.lat, r.slot, ord, r.dest, r.word, r.vec, r.lanes, r.flags⟩

/-- The predicate that enters stage j of a loop at the end of an iteration (R112): that of the stage below. -/
def stageResult (s : State) (j : Nat) : Result :=
  { slot := 8, lat := 1, dest := .p ⟨(BitVec.ofNat 3 (4 + j)).toNat, (BitVec.ofNat 3 (4 + j)).isLt⟩
    word := if s.me.regs.pGet (BitVec.ofNat 3 (3 + j)) then 1 else 0 }

/-- The results of LoopEndUpdate (R112), in a bundle of the loop-closing template while a loop is open. -/
def loopResults (s : State) : List Result :=
  let y := s.me.sys
  let S := y.nstg.toNat
  if s.fr.tmpl ≠ 3 ∨ S = 0 then []
  else
    [{ slot := 8, lat := 1, dest := .sr 0x10, word := (y.lc - 1).zeroExtend 64 },
     { slot := 8, lat := 1, dest := .sr 0x12, word := (y.rot - 1).zeroExtend 64 }]
      ++ (List.range (S - 1)).map (fun i => stageResult s (S - 1 - i))
      ++ [{ slot := 8, lat := 1, dest := .p 4, word := if S ≤ (y.lc - 1).toNat then 1 else 0 }]
      ++ (if y.lc - 1 = 0 then [{ slot := 8, lat := 1, dest := .sr 0x11, word := 0 }] else [])

/-- Where control passes when no branch is taken (R86, R112): the next bundle, or the loop's first bundle again. -/
def nextPc (s : State) : W32 :=
  if s.fr.tmpl = 3 ∧ s.me.sys.nstg.toNat ≠ 0 ∧ s.me.sys.lc - 1 ≠ 0 then s.me.lsa else s.fr.next

/-- The current operations after the issue of a syllable (R79, R81, R82). -/
def curAfter (s : State) (i : Instr) (slot : Nat) : Vector Cur 5 :=
  match curIndex slot with
  | none => s.me.cur
  | some j =>
    s.me.cur.set j <|
      if oneShot i then {}
      else ⟨(encode i).headD 0, match litIndex i with
        | some n => if n = 15 then 0 else s.literal n
        | none => 0⟩

/-- The energy that an issue of a class charges: its own weight, and the bundle's (R233). -/
def issueCharge (s : State) (cls : Fin 16) : Nat := (s.myCore.ewt[(15 : Fin 16)]).toNat + (s.myCore.ewt[cls]).toNat

/-- The issuing context after an issue of class `cls` whose syllable brings the results `rs`: they enter flight, the issue is
numbered and charged, and control passes on. Every register stands. -/
def ctxAfter (s : State) (i : Instr) (slot : Nat) (cls : Fin 16) (rs : List Result) : Ctx :=
  { s.me with
    ord := s.me.ord + 1, charge := s.me.charge + issueCharge s cls, cur := curAfter s i slot
    land := s.me.land ++ rs.map (fun r => r.landing (s.me.ord + 1)) ++ (loopResults s).map (fun r => r.landing (s.me.ord + 1))
    pc := nextPc s, run := none }

/-- The instruction issues: the next state differs from `s` in the issuing context, which becomes `g` of what `ctxAfter` says, in
what `side` changes, and in the model's own frame of the issue in hand; a parity error that the syllable meets is reported (R211). -/
def Does (s : State) (i : Instr) (slot : Nat) (cls : Fin 16) (rs : List Result) (g : Ctx → Ctx) (side : State → State) : Prop :=
  ∃ f : Frame, exec i s = .next (((side (s.setMe (g (ctxAfter s i slot cls rs)))).meet (s.meets i slot)).setFr f)

/-- The instruction issues and does nothing but bring the results `rs`: every register, memory, and everything else of the module
stand as they were. -/
def Brings (s : State) (i : Instr) (slot : Nat) (cls : Fin 16) (rs : List Result) : Prop :=
  Does s i slot cls rs (fun c => c) (fun t => t)

/-- A bundle of one syllable makes its only issue (R79): the state in which the syllable's instruction is executed. The bundle
is under way with the registers it began with, and a based operation keeps its base (R80). -/
def oneIssue (s : State) (core : Nat) (x : Fin 4) (b : Bundle) (i : Instr) (slot : Nat) (cap : Option W32) : State :=
  let c := s.ctx core x
  let s := s.setCtx core x { c with
    boundAt := if c.stepBk then s.wcc.toNat else c.boundAt
    stepBk := false, arrived := false, release := none, lsa := if b.tmpl = 2 then c.pc else c.lsa
    region := c.region || (b.tmpl == 4 && c.sys.gang), run := some ⟨b, 0, c.regs, c.sys.wins, 0, 0⟩ }
  let s := s.setCore core { s.core core with issued := some (c.pc, 0) }
  let s := s.setFr { bundleFrame core x c b with snap := some (c.regs, c.sys.wins), cap := cap }
  match baseReg i with
  | none => s
  | some a => s.keepBase slot (s.nowS a)

/-- Context `x` of `core` holds issue in the clk in hand, with nothing under way, nothing to report and nothing to reload, and the bundle at its program
counter is `b`, fetched and found legal in the state `t` of its checks, with one issue; a code page that its handler maps is mapped
already (R240); a sync bundle has been released (R257). -/
def Fetches (s : State) (core : Nat) (x : Fin 4) (b : Bundle) (t : State) : Prop :=
  let c := s.ctx core x
  c.frozen = .none ∧ c.run = none ∧ c.report = none ∧ s.serves core x = false ∧ c.lsk = false ∧ c.reload = false ∧ c.treload = false ∧
  s.frontEnd core x = .inr (b, t) ∧ t.handlerMaps core x = t ∧ b.rep = 0 ∧ b.clr = 0 ∧
  ((b.tmpl ≠ 1 ∧ c.arrived = false ∧ c.release = none) ∨ (b.tmpl = 1 ∧ c.release = some 0))

/-- An instruction that brings results when its condition is 1 (R73): its slot, its energy class and its results. -/
structure Row where
  slot    : Nat
  cls     : Fin 16
  cond    : State → Bool
  results : State → List Result

/-- The syllable is legal and has no issue-time fault, in a bundle of its own (R78). -/
def Passes (s : State) (i : Instr) : Prop :=
  ∃ y, sylOf i = some y ∧ y.legal (s.setFr (s.fr.alone i)) = true ∧ y.chk (s.setFr (s.fr.alone i)) = none

/-- The instructions of a table, their checks passed, bring the results that it says, and with their condition 0 none (R73). -/
def Table.Holds (row : Instr → Option Row) : Prop :=
  ∀ (s : State) (i : Instr) (r : Row), row i = some r → Passes s i →
    Brings s i r.slot r.cls (if r.cond s then r.results s else [])

/-! ### Scalar results (R104 to R108, R122, R125) -/

/-- One result of an S-slot instruction. -/
def sRow (tg : Tag2) (cls : Fin 16) (lat : Nat) (dest : State → Dest) (word : State → Word) : Row :=
  { slot := slotOf tg 0, cls := cls, cond := fun s => s.condS tg
    results := fun s => [{ slot := slotOf tg 0, lat := lat, dest := dest s, word := word s }] }

/-- A result to s(d): class 0 at latency 1, the register renamed by ROT (R10). -/
def sVal (tg : Tag2) (d : BitVec 5) (word : State → Word) : Row := sRow tg 0 1 (fun s => .s (physReg s.me.sys.rot d)) word
/-- A product to s(d): class 1 at latency 3. -/
def sMul (tg : Tag2) (d : BitVec 5) (word : State → Word) : Row := sRow tg 1 3 (fun s => .s (physReg s.me.sys.rot d)) word
/-- A result to p(pd). -/
def sPred (tg : Tag2) (pd : BitVec 3) (b : State → Bool) : Row :=
  sRow tg 0 1 (fun _ => .p ⟨pd.toNat, pd.isLt⟩) fun s => if b s then 1 else 0

/-- Scalar arithmetic on registers and immediates (R104, R105). -/
def arithRow (i : Instr) : Option Row :=
  match i with
  | .add tg d a b => some (sVal tg d fun s => s.rdS a + s.rdS b)
  | .sub tg d a b => some (sVal tg d fun s => s.rdS a - s.rdS b)
  | .mul tg d a b => some (sMul tg d fun s => s.rdS a * s.rdS b)
  | .mulh tg d a b => some (sMul tg d fun s => BitVec.ofInt 64 ((s.rdS a).toInt * (s.rdS b).toInt / 2 ^ 64))
  | .and tg d a b => some (sVal tg d fun s => s.rdS a &&& s.rdS b)
  | .or tg d a b => some (sVal tg d fun s => s.rdS a ||| s.rdS b)
  | .xor tg d a b => some (sVal tg d fun s => s.rdS a ^^^ s.rdS b)
  | .andn tg d a b => some (sVal tg d fun s => s.rdS a &&& ~~~ s.rdS b)
  | .shl tg d a b => some (sVal tg d fun s => s.rdS a <<< ((s.rdS b).toNat % 64))
  | .shr tg d a b => some (sVal tg d fun s => s.rdS a >>> ((s.rdS b).toNat % 64))
  | .sra tg d a b => some (sVal tg d fun s => (s.rdS a).sshiftRight ((s.rdS b).toNat % 64))
  | .min tg d a b => some (sVal tg d fun s => if (s.rdS b).toInt < (s.rdS a).toInt then s.rdS b else s.rdS a)
  | .max tg d a b => some (sVal tg d fun s => if (s.rdS a).toInt < (s.rdS b).toInt then s.rdS b else s.rdS a)
  | .addi tg d a imm => some (sVal tg d fun s => s.rdS a + imm.signExtend 64)
  | .muli tg d a imm => some (sMul tg d fun s => s.rdS a * imm.signExtend 64)
  | .andi tg d a imm => some (sVal tg d fun s => s.rdS a &&& imm.signExtend 64)
  | .ori tg d a imm => some (sVal tg d fun s => s.rdS a ||| imm.signExtend 64)
  | .xori tg d a imm => some (sVal tg d fun s => s.rdS a ^^^ imm.signExtend 64)
  | .shli tg d a imm => some (sVal tg d fun s => s.rdS a <<< imm.toNat)
  | .shri tg d a imm => some (sVal tg d fun s => s.rdS a >>> imm.toNat)
  | .srai tg d a imm => some (sVal tg d fun s => (s.rdS a).sshiftRight imm.toNat)
  | .addl tg d a l => some (sVal tg d fun s => s.rdS a + (s.literal l.toNat).signExtend 64)
  | .addx3 tg d a b => some (sVal tg d fun s => s.rdS a + s.rdS b * 8)
  | .movi tg d imm => some (sVal tg d fun _ => imm.signExtend 64)
  | .movl tg d l => some (sVal tg d fun s => (s.literal l.toNat).signExtend 64)
  | .movl64 tg d l => some (sVal tg d fun s => s.literal (l.toNat + 1) ++ s.literal l.toNat)
  | .clz tg d a => some (sVal tg d fun s => BitVec.ofNat 64 (if s.rdS a = 0 then 64 else 63 - (s.rdS a).toNat.log2))
  | .popc tg d a => some (sVal tg d fun s => BitVec.ofNat 64 ((List.range 64).filter fun k => (s.rdS a).getLsbD k).length)
  | _ => none

/-- Compares and predicate logic (R106, R107). -/
def predRow (i : Instr) : Option Row :=
  match i with
  | .cmpeq tg pd a b => some (sPred tg pd fun s => decide (s.rdS a = s.rdS b))
  | .cmpne tg pd a b => some (sPred tg pd fun s => decide (s.rdS a ≠ s.rdS b))
  | .cmplt tg pd a b => some (sPred tg pd fun s => decide ((s.rdS a).toInt < (s.rdS b).toInt))
  | .cmpge tg pd a b => some (sPred tg pd fun s => decide ((s.rdS b).toInt ≤ (s.rdS a).toInt))
  | .cmpltu tg pd a b => some (sPred tg pd fun s => decide ((s.rdS a).toNat < (s.rdS b).toNat))
  | .cmpgeu tg pd a b => some (sPred tg pd fun s => decide ((s.rdS b).toNat ≤ (s.rdS a).toNat))
  | .cmpeqi tg pd a imm => some (sPred tg pd fun s => decide (s.rdS a = imm.signExtend 64))
  | .cmplti tg pd a imm => some (sPred tg pd fun s => decide ((s.rdS a).toInt < imm.toInt))
  | .cmpltui tg pd a imm => some (sPred tg pd fun s => decide ((s.rdS a).toNat < imm.toNat))
  | .pand tg pd pa pb na nb => some (sPred tg pd fun s => (s.rdP pa != decide (na = 1)) && (s.rdP pb != decide (nb = 1)))
  | .por tg pd pa pb na nb => some (sPred tg pd fun s => (s.rdP pa != decide (na = 1)) || (s.rdP pb != decide (nb = 1)))
  | .pxor tg pd pa pb na nb => some (sPred tg pd fun s => (s.rdP pa != decide (na = 1)) != (s.rdP pb != decide (nb = 1)))
  -- SEL always issues, and its condition chooses (R108)
  | .sel tg d a b => some { sVal tg d (fun s => if s.condS tg then s.rdS a else s.rdS b) with cond := fun _ => true }
  | _ => none

/-- Reads of system registers and of the energy count, and writes of system registers (R122, R125). -/
def sysRow (i : Instr) : Option Row :=
  match i with
  | .mfsr tg d sr => some (sVal tg d fun s => s.readSr sr.toNat)
  | .mtsr tg d sr => some (sRow tg 0 1 (fun _ => .sr sr.toNat) fun s => s.rdS d)
  | .rden tg d =>
    some (sVal tg d fun s => BitVec.ofNat 64
      ((if s.me.sys.esat then 2 ^ 63 else 0) + s.me.sys.ecnt.toNat * 16 + s.me.sys.eres.toNat))
  | _ => none

/-! ### Random draws (R63, R67, R126, R132) -/

/-- The words of the next draw of the issuing context (R63). -/
def drawn (s : State) (n : Nat) : List W32 :=
  drawWords (s.seedEntry s.me.sys.seed.toNat).key s.me.sys.stream s.me.sys.rcnt n

/-- A draw of `n` words advances RCNT by the calls it makes (R63). -/
def drawResult (s : State) (slot n : Nat) : Result :=
  { slot := slot, lat := 1, dest := .sr 0x0C, word := s.me.sys.rcnt + BitVec.ofNat 64 ((n + 3) / 4) }

/-- The selected seed-log entry is valid and of the context's tenant (R67). -/
def seedOk (s : State) : Prop :=
  (s.seedEntry s.me.sys.seed.toNat).valid = true ∧ (s.seedEntry s.me.sys.seed.toNat).asid = s.me.bind.asid

/-! ### Vector results (R129 to R153) -/

/-- The flags of the active lanes together (R132). -/
def laneFlags (sel : Word) (f : Nat → Fl) : Fl :=
  (List.range 64).foldl (fun a k => if sel.getLsbD k then a ||| f k else a) 0

/-- A vector result: `f` on each lane of which the active ones are written, after the draw that comes with it (R130 to R132). -/
def vRow (tg : Tag2) (cls : Fin 16) (lat : Nat) (d : BitVec 5) (draws : State → List Result) (f : State → Nat → W32 × Fl) : Row :=
  { slot := slotOf tg 2, cls := cls, cond := fun _ => true
    results := fun s => draws s ++
      [{ slot := slotOf tg 2, lat := lat, dest := .v (physReg s.me.sys.rot d), vec := mkLanes fun k => (f s k).1
         lanes := s.sel tg, flags := laneFlags (s.sel tg) fun k => (f s k).2 }] }

/-- A vector result that writes every lane (R130). -/
def vWhole (tg : Tag2) (cls : Fin 16) (lat : Nat) (d : BitVec 5) (draws : State → List Result) (f : State → Lanes × Fl) : Row :=
  { slot := slotOf tg 2, cls := cls, cond := fun _ => true
    results := fun s => draws s ++
      [{ slot := slotOf tg 2, lat := lat, dest := .v (physReg s.me.sys.rot d), vec := (f s).1, lanes := BitVec.allOnes 64
         flags := (f s).2 }] }

/-- No draw. -/
def noDraw (_ : State) : List Result := []

/-- A stochastic operation draws one word for each element of a format (R132). -/
def drawIf (b : State → Bool) (tg : Tag2) (n : Nat) (s : State) : List Result :=
  if b s then [drawResult s (slotOf tg 2) n] else []

/-- The context rounds stochastically (R22). -/
def stochastic (s : State) : Bool := s.rm == 4

/-- An arithmetic row of R135: element e of lane k from those of va, vb and vd, with draw word k + 64 e. -/
def fpArith (F : Fmt) (tg : Tag2) (cls : Fin 16) (d a b : BitVec 5)
    (op : Nat → Nat → Nat → Nat → Nat → Nat → Nat × Fl) : Row :=
  vRow tg cls 4 d (drawIf stochastic tg (64 * (32 / F.width))) fun s k => elemMap F.width fun e =>
    op s.rm s.fm (if stochastic s then ((drawn s (64 * (32 / F.width))).getD (k + 64 * e) 0).toNat else 0)
      (elemOf (lane (s.nowV a) k) F.width e) (elemOf (lane (s.nowV b) k) F.width e) (elemOf (lane (s.nowV d) k) F.width e)

/-- A minimum or maximum row of R135: class of its format, latency 2. -/
def fpMin (F : Fmt) (max : Bool) (tg : Tag2) (cls : Fin 16) (d a b : BitVec 5) : Row :=
  vRow tg cls 2 d noDraw fun s k => elemMap F.width fun e =>
    fpMinMax F max s.fm (elemOf (lane (s.nowV a) k) F.width e) (elemOf (lane (s.nowV b) k) F.width e)

/-- Floating-point arithmetic (R135). -/
def fpRow (i : Instr) : Option Row :=
  match i with
  | .vaddF32 tg d a b => some (fpArith fmtF32 tg 4 d a b fun rm fm w x y _ => fpAdd fmtF32 rm fm w x y)
  | .vsubF32 tg d a b => some (fpArith fmtF32 tg 4 d a b fun rm fm w x y _ => fpSub fmtF32 rm fm w x y)
  | .vmulF32 tg d a b => some (fpArith fmtF32 tg 4 d a b fun rm fm w x y _ => fpMul fmtF32 rm fm w x y)
  | .vfmaF32 tg d a b => some (fpArith fmtF32 tg 4 d a b fun rm fm w x y z => fpFma fmtF32 rm fm w x y z)
  | .vaddBf16 tg d a b => some (fpArith fmtBF16 tg 5 d a b fun rm fm w x y _ => fpAdd fmtBF16 rm fm w x y)
  | .vsubBf16 tg d a b => some (fpArith fmtBF16 tg 5 d a b fun rm fm w x y _ => fpSub fmtBF16 rm fm w x y)
  | .vmulBf16 tg d a b => some (fpArith fmtBF16 tg 5 d a b fun rm fm w x y _ => fpMul fmtBF16 rm fm w x y)
  | .vfmaBf16 tg d a b => some (fpArith fmtBF16 tg 5 d a b fun rm fm w x y z => fpFma fmtBF16 rm fm w x y z)
  | .vaddF16 tg d a b => some (fpArith fmtF16 tg 5 d a b fun rm fm w x y _ => fpAdd fmtF16 rm fm w x y)
  | .vmulF16 tg d a b => some (fpArith fmtF16 tg 5 d a b fun rm fm w x y _ => fpMul fmtF16 rm fm w x y)
  | .vfmaF16 tg d a b => some (fpArith fmtF16 tg 5 d a b fun rm fm w x y z => fpFma fmtF16 rm fm w x y z)
  | .vminF32 tg d a b => some (fpMin fmtF32 false tg 4 d a b)
  | .vmaxF32 tg d a b => some (fpMin fmtF32 true tg 4 d a b)
  | .vminBf16 tg d a b => some (fpMin fmtBF16 false tg 5 d a b)
  | .vmaxBf16 tg d a b => some (fpMin fmtBF16 true tg 5 d a b)
  | _ => none

/-- An integer row of R137 on elements of n bits: the exact result wrapped or saturated. -/
def intArith (n : Nat) (sat : Bool) (tg : Tag2) (lat : Nat) (d a b : BitVec 5) (op : Int → Int → Int) : Row :=
  vRow tg 3 lat d noDraw fun s k => elemMap n fun e =>
    let x := op (signExt (elemOf (lane (s.nowV a) k) n e) n) (signExt (elemOf (lane (s.nowV b) k) n e) n)
    if sat then satInt n x else wrapInt n x

/-- Integer arithmetic (R137). -/
def intRow (i : Instr) : Option Row :=
  match i with
  | .vaddI32 tg d a b => some (intArith 32 false tg 2 d a b (· + ·))
  | .vsubI32 tg d a b => some (intArith 32 false tg 2 d a b (· - ·))
  | .vmulI32 tg d a b => some (intArith 32 false tg 3 d a b (· * ·))
  | .vaddsI32 tg d a b => some (intArith 32 true tg 2 d a b (· + ·))
  | .vminI32 tg d a b => some (intArith 32 false tg 2 d a b min)
  | .vmaxI32 tg d a b => some (intArith 32 false tg 2 d a b max)
  | .vaddI16 tg d a b => some (intArith 16 false tg 2 d a b (· + ·))
  | .vsubI16 tg d a b => some (intArith 16 false tg 2 d a b (· - ·))
  | .vmulI16 tg d a b => some (intArith 16 false tg 3 d a b (· * ·))
  | .vaddsI16 tg d a b => some (intArith 16 true tg 2 d a b (· + ·))
  | .vaddI8 tg d a b => some (intArith 8 false tg 2 d a b (· + ·))
  | .vsubI8 tg d a b => some (intArith 8 false tg 2 d a b (· - ·))
  | .vaddsI8 tg d a b => some (intArith 8 true tg 2 d a b (· + ·))
  | _ => none

/-- A lane operation that sets no flag. -/
def laneRow (tg : Tag2) (cls : Fin 16) (lat : Nat) (d : BitVec 5) (f : State → Nat → W32) : Row :=
  vRow tg cls lat d noDraw fun s k => (f s k, 0)

/-- Bitwise operations, shifts, selections and movements of lanes (R141, R149). -/
def moveRow (i : Instr) : Option Row :=
  match i with
  | .vand tg d a b => some (laneRow tg 3 1 d fun s k => lane (s.nowV a) k &&& lane (s.nowV b) k)
  | .vor tg d a b => some (laneRow tg 3 1 d fun s k => lane (s.nowV a) k ||| lane (s.nowV b) k)
  | .vxor tg d a b => some (laneRow tg 3 1 d fun s k => lane (s.nowV a) k ^^^ lane (s.nowV b) k)
  | .vshlI32 tg d a b => some (laneRow tg 3 1 d fun s k => lane (s.nowV a) k <<< ((lane (s.nowV b) k).toNat % 32))
  | .vshrI32 tg d a b => some (laneRow tg 3 1 d fun s k => lane (s.nowV a) k >>> ((lane (s.nowV b) k).toNat % 32))
  | .vsraI32 tg d a b => some (laneRow tg 3 1 d fun s k => (lane (s.nowV a) k).sshiftRight ((lane (s.nowV b) k).toNat % 32))
  | .vperm tg d a b => some (laneRow tg 7 3 d fun s k => lane (s.nowV a) ((lane (s.nowV b) k).toNat % 64))
  | .vbcast tg d a imm => some (laneRow tg 3 2 d fun s _ => lane (s.nowV a) imm.toNat)
  | .vsplat tg d a => some (laneRow tg 3 1 d fun s _ => (s.nowS a).truncate 32)
  | .vsel tg d a b =>
    some (vWhole tg 3 1 d noDraw fun s =>
      (mkLanes fun k => if (s.sel tg).getLsbD k then lane (s.nowV a) k else lane (s.nowV b) k, 0))
  | _ => none

/-- A mask result (R130): bit k is `f` on the active lanes and 0 elsewhere. -/
def mRow (tg : Tag2) (lat : Nat) (md : BitVec 3) (f : State → Nat → Bool × Fl) : Row :=
  { slot := slotOf tg 2, cls := 3, cond := fun _ => true
    results := fun s =>
      [{ slot := slotOf tg 2, lat := lat, dest := .m ⟨md.toNat, md.isLt⟩, word := s.sel tg &&& maskOf fun k => (f s k).1
         flags := laneFlags (s.sel tg) fun k => (f s k).2 }] }

/-- Compares and mask logic (R138, R139). -/
def maskRow (i : Instr) : Option Row :=
  match i with
  | .vcmpeqF32 tg md a b => some (mRow tg 2 md fun s k => fpCompare fmtF32 .eq s.fm (lane (s.nowV a) k).toNat (lane (s.nowV b) k).toNat)
  | .vcmpltF32 tg md a b => some (mRow tg 2 md fun s k => fpCompare fmtF32 .lt s.fm (lane (s.nowV a) k).toNat (lane (s.nowV b) k).toNat)
  | .vcmpleF32 tg md a b => some (mRow tg 2 md fun s k => fpCompare fmtF32 .le s.fm (lane (s.nowV a) k).toNat (lane (s.nowV b) k).toNat)
  | .vcmpeqI32 tg md a b => some (mRow tg 2 md fun s k => (decide (lane (s.nowV a) k = lane (s.nowV b) k), 0))
  | .vcmpltI32 tg md a b => some (mRow tg 2 md fun s k => (decide ((lane (s.nowV a) k).toInt < (lane (s.nowV b) k).toInt), 0))
  | .vcmpleI32 tg md a b => some (mRow tg 2 md fun s k => (decide ((lane (s.nowV a) k).toInt ≤ (lane (s.nowV b) k).toInt), 0))
  | .vmand tg md ma mb => some (mRow tg 1 md fun s k => ((s.nowM ma).getLsbD k && (s.nowM mb).getLsbD k, 0))
  | .vmor tg md ma mb => some (mRow tg 1 md fun s k => ((s.nowM ma).getLsbD k || (s.nowM mb).getLsbD k, 0))
  | .vmxor tg md ma mb => some (mRow tg 1 md fun s k => ((s.nowM ma).getLsbD k != (s.nowM mb).getLsbD k, 0))
  | .vmovm tg md a => some (mRow tg 1 md fun s k => ((s.nowS a).getLsbD k, 0))
  | _ => none

/-- A conversion row of R142. -/
def cvtRow (rm : State → Nat) (lat : Nat) (tg : Tag2) (d a : BitVec 5) (sf df : BitVec 3) : Row :=
  vRow tg 6 lat d (drawIf (fun s => rm s == 4) tg 64) fun s k =>
    let y := convert (cvtFmt sf) (cvtFmt df) (rm s) s.fm (if rm s == 4 then ((drawn s 64).getD k 0).toNat else 0) (lane (s.nowV a) k)
    (BitVec.ofNat 32 y.1, y.2)

/-- Conversions and packed images (R142 to R145), approximations (R151) and draws (R152). -/
def convertRow (i : Instr) : Option Row :=
  match i with
  | .vcvt tg d a sf df => some (cvtRow State.rm 4 tg d a sf df)
  | .vcvtSr tg d a sf df => some (cvtRow (fun _ => 4) 5 tg d a sf df)
  | .vpack tg d a f =>
    some (vWhole tg 6 5 d (drawIf stochastic tg 64) fun s =>
      let b := packBlocks (f == 3) (packBits f) s.rm s.fm
        (fun k => if (s.sel tg).getLsbD k then fpDecode fmtF32 (flushIn fmtF32 s.fm (lane (s.nowV a) k).toNat) else .fin false 0 0)
        (fun k => if stochastic s then ((drawn s 64).getD k 0).toNat else 0)
      (packImage (packBits f) b.1, b.2))
  | .vunpk tg d a f =>
    some (vRow tg 6 4 d noDraw fun s k =>
      let r := decodeElem (packBits f) ((imageNat (s.nowV a) >>> (packBits f * k)) % 2 ^ packBits f)
        ((imageNat (s.nowV a) >>> (8 * (64 + k / 4))) % 256) (f == 3) s.rm s.fm
      (BitVec.ofNat 32 r.1, r.2))
  | .vexp2 tg d a => some (vRow tg 6 6 d noDraw fun s k => let r := fpApprox .exp2 s.fm (lane (s.nowV a) k).toNat; (BitVec.ofNat 32 r.1, r.2))
  | .vlog2 tg d a => some (vRow tg 6 6 d noDraw fun s k => let r := fpApprox .log2 s.fm (lane (s.nowV a) k).toNat; (BitVec.ofNat 32 r.1, r.2))
  | .vrcp tg d a => some (vRow tg 6 6 d noDraw fun s k => let r := fpApprox .rcp s.fm (lane (s.nowV a) k).toNat; (BitVec.ofNat 32 r.1, r.2))
  | .vrsq tg d a => some (vRow tg 6 6 d noDraw fun s k => let r := fpApprox .rsq s.fm (lane (s.nowV a) k).toNat; (BitVec.ofNat 32 r.1, r.2))
  | .vrand tg d => some (vRow tg 6 6 d (drawIf (fun _ => true) tg 64) fun s k => ((drawn s 64).getD k 0, 0))
  | _ => none

/-- The inputs of a reduction or scan: the identity in place of an inactive lane (R59, R60). -/
def treeInput (s : State) (tg : Tag2) (a : BitVec 5) (idn : W32) : List W32 :=
  mkLanes fun k => if (s.sel tg).getLsbD k then lane (s.nowV a) k else idn

/-- A reduction row of R146: the root of the tree in every lane. -/
def reduceRow (tg : Tag2) (d a : BitVec 5) (idn : W32) (op : State → W32 → W32 → W32 × Fl) : Row :=
  vWhole tg 7 8 d noDraw fun s =>
    let r := treeReduce (op s) (treeInput s tg a idn)
    (mkLanes fun _ => r.1.headD 0, r.2)

/-- A scan row of R147 over operands as `rd` reads them (R50); lane 0 passes through no step (R60, log 63). -/
def scanRow (tg : Tag2) (d a : BitVec 5) (rd : State → W32 → W32) (op : State → W32 → W32 → W32 × Fl) : Row :=
  vWhole tg 7 8 d noDraw fun s =>
    let r := treeScan (op s) ((treeInput s tg a 0).map (rd s))
    (mkLanes fun k => r.1.getD k 0, r.2)

/-- The lane numbers of R150: those active with their mask bit 1, those active with it 0, then the inactive ones. -/
def partLists (sel mask : Word) : List Nat × List Nat × List Nat :=
  ((List.range 64).filter (fun k => sel.getLsbD k && mask.getLsbD k),
   (List.range 64).filter (fun k => sel.getLsbD k && !mask.getLsbD k),
   (List.range 64).filter fun k => !sel.getLsbD k)

/-- Reductions, scans and the partition (R146, R147, R150). -/
def acrossRow (i : Instr) : Option Row :=
  match i with
  | .vredAddF32 tg d a => some (reduceRow tg d a 0 stepAddF)
  | .vredMinF32 tg d a => some (reduceRow tg d a 0x7F800000#32 (stepMinMax false))
  | .vredMaxF32 tg d a => some (reduceRow tg d a 0xFF800000#32 (stepMinMax true))
  | .vredAddI32 tg d a => some (reduceRow tg d a 0 fun _ x y => (x + y, 0))
  | .vscanAddF32 tg d a => some (scanRow tg d a (fun s w => BitVec.ofNat 32 (flushIn fmtF32 s.fm w.toNat)) stepAddF)
  | .vscanAddI32 tg d a => some (scanRow tg d a (fun _ w => w) fun _ x y => (x + y, 0))
  | .vpart tg d ma sd =>
    some { slot := slotOf tg 2, cls := 7, cond := fun _ => true
           results := fun s =>
             let p := partLists (s.sel tg) (s.nowM ma)
             [{ slot := slotOf tg 2, lat := 4, dest := .v (physReg s.me.sys.rot d), lanes := BitVec.allOnes 64
                vec := mkLanes fun k => BitVec.ofNat 32 ((p.1 ++ p.2.1 ++ p.2.2).getD k 0) },
              { slot := slotOf tg 2, lat := 4, dest := .s (physReg s.me.sys.rot sd)
                word := BitVec.ofNat 64 (p.2.1.length * 2 ^ 32 + p.1.length) }] }
  | _ => none

end Sys2Proof.Rules
end

