-- ==== Sys2Proof/Safety/Deeds.lean ====
section
/-! DEFINITION. The instructions that act on more than registers in flight: branches, accesses, tiles, transfers and draws, in
the terms of Rules (R109 to R127, R159, R181 to R205, R283 to R311, R354 to R420). -/

namespace Sys2Proof.Rules

open Sys2Proof.Machine

/-- What an instruction does when its condition is 1 (R73): its results, and what it changes in its context and elsewhere. -/
structure Deed where
  slot    : Nat
  cls     : State → Fin 16
  cond    : State → Bool
  results : State → List Result := fun _ => []
  ctx     : State → Ctx → Ctx := fun _ c => c
  side    : State → State → State := fun _ t => t

/-- The instructions of a table, their checks passed, do what it says, and with their condition 0 nothing (R73). -/
def Deeds.Hold (deed : Instr → Option Deed) : Prop :=
  ∀ (s : State) (i : Instr) (d : Deed), deed i = some d → Passes s i →
    (d.cond s = true → Does s i d.slot (d.cls s) (d.results s) (d.ctx s) (d.side s)) ∧
    (d.cond s = false → Brings s i d.slot (d.cls s) [])

/-! ### Control (R109 to R121) -/

/-- A branch to `target` with the results `rs`: a dead clk follows it (R86). -/
def branchDeed (tg : Tag2) (target : State → W32) (rs : State → List Result) : Deed :=
  { slot := slotOf tg 0, cls := fun _ => 2, cond := fun s => s.condS tg, results := rs
    ctx := fun s c => { c with pc := target s }
    side := fun _ t => t.setMyCore { t.myCore with wait := 1 } }

/-- The link of CALL and CALLR: the address of the next bundle, to s15. -/
def linkResult (tg : Tag2) (s : State) : List Result :=
  [{ slot := slotOf tg 0, lat := 1, dest := .s 15, word := s.fr.next.zeroExtend 64 }]

/-- Word 4 × s[31:2] of a register that a jump names. -/
def jumpTarget (w : Word) : W32 := (w.extractLsb' 2 30) ++ 0#2

/-- Branches, LOOP, YIELD and TEND (R109, R111, R115, R120, R121). -/
def controlDeed (i : Instr) : Option Deed :=
  match i with
  | .br tg off => some (branchDeed tg (fun s => s.me.pc + 4 * off.signExtend 32) fun _ => [])
  | .call tg off => some (branchDeed tg (fun s => s.me.pc + 4 * off.signExtend 32) (linkResult tg))
  | .jr tg a => some (branchDeed tg (fun s => jumpTarget (s.rdS a)) fun _ => [])
  | .callr tg a => some (branchDeed tg (fun s => jumpTarget (s.rdS a)) (linkResult tg))
  | .ret tg => some (branchDeed tg (fun s => jumpTarget (s.rdS 15)) fun _ => [])
  | .brl tg l => some (branchDeed tg (fun s => s.literal l.toNat) fun _ => [])
  | .loop tg ns a =>
    let sr (n : Nat) (w : Word) : Result := { slot := slotOf tg 0, lat := 1, dest := .sr n, word := w }
    let p (j : Fin 8) (b : Bool) : Result := { slot := slotOf tg 0, lat := 1, dest := .p j, word := if b then 1 else 0 }
    some
      { slot := slotOf tg 0, cls := fun _ => 2, cond := fun s => s.condS tg
        -- the loop's own end is that of its last bundle: this one is no loop end
        ctx := fun s c =>
          { c with
            land := s.me.land ++ ([p 5 false, p 6 false, p 7 false] ++
              (if s.rdS a = 0 then [sr 0x10 0, sr 0x11 0, p 4 false]
               else [sr 0x10 (s.rdS a + BitVec.ofNat 64 ns.toNat), sr 0x11 (BitVec.ofNat 64 (ns.toNat + 1)), p 4 true])).map
              fun r => r.landing (s.me.ord + 1)
            lsa := s.fr.next, lsk := s.me.lsk || s.rdS a == 0, pc := s.fr.next } }
  | .sync tg => some { slot := slotOf tg 0, cls := fun _ => 2, cond := fun _ => true }
  | .yield tg =>
    some { slot := slotOf tg 0, cls := fun _ => 2, cond := fun s => s.condS tg
           -- inside a gang-timed region issue is not given up (R256)
           ctx := fun s c => if s.me.region then c else { c with dead := s.myCore.wait }
           side := fun s t => if s.me.region then t else t.setMyCore (t.myCore.release s.fr.ctx) }
  | .tend tg =>
    some { slot := slotOf tg 0, cls := fun _ => 2, cond := fun s => s.condS tg
           ctx := fun s c => { c with ended := some (slotOf tg 0), pc := s.me.pc, region := false }
           side := fun s t => t.setMyCore (t.myCore.release s.fr.ctx) }
  | _ => none

/-! ### Local memory (R159 to R174) -/

/-- The access that an L-slot issue enters: it performs at the end of issue + P − 1 and its result lands L clk after the issue
(R93, R159), with what it captured. -/
def newAccess (s : State) (k : AccKind) (tg : Tag2) (w : BitVec 3) (elem step : Int) (index data : Lanes) (arg arg2 mask : Word)
    (dest dest2 : Dest) : Access :=
  let p := (s.opWin w).performLat s.fr.core
  { kind := k, core := s.fr.core, ctx := s.fr.ctx.val, slot := slotOf tg 4, ord := s.me.ord + 1, left := p, land := k.landLat p
    keep := .live, port := portL s.fr.core (slotOf tg 4), win := s.opWin w, elem := elem, step := step, index := index
    data := data, arg := arg, arg2 := arg2, mask := mask, rm := s.rmPlain, fm := s.fm, dest := dest, dest2 := dest2
    x := ⟨0, 0⟩, msmx := [] }

/-- An L-slot instruction: one access enters its die's accesses in flight. -/
def accessDeed (tg : Tag2) (k : AccKind) (w : BitVec 3) (acc : State → Access) : Deed :=
  { slot := slotOf tg 4, cls := fun s => s.localClass k w, cond := fun s => s.condL tg
    side := fun s t => t.setMyDie { t.myDie with acc := t.myDie.acc ++ [acc s] } }

/-- A load to a register. -/
def loadDeed (tg : Tag2) (k : AccKind) (w : BitVec 3) (a : BitVec 5) (dest : State → Dest) : Deed :=
  accessDeed tg k w fun s => newAccess s k tg w (s.baseS a).toNat 0 [] [] 0 0 0 (dest s) noDest
/-- An atomic of an operand. -/
def atomicDeed (tg : Tag2) (k : AccKind) (w : BitVec 3) (a d : BitVec 5) (arg2 : State → Word) : Deed :=
  accessDeed tg k w fun s => newAccess s k tg w (s.baseS a).toNat 0 [] [] (s.nowS d) (arg2 s) 0
    (.s (physReg s.me.sys.rot d)) noDest

/-- The local memory instructions (R167 to R174). -/
def localDeed (i : Instr) : Option Deed :=
  match i with
  | .vld tg d w a => some (loadDeed tg .vld w a fun s => .v (physReg s.me.sys.rot d))
  | .sld tg d w a => some (loadDeed tg .sld w a fun s => .s (physReg s.me.sys.rot d))
  | .sldd tg d w a => some (loadDeed tg .sldd w a fun s => .s (physReg s.me.sys.rot d))
  | .vldm tg md w a => some (loadDeed tg .vldm w a fun _ => .m ⟨md.toNat, md.isLt⟩)
  | .vst tg d w a =>
    some (accessDeed tg .vst w fun s =>
      newAccess s .vst tg w (s.baseS a).toNat 0 [] (s.nowV d) 0 0 (BitVec.allOnes 64) noDest noDest)
  | .vstm tg d w a mk =>
    some (accessDeed tg .vstm w fun s => newAccess s .vstm tg w (s.baseS a).toNat 0 [] (s.nowV d) 0 0 (s.nowM mk) noDest noDest)
  | .sst tg d w a =>
    some (accessDeed tg .sst w fun s => newAccess s .sst tg w (s.baseS a).toNat 0 [] [] (s.nowS d) 0 0 noDest noDest)
  | .sstd tg d w a =>
    some (accessDeed tg .sstd w fun s => newAccess s .sstd tg w (s.baseS a).toNat 0 [] [] (s.nowS d) 0 0 noDest noDest)
  | .vlds tg d w a l =>
    some (accessDeed tg .vlds w fun s =>
      newAccess s .vlds tg w (s.baseS a).toNat (s.literal l.toNat).toInt [] [] 0 0 0 (.v (physReg s.me.sys.rot d)) noDest)
  | .vsts tg d w a l =>
    some (accessDeed tg .vsts w fun s =>
      newAccess s .vsts tg w (s.baseS a).toNat (s.literal l.toNat).toInt [] (s.nowV d) 0 0 0 noDest noDest)
  | .vldg tg d w vi =>
    some (accessDeed tg .vldg w fun s => newAccess s .vldg tg w 0 0 (s.idxV vi) [] 0 0 0 (.v (physReg s.me.sys.rot d)) noDest)
  | .vstg tg d w vi =>
    some (accessDeed tg .vstg w fun s => newAccess s .vstg tg w 0 0 (s.idxV vi) (s.nowV d) 0 0 0 noDest noDest)
  | .aadd tg d w a => some (atomicDeed tg .aadd w a d fun _ => 0)
  | .aaddF32 tg d w a => some (atomicDeed tg .aaddF w a d fun _ => 0)
  | .amin tg d w a => some (atomicDeed tg .amin w a d fun _ => 0)
  | .amax tg d w a => some (atomicDeed tg .amax w a d fun _ => 0)
  | .axchg tg d w a => some (atomicDeed tg .axchg w a d fun _ => 0)
  | .acas tg d w a => some (atomicDeed tg .acas w a d fun s => s.nowS (d + 1))
  | .pfxld tg d w a =>
    some (accessDeed tg .pfxld w fun s =>
      newAccess s .pfxld tg w (s.baseS a).toNat 0 [] [] 0 0 0 (.v (physReg s.me.sys.rot d)) (.v (physReg s.me.sys.rot (d + 1))))
  | _ => none

/-! ### The matrix unit (R181 to R205) -/

/-- An M-slot instruction of class 12 (R233). -/
def matrixAct (tg : Tag) (results : State → List Result := fun _ => []) (ctx : State → Ctx → Ctx := fun _ c => c)
    (side : State → State → State := fun _ t => t) : Deed :=
  { slot := 6, cls := fun _ => 12, cond := fun s => s.cond tg, results := results, ctx := ctx, side := side }

/-- A tile instruction in flight for `lat` clk (R199). -/
def tileSide (lat : Nat) (t : BitVec 3) (op : State → TileOp) (s u : State) : State :=
  u.setMyCore { u.myCore with twr := u.myCore.twr ++ [⟨lat, s.fr.ctx.val, t.toNat, op s⟩] }

/-- A row of the tile that s(a)[5:0] names. -/
def namedRow (s : State) (t : BitVec 3) (a : BitVec 5) : Machine.Row := (s.tileOf t).row ((s.nowS a).toNat % 64)

/-- One result to s(d) of an M-slot instruction. -/
def mVal (lat : Nat) (d : BitVec 5) (word : State → Word) (s : State) : List Result :=
  [{ slot := 6, lat := lat, dest := .s (physReg s.me.sys.rot d), word := word s }]

/-- The nest that an MNEST starts (R182, R186, R196, R198): it reads its first operands in the next clk and lasts its steps, each
of its step time, twice for a rotation check, and 12 clk more. -/
def nestOf (s : State) : Nest :=
  let t := s.myCore.shadow
  let n := t.steps * t.stepClk * (if s.me.armed then 2 else 1)
  { ctx := s.fr.ctx.val, tab := t, winA := s.me.sys.wins[(⟨t.winA.toNat, t.winA.isLt⟩ : Fin 8)]
    winB := s.me.sys.wins[(⟨t.winB.toNat, t.winB.isLt⟩ : Fin 8)], next := 0, wait := 1, remain := n + 12, array := n
    rotate := s.me.armed, mirror := s.me.mirror && t.half, frozen := false, stopping := false, vals := []
    sums1 := if s.me.armed || (s.me.mirror && t.half) then List.replicate 4096 0 else [], sums2 := if s.me.armed then List.replicate 4096 0 else [] }

/-- The matrix instructions (R181 to R205). -/
def matrixDeed (i : Instr) : Option Deed :=
  match i with
  | .mcfg tg cr a =>
    some (matrixAct tg (side := fun s t =>
      t.setMyCore { t.myCore with shadow := t.myCore.shadow.write cr.toNat ((s.nowS a).truncate 32) }))
  | .mcfgl tg cr l =>
    some (matrixAct tg (side := fun s t =>
      t.setMyCore { t.myCore with shadow := t.myCore.shadow.write cr.toNat (s.literal l.toNat) }))
  | .mcfgrd tg cr a => some (matrixAct tg (results := mVal 1 a fun s => (s.myCore.shadow.read cr.toNat).zeroExtend 64))
  | .mnest tg =>
    some (matrixAct tg
      (ctx := fun s c =>
        { c with armed := false
                 chkcnt := if s.me.armed then 0 else if s.me.chkcnt = 0xFFFF#16 then s.me.chkcnt else s.me.chkcnt + 1 })
      (side := fun s t => t.setMyCore { t.myCore with active := s.myCore.shadow, nests := t.myCore.nests ++ [nestOf s] }))
  | .accinit tg t a => some (matrixAct tg (side := tileSide 2 t fun s => .init ((s.nowS a).extractLsb' 0 10).toInt false))
  | .accinitU tg t => some (matrixAct tg (side := tileSide 2 t fun _ => .init 0 true))
  | .accnorm tg t a =>
    some (matrixAct tg (side := tileSide 4 t fun s =>
      .rows ((List.range 64).filterMap fun i => normRow (Nat.min ((s.nowS a).toNat % 64) 35) i ((s.tileOf t).row i)) false 0 0))
  | .accnormRow tg t a =>
    some (matrixAct tg (side := tileSide 4 t fun s =>
      let i := (s.nowS a).toNat / 64 % 64
      .rows (normRow (Nat.min ((s.nowS a).toNat % 64) 35) i ((s.tileOf t).row i)).toList false 0 0))
  | .accscale tg t a => some (matrixAct tg (side := fun _ u => scaleOp t a false u))
  | .accscaleRow tg t a => some (matrixAct tg (side := fun _ u => scaleOp t a true u))
  | .accrd tg d t a f =>
    some (matrixAct tg
      (results := fun s =>
        [{ slot := 6, lat := 6, dest := .v (physReg s.me.sys.rot d), lanes := BitVec.allOnes 64
           vec := (accRead (namedRow s t a) f s.rmPlain s.fm).1 }])
      (ctx := fun s c => { c with fsets := c.fsets ||| (accRead (namedRow s t a) f s.rmPlain s.fm).2 }))
  | .accwr tg d t a f =>
    let fps (s : State) : List Fp := (s.nowV d).map fun x => fpDecode fmtF32 (flushIn fmtF32 s.fm x.toNat)
    let row (s : State) : Nat := (s.nowS a).toNat % 64
    some (matrixAct tg
      (ctx := fun s c => { c with fsets := c.fsets ||| (if f = 0 then flIf ((fps s).any fun x => !x.isFin) flNV else 0) })
      (side := tileSide 6 t fun s =>
        if f = 0 then .apply (row s) ((fps s).map fun x => if x.isFin then x.dy else Dy.zero)
        else if f = 3 then .apply (row s) ((s.nowV d).map fun x => Dy.ofInt x.toInt)
        else if f = 6 then .mlo (row s) (s.nowV d)
        else .mhi (row s) (s.nowV d)))
  | .msmx tg ts tout w a => some (matrixAct tg (side := fun _ u => softmaxOp ts tout w a u))
  | .mchk tg mode =>
    some (matrixAct tg (ctx := fun _ c =>
      { c with mirror := if mode = 0 then false else if mode = 1 then true else c.mirror
               armed := if mode = 0 then false else if mode = 1 then c.armed else true }))
  | .accst tg d t a => some (matrixAct tg (results := mVal 2 d fun s => s.accst t ((s.nowS a).toNat % 4)))
  | .accexp tg d t a => some (matrixAct tg (results := mVal 3 d fun s => (namedRow s t a).exps))
  | .accloss tg d t a =>
    some (matrixAct tg (results := mVal 2 d fun s => BitVec.ofNat 64 (s.tileOf t).loss)
      (side := fun s u => if (s.nowS a).getLsbD 0 then tileSide 1 t (fun _ => .clearLoss) s u else u))
  | .acclog tg d t a =>
    some (matrixAct tg (results := mVal 2 d fun s =>
      (s.tileOf t).log[(⟨(s.nowS a).toNat % 16, Nat.mod_lt _ (by omega)⟩ : Fin 16)]))
  | .accside tg d t a => some (matrixAct tg (results := mVal 3 d fun s => (namedRow s t a).sum ++ (namedRow s t a).max))
  | _ => none

/-! ### Transfers (R283, R295 to R311, R354 to R420) -/

/-- The transfer that an issue makes: its identifier is the channel's next, and it holds what it captured (R283, R308). -/
def newXfer (s : State) (i : Instr) (ch : Fin 8) (lit : W32) (args recd : List Word) : Xfer :=
  { op := i, x := ⟨ch.val, s.myCore.chans[ch].nid⟩, core := s.fr.core, ctx := s.fr.ctx.val, asid := s.me.bind.asid.toNat
    wid := s.me.sys.wid, taskid := s.me.sys.taskid, lit := lit
    uses := [s.me.regs.kGet (litKA lit), s.me.regs.kGet (litKB lit), s.me.regs.kGet (litKC lit)].filter tokVal
    bulk := bulkOp i, recd := recd, args := args, vec := [], wins := s.me.sys.wins, fixed := false
    since := s.myDie.scc.toNat, ord := s.me.ord + 1, issued := s.wcc.toNat }

/-- A transfer is in flight: its channel's NID has moved past its identifier (R283). -/
def flies (x : Xfer) (ch : Fin 8) (t : State) : State :=
  t.setMyCore { t.myCore with
    chans := t.myCore.chans.set ch { t.myCore.chans[ch] with nid := t.myCore.chans[ch].nid + 1 }
    xfers := t.myCore.xfers ++ [x] }

/-- An X-slot transfer: its token is the result to k(kd) at latency 1 (R95), the transfer flies, and `more` follows. -/
def transferDeed (tg : Tag) (kd : State → BitVec 6) (ch : State → Fin 8) (x : State → Xfer) (more : State → State → State := fun _ t => t)
    (ctx : State → Ctx → Ctx := fun _ c => c) : Deed :=
  { slot := 7, cls := fun _ => 14, cond := fun s => s.cond tg
    results := fun s => [{ slot := 7, lat := 1, dest := .k ⟨(kd s).toNat, (kd s).isLt⟩, word := tokenOf (x s).x }]
    ctx := ctx, side := fun s t => more s (flies (x s) (ch s) t) }

/-- A transfer whose operands are s(a) to s(a + 3) under the token literal (R95). -/
def plainTransfer (i : Instr) (tg : Tag) (kd : BitVec 6) (a : BitVec 5) (l : BitVec 4) : Deed :=
  transferDeed tg (fun _ => kd) (fun s => litCh (s.tokenLit l)) fun s =>
    { newXfer s i (litCh (s.tokenLit l)) (s.tokenLit l) [s.baseS a, s.nowS (a + 1), s.nowS (a + 2), s.nowS (a + 3)] [] with
      block := s.baseS a, late := physReg s.me.sys.rot (a + 3)
      blocks := if (i matches .xchain _ _ _ _) then s.chainBlocks s.me.sys.wins s.fr.core s.me.bind.asid.toNat 64 (s.baseS a) else [] }

/-- Ranges enter the core's pending-range table for a transfer (R292). -/
def pends (x : Xid) (l : List (Nat × Nat)) (t : State) : State :=
  t.setMyCore { t.myCore with pend := t.myCore.pend ++ l.map fun p => ⟨p.1, p.2, x⟩ }

/-- The record that a syllable's OPT window and s(a) name, as it stands at the issue (R295, R415). -/
def namedRecord (s : State) (a : BitVec 5) (l : BitVec 4) (n : Nat) : List Word :=
  s.readRecord (s.recordWin (s.tokenLit l)) (s.baseS a).toNat n

/-- The transfer of a record. -/
def recordXfer (s : State) (i : Instr) (a : BitVec 5) (l : BitVec 4) (n : Nat) : Xfer :=
  newXfer s i (litCh (s.tokenLit l)) (s.tokenLit l) [s.baseS a, s.nowS (a + 1), s.nowS (a + 2)] (namedRecord s a l n)

/-- An access in flight of an X slot (R249). -/
def xAccess (s : State) (k : AccKind) (left land : Nat) (win : Win) (elem : Nat) (dest : Dest) (x : Xid) : Access :=
  { kind := k, core := s.fr.core, ctx := s.fr.ctx.val, slot := 7, ord := s.me.ord + 1, left := left, land := land, keep := .live
    port := 8 * (s.fr.core % 384) + 3, win := win, elem := elem, step := 0, index := [], data := [], arg := 0, arg2 := 0
    mask := 0, rm := 0, fm := 0, dest := dest, dest2 := noDest, x := x, msmx := [] }

/-- Accesses enter the die's accesses in flight. -/
def accesses (l : List Access) (t : State) : State := t.setMyDie { t.myDie with acc := t.myDie.acc ++ l }

/-- A copy (R295, R296, R300): its record is read, its pending ranges are made, a static-domain XLIN reads at the end of
issue + 31 and writes a clk later (R299), and a gather or scatter opens its index sequence. -/
def copyDeed (k : CopyKind) (i : Instr) (tg : Tag) (kd : BitVec 6) (a : BitVec 5) (l : BitVec 4) : Deed :=
  let fixed (s : State) : Bool := k == .lin && isStatic (namedRecord s a l k.words) (s.tokenLit l)
  let x (s : State) : Xfer :=
    { recordXfer s i a l k.words with fixed := fixed s, phase := if fixed s then .started else .held }
  let part (s : State) (kind : AccKind) (at_ : Word) (n : Nat) : Access :=
    let r := namedRecord s a l k.words
    { xAccess s kind n n (winOf s.me.sys.wins (addrWin at_)) (addrElem at_ * rawBits (recElem r) / 8) noDest (x s).x with
      arg := BitVec.ofNat 64 (recN r * rawBits (recElem r) / 8) }
  transferDeed tg (fun _ => kd) (fun s => litCh (s.tokenLit l)) x
    (more := fun s t =>
      let r := namedRecord s a l k.words
      let t := pends (x s).x (s.myPend k r) t
      if fixed s then accesses [part s .copyRead (recSrc r) 32, part s .copyWrite (recDst r) 33] t else t)
    (ctx := fun s c =>
      if k = .gather ∨ k = .scatter then
        { c with seq := some ⟨(x s).x, recRows (namedRecord s a l k.words), 0⟩ }
      else c)

/-- A collective (R415, R416): its status entry, the group's COLN, its pending ranges and its registration. -/
def collDeed (kind : CollKind) (i : Instr) (tg : Tag) (kd : BitVec 6) (a : BitVec 5) (l : BitVec 4) : Deed :=
  let x (s : State) : Xfer := recordXfer s i a l 8
  let g (s : State) : Group := s.groupOf (namedRecord s a l 8)
  let c (s : State) : Coll := collOf kind s.fr.core (x s).x (g s) (namedRecord s a l 8)
  transferDeed tg (fun _ => kd) (fun s => litCh (s.tokenLit l)) x
    (more := fun s t =>
      let t := if (c s).acc ∧ (c s).destTiles ≠ [] then t.setMyCore (t.myCore.register (c s).acct (x s).x s.fr.ctx.val ((c s).destTiles.length * (c s).p)) else t
      let t := pends (x s).x (s.collPend (c s) s.me.sys.wins s.me.bind.asid.toNat) t
      let t := { t with
        colls := t.colls ++ [c s]
        groups := Table.put t.groups ((c s).group % 4096) { g s with coln := (c s).coln, steps := (g s).steps + (c s).steps } }
      t.setCst (c s) true (c s).summary)

/-- The X-slot instructions. -/
def asyncDeed (i : Instr) : Option Deed :=
  match i with
  | .xcopy tg kd a l => some (copyDeed .box i tg kd a l)
  | .xlin tg kd a l => some (copyDeed .lin i tg kd a l)
  | .xgath tg kd a l => some (copyDeed .gather i tg kd a l)
  | .xscat tg kd a l => some (copyDeed .scatter i tg kd a l)
  | .xmove tg _ w a =>
    let r (s : State) : List Word := s.readRecord (winOf s.me.sys.wins w) (s.baseS a).toNat 8
    let lit (s : State) : W32 := (wordAt (r s) 7).truncate 32
    some (transferDeed tg (fun s => BitVec.ofNat 6 (fld (wordAt (r s) 7) 32 6)) (fun s => litCh (lit s)) fun s =>
      newXfer s i (litCh (lit s)) (lit s) [s.baseS a, s.nowS (a + 1), s.nowS (a + 2)] (r s))
  | .xfence tg kd sc =>
    some (transferDeed tg (fun _ => kd) (fun _ => 0) fun s =>
      { newXfer s i 0 (BitVec.ofNat 32 (sc.toNat * 2 ^ 18)) [] [] with
        after := (s.myCore.xfers.filter fun (u : Xfer) => u.ctx == s.fr.ctx.val && decide (u.since < s.myDie.scc.toNat)).map Xfer.x })
  | .xchain tg kd a l => some (plainTransfer i tg kd a l)
  | .xred tg kd a l => some (plainTransfer i tg kd a l)
  | .xatom tg kd a l => some (plainTransfer i tg kd a l)
  | .xbara tg kd a l => some (plainTransfer i tg kd a l)
  | .xbarw tg kd a l => some (plainTransfer i tg kd a l)
  | .xlaunch tg kd a l => some (plainTransfer i tg kd a l)
  | .xckpt tg kd a l => some (plainTransfer i tg kd a l)
  | .xhadd tg kd a l => some (plainTransfer i tg kd a l)
  | .xhdel tg kd a l => some (plainTransfer i tg kd a l)
  | .xsend tg kd a l => some (plainTransfer i tg kd a l)
  | .xsig tg kd a l => some (plainTransfer i tg kd a l)
  | .xredv tg kd a l =>
    some (transferDeed tg (fun _ => kd) (fun s => litCh (s.tokenLit l)) fun s =>
      { newXfer s i (litCh (s.tokenLit l)) (s.tokenLit l) [s.baseS a, s.nowS (a + 1), s.nowS (a + 2), s.nowS (a + 3)] [] with
        vec := s.nowV (BitVec.ofNat 5 (litOpt (s.tokenLit l))) })
  | .xpcan tg kd a l =>
    some (transferDeed tg (fun _ => kd) (fun s => litCh (s.tokenLit l)) fun s =>
      let e : Cst := s.myCore.cst[(⟨(s.nowS a).toNat % 16, Nat.mod_lt _ (by omega)⟩ : Fin 16)]
      { newXfer s i (litCh (s.tokenLit l)) (s.tokenLit l) [s.baseS a, s.nowS (a + 1), s.nowS (a + 2), s.nowS (a + 3)] [] with
        found := BitVec.ofNat 64 (e.ch * 2 ^ 32 + fld e.word 32 32) })
  | .xrecv tg kd a l =>
    let x (s : State) : Xfer :=
      { newXfer s i (litCh (s.tokenLit l)) (s.tokenLit l) [s.baseS a, s.nowS (a + 1), s.nowS (a + 2), s.nowS (a + 3)] [] with
        late := physReg s.me.sys.rot (a + 3) }
    some (transferDeed tg (fun _ => kd) (fun s => litCh (s.tokenLit l)) x (more := fun s t => pends (x s).x (s.recvPend a) t))
  | .xallr tg kd a l => some (collDeed .allReduce i tg kd a l)
  | .xrdsc tg kd a l => some (collDeed .reduceScatter i tg kd a l)
  | .xallg tg kd a l => some (collDeed .allGather i tg kd a l)
  | .xbcst tg kd a l => some (collDeed .broadcast i tg kd a l)
  | .xmvb tg kd a l =>
    let x (s : State) : Xfer := recordXfer s i a l 8
    some (transferDeed tg (fun _ => kd) (fun s => litCh (s.tokenLit l)) x
      (more := fun s t =>
        let r := namedRecord s a l 8
        let bits := opBits (mvFa r)
        let t :=
          if mvWin r then pends (x s).x (mvPend s.me.sys.wins s.fr.core r) t
          else t.setMyCore (t.myCore.register (mvTile r) (x s).x s.fr.ctx.val (mvRows r))
        -- A is read at the end of issue + 31 (R359)
        accesses [{ xAccess s .copyRead 32 32 (winOf s.me.sys.wins (addrWin (wordAt r 1))) (addrElem (wordAt r 1) * bits / 8)
                      noDest (x s).x with
                    step := (addrElem (wordAt r 1) / 4 : Nat), arg := BitVec.ofNat 64 (mvK r * bits / 8)
                    arg2 := BitVec.ofNat 64 (mvK r / 4) }] t))
  | .xstat tg d ch =>
    some { slot := 7, cls := fun _ => 14, cond := fun s => s.cond tg
           side := fun s t => accesses [xAccess s .xstat 1 2 {} ch.toNat (.s (physReg s.me.sys.rot d)) ⟨0, 0⟩] t }
  | .xpcnt tg d a =>
    some { slot := 7, cls := fun _ => 14, cond := fun s => s.cond tg
           side := fun s t => accesses [xAccess s .xpcnt 1 2 {} ((s.nowS a).toNat % 16) (.s (physReg s.me.sys.rot d)) ⟨0, 0⟩] t }
  | .xidx tg a =>
    some { slot := 7, cls := fun _ => 14, cond := fun s => s.cond tg
           ctx := fun s c =>
             { c with seq := s.me.seq.bind fun q => if q.pushed + 1 ≥ q.n then none else some { q with pushed := q.pushed + 1 } }
           side := fun s t =>
             match s.me.seq with
             | none => t
             | some q =>
               match s.myCore.xfer? q.x with
               | none => t
               | some v => t.setMyCore { t.myCore with xfers := t.myCore.xfers.map fun u =>
                   if u.x = v.x then { v with index := v.index ++ [s.nowS a] } else u } }
  | _ => none

/-! ### Draws and seed requests (R126, R127) -/

/-- RAND and SEEDREQ. -/
def drawDeed (i : Instr) : Option Deed :=
  match i with
  | .rand tg d =>
    some { slot := slotOf tg 0, cls := fun _ => 1, cond := fun s => s.condS tg
           results := fun s =>
             [drawResult s (slotOf tg 0) 2,
              { slot := slotOf tg 0, lat := 6, dest := .s (physReg s.me.sys.rot d)
                word := (drawn s 2).getD 1 0 ++ (drawn s 2).getD 0 0 }] }
  | .seedreq tg d kd =>
    -- the request is served at the end of the clk (R66)
    let x (s : State) : Xfer := newXfer s i 7 0 [BitVec.ofNat 64 (physReg s.me.sys.rot d).val] []
    some { slot := slotOf tg 0, cls := fun _ => 1, cond := fun s => s.condS tg
           results := fun s =>
             [{ slot := slotOf tg 0, lat := 1, dest := .k ⟨kd.toNat, kd.isLt⟩, word := tokenOf (x s).x }]
           side := fun s t => flies (x s) 7 t }
  | _ => none

end Sys2Proof.Rules
end

