-- ==== Sys2Proof/Safety/Events.lean ====
section
/-! DEFINITION. The terms in which statements about the module's own events are made (R79, R83, R87, R213). An event of the opcode
table acts on what `State.ev` names (notes/assumptions/2.md). -/

namespace Sys2Proof.Rules

open Sys2Proof.Machine

/-- The event gives a next state, of which `P` holds. -/
def Gives (i : Instr) (s : State) (P : State → Prop) : Prop := ∃ t, exec i s = .next t ∧ P t

/-- The clk in hand is context `x`'s to issue in: it holds issue in a core that runs and that has not issued in this clk, and
nothing waits for a boundary of the core's contexts. -/
def InHand (s : State) (core : Nat) (x : Fin 4) : Prop :=
  core < moduleCores ∧ s.runs (dieOf core) = true ∧ (s.core core).did.getLsbD 0 = false ∧ (s.core core).holder = some x ∧
  (s.core core).wait = 0 ∧ s.boundaries core = s

/-- The core issues in the clk in hand, and context `x` pays for it. -/
def taken (s : State) (core : Nat) (x : Fin 4) : State :=
  s.setCore core { s.core core with did := (s.core core).did ||| 1#5, payer := some x }

/-- The result is the last in rank of those that land with it in its register (R84). -/
def Wins (l : Landing) (due : List Landing) : Prop :=
  l ∈ due ∧ ∀ k ∈ due, k.dest = l.dest → k = l ∨ l.before k = false

/-- The context frozen for `why` at a boundary between bundles (R213, R214), that of the clk in hand when `k` is 1 and of the clk before
when it is 0: what lands later waits in the chest, and the save area is to be written 32 clk after the boundary. -/
def frozenCtx (c : Ctx) (scc : Word) (k : Nat) (why : Freeze) : Ctx :=
  { c with land := c.land.filter fun l => decide (l.left ≤ k)
           chest := c.chest ++ laterThan k c.land
           frozen := why, reload := true, arrived := false, release := none, run := none, wantF := none
           boundary := scc.toNat + k, saveIn := some (32 + k), dead := 0 }

/-- Die `d` runs in the clk in hand, and after what its cores issue in it, as `State.readFirst` has it, one static access `a` is all
that performs on the die; nothing that it reads holds an error. -/
def PerformsAlone (s : State) (d : Nat) (a : Access) : Prop :=
  let u := s.readFirst d
  s.runs d = true ∧ u.runs d = true ∧ (u.die d).performed = false ∧ (u.die d).acc = [a] ∧ (u.die d).deliv = [] ∧ a.due = true ∧
  a.keep = .live ∧
  a.core < moduleCores ∧ u.flaws = []

/-- The access has left its die, in which all of the clk in hand has performed, and its context is `f` of what it was. -/
def accessDone (s : State) (d : Nat) (a : Access) (m : Memory) (f : Ctx → Ctx) : State :=
  let s := s.setDie d { s.die d with acc := [], deliv := [], performed := true }
  { s.setCtx a.core (ctxNo a.ctx) (f (s.ctx a.core (ctxNo a.ctx))) with mem := m }

/-- The operation of a hutch event (R304). -/
def hutchNo (i : Instr) : Option Nat :=
  match i with
  | .hutchPack => some 1
  | .hutchUnpack => some 2
  | .hutchConvert => some 3
  | .hutchReblock => some 4
  | .hutchTranspose => some 5
  | .hutchDpenc => some 6
  | .hutchDpdec => some 7
  | _ => none

/-- The hutch works on the next block of an XMOVE or XCHAIN (R304, R306): nothing of it is still on its way. -/
def HutchReady (s : State) (t : Xfer) (b : Block) : Prop :=
  s.evXfer = some t ∧ ((t.op matches .xmove _ _ _ _) = true ∨ (t.op matches .xchain _ _ _ _) = true) ∧ s.working t = true ∧
  t.pieces.contains 0 = false ∧ t.dst = none ∧ s.settle.undelivered t = false ∧ s.settle.awaiting t = false ∧
  s.settle.blockOf t = .ok b ∧ t.nblk < 64 ∧ b.ok (decide (t.nblk = 0)) = true ∧ s.settle.badBuffer t b = false

/-- The transfer once the hutch holds the result of block `b`: the header of an object; the new hutch buffer; or a result that is still
to perform. -/
def hutchTook (t : Xfer) (b : Block) (o : Output) : Xfer :=
  match o with
  | .head bs => { t with head := bs, round := 0 }
  | .buffer bs => ({ t with buf := bs, head := [], round := 0 } : Xfer).nextBlock b
  | .cells d cs commit =>
    { ({ t with head := [], round := 0 } : Xfer).nextBlock b with
      dst := if cs ++ commit = [] then none else some d, out := cs, commit := commit }

/-! ### Operands within reach -/

/-- The transfer's cluster holds a translation of the virtual address that grants the right, in a space that exists (R343, R345), and
that does not lead to a park area (R372). -/
def Cached (s : State) (t : Xfer) (va : Nat) (r : Right) (p : Mapping) : Prop :=
  (wordAt (s.space t.asid) 0).getLsbD 63 = true ∧
  (s.die (clusterIndex t.core / numClusters)).lookup (clusterIndex t.core % numClusters) t.asid va = some p ∧ p.grants r = true ∧
  overPark (s.ownAddr (p.pa + (va - p.va))) = false

/-- A byte of an end's own space lies at `pa` in memory of this module that answers; a page end's translation is cached, grants the
right and has the format asked for (R342, R344, R374). -/
def ReachesAt (s : State) (t : Xfer) (virt : Bool) (r : Right) (need : Option (Nat × Nat)) (a pa : Nat) : Prop :=
  (placeOf pa).here = true ∧ s.retained (placeOf pa) true = false ∧ (virt = false → pa = a) ∧
  (virt = true → ∃ p, Cached s t (a % 2 ^ 55) r p ∧ (∀ f, need = some f → p.fmt = f.1 ∧ p.geo = f.2) ∧
    pa = p.pa + (a % 2 ^ 55 - p.va))

/-- A byte of an end's own space is within reach. -/
def Reaches (s : State) (t : Xfer) (virt : Bool) (r : Right) (need : Option (Nat × Nat)) (a : Nat) : Prop :=
  ∃ pa, ReachesAt s t virt r need a pa

/-- Every byte of element `i`, and its scale byte, are within reach. -/
def ElemReaches (s : State) (t : Xfer) (d : Area) (r : Right) (i : Int) : Prop :=
  (∀ k, k < (((d.off + i) * d.bits).toNat % 8 + d.bits + 7) / 8 →
    Reaches s t d.virt r d.need (d.base + ((d.off + i) * d.bits).toNat / 8 + k)) ∧
  (blockFmt d.fmt = true → Reaches s t d.virt r d.scaleNeed (d.scaleAt (d.blockOf i)))

/-- Element `i` can be written: with it every member of its block is read and written (R158, R297). -/
def ElemTakes (s : State) (t : Xfer) (d : Area) (i : Int) : Prop :=
  (blockFmt d.fmt = false → ElemReaches s t d .write i) ∧
  (blockFmt d.fmt = true →
    Reaches s t d.virt .read d.scaleNeed (d.scaleAt (d.blockOf i)) ∧ Reaches s t d.virt .write d.scaleNeed (d.scaleAt (d.blockOf i)) ∧
    ∀ j, some j ∈ d.members (d.blockOf i) → ElemReaches s t d .read j ∧ ElemReaches s t d .write j)

/-- A memory end of a block (R293, R304): a window of the format that grants the right and holds `n` elements, or a page of it. -/
def EndIs (s : State) (t : Xfer) (a : Word) (f n : Nat) (r : Right) (d : Area) : Prop :=
  let w := winOf t.wins (addrWin a)
  (addrWindow a = true → w.kind ≠ 0 ∧ w.fmt = f ∧ (if r = .write then w.wr = true else w.rd = true) ∧
    d = windowArea t.wins t.core a 0 ∧
    (if f = 13 then (addrElem a + n / 64) * tileBytes ≤ w.len else n = 0 ∨ byteHi d.bits (d.off + n - 1) ≤ d.len)) ∧
  (addrWindow a = false → ∃ p, Cached s t (addrVirt a) r p ∧ p.fmt = f ∧
    if f = 13 then d = ⟨true, addrVirt a, 0, 8, 13, 3, 0, 0, 2 ^ 55⟩
    else f ≤ 12 ∧ addrVirt a * 8 % elemBits f = 0 ∧
      d = ⟨true, 0, (addrVirt a * 8 / elemBits f : Nat), elemBits f, f, p.geo, s.pagePitch t.asid, s.shadowBase t.asid, 2 ^ 55⟩)

/-- An end that holds an object (R301, R321): a window of 32-bit words that grants the right, or a page of them. -/
def ObjIs (s : State) (t : Xfer) (a : Word) (r : Right) (d : Area) : Prop :=
  let w := winOf t.wins (addrWin a)
  (addrWindow a = true → w.kind ≠ 0 ∧ w.fmt = 0 ∧ (if r = .write then w.wr = true else w.rd = true) ∧ d = windowArea t.wins t.core a 0) ∧
  (addrWindow a = false → ∃ p, Cached s t (addrVirt a) r p ∧ p.fmt = 0 ∧ d = ⟨true, addrVirt a, 0, 32, 0, 3, 0, 0, 2 ^ 55⟩)

/-- The `n` bytes of an end from `a` on are within reach. -/
def BytesReach (s : State) (t : Xfer) (d : Area) (r : Right) (need : Option (Nat × Nat)) (a n : Nat) : Prop :=
  ∀ i, i < n → Reaches s t d.virt r need (a + i)

/-- The operand of a block lies in the hutch buffer, or can be read. -/
def HutchReads (s : State) (t : Xfer) (b : Block) : Prop :=
  b.inp = true ∨ ∃ d, EndIs s t b.src b.sfmt b.n .read d ∧
    if b.sfmt = 13 then ∀ k, k < b.n / 64 → BytesReach s t d .read (some (13, 3)) (d.tileAt k) tileBytes
    else ∀ i : Nat, i < b.n → ElemReaches s t d .read i

/-- A result of `n` elements fits the hutch buffer, or can be written where the block puts it. -/
def HutchWrites (s : State) (t : Xfer) (b : Block) (n : Nat) : Prop :=
  if b.out = true then
    if b.dfmt = 13 then n / 64 * tileBytes ≤ 4096
    else
      let d := bufArea b.dfmt b.dgeo b.pitch n
      d.len ≤ 4096 ∧ (blockFmt b.dfmt = true → ∀ i : Nat, i < n → d.scaleAt (d.blockOf i) < 4096)
  else ∃ d, EndIs s t b.dst b.dfmt n .write d ∧
    if b.dfmt = 13 then ∀ k, k < n / 64 → BytesReach s t d .write (some (13, 3)) (d.tileAt k) tileBytes
    else ∀ i : Nat, i < n → ElemTakes s t d i

/-- A virtual address lies in a page of 4 TiB that grants the right: its space's descriptor and its first-level entry are valid (R341 to
R343), and it does not lead to a park area (R372). -/
def LeafAt (s : State) (asid va : Nat) (r : Right) (p : Mapping) : Prop :=
  let w := wordAt (s.space asid) 0
  let e := s.portMem.word (fld w 0 36 * 2 ^ 16 + 8 * (va / 2 ^ 42 % 8192))
  s.flaws = [] ∧ w.getLsbD 63 = true ∧ entryOk 1 e = true ∧ fld e 61 2 = 2 ∧ fld e 45 16 = asid ∧
  p = { va := va / 2 ^ 42 * 2 ^ 42, size := 2 ^ 42, pa := fld e 0 36 * 2 ^ 16, fmt := fld e 41 4, geo := fld e 39 2
        rd := e.getLsbD 38, wr := e.getLsbD 37, cd := e.getLsbD 36 } ∧
  p.grants r = true ∧ overPark (s.ownAddr (p.pa + (va - p.va))) = false

/-- `n` bytes from a virtual address on lie at `pa`, in memory of this module and within 64 KiB of such a page; neither they nor the lines
of their walk lie in a die at retention (R374). -/
def InPage (s : State) (asid va n : Nat) (r : Right) (pa : Nat) : Prop :=
  ∃ p, LeafAt s asid va r p ∧ va < 2 ^ 55 ∧ 0 < n ∧ va % 65536 + n ≤ 65536 ∧ pa = p.pa + (va - p.va) ∧ (placeOf pa).here = true ∧
    s.asleep (placeOf pa) = false ∧ ∀ l ∈ s.allWalkLines asid va, s.asleep (placeOf (64 * l)) = false

/-- A byte of host memory as the module holds it: in its host-line buffer, else in memory (R406). -/
def hostByte (s : State) (a : Nat) : Byte :=
  match s.hostLines.find? fun g => g.1 == a / 64 with
  | some g => g.2.getD (a % 64) 0
  | none => s.mem.read a

/-- A COND or WHILE node tests a condition word that can be read, with the result `b` (R263, R266). -/
def CwTest (s : State) (l : Launch) (w : List Word) (b : Bool) : Prop :=
  ∃ pa, InPage s (lrAsid l.recd) (lrArgs l.recd + 8 * nCwi w) 8 .read pa ∧
    b = if nTest w = 0 then s.portMem.word pa != 0 else (s.portMem.word pa).getLsbD (nB w)

/-- The word that an XSIG waits on lies at `pa` within reach (R419). -/
def SigReaches (s : State) (t : Xfer) (pa : Nat) : Prop :=
  let a := wordAt t.args 0
  ReachesAt s t (!addrWindow a) .read none (if addrWindow a then (windowArea t.wins t.core a 0).objAt else addrVirt a) pa

/-- The bind record of a slot-table entry passes every check of dispatch for a task that starts afresh, with no image (R276). -/
def DispatchOk (s : State) (c e : Nat) : Prop :=
  let b := s.slotBind c e
  let core := slotCore c e
  let d := c / numClusters
  b.wins.toList.all Win.ok = true ∧ b.lres.toList.all (lresOk (c % numClusters) (s.boundBinds d)) = true ∧
  (b.gang = true → ∀ o ∈ s.boundBinds d, o.gang = true → o.tline = b.tline → o.gangid = b.gangid) ∧
  mapOk b ((List.finRange 4).filterMap fun y => if (s.ctx core y).bound then some (s.ctx core y).bind else none) = true ∧
  b.v = true ∧ b.ctx.toNat = (slotCtx e).val ∧ b.core.toNat = coreInCluster core ∧
  b.rsv4 = 0 ∧ b.rsv5 = 0 ∧ b.rsv6 = 0 ∧ b.rsv7 = 0 ∧ b.rsvx = false ∧
  (b.startscc ≠ 0 → (s.die d).scc.toNat ≤ b.startscc.toNat) ∧
  s.inService core = true ∧ (s.pair (core / 2)).prot = b.prot ∧ (b.prot = true → core % 2 = 0) ∧ (s.die d).awake = true ∧
  b.rsm = false ∧ b.dlen = 0

/-- The state once such a record is bound: a fresh context, and with a matrix grant a fresh shadow table (R180, R276). -/
def dispatched (s : State) (c e : Nat) : State :=
  let b := s.slotBind c e
  let k := (s.core (slotCore c e)).setCtx (slotCtx e) (freshCtx b s.wcc.toNat)
  s.setCore (slotCore c e) (if b.mgrant then { k with shadow := {} } else k)

/-- The operand B of output row `i` of an XMVB lies, as `d`, in HBM pages of its format within reach (R359, R360). -/
def MvReads (s : State) (t : Xfer) (d : Area) (i : Nat) : Prop :=
  let va := addrVirt (wordAt t.recd 2)
  (∃ p, Cached s t va .read p ∧ p.fmt = opFmt (mvFb t.recd) ∧ p.geo = 0 ∧ va * 8 % elemBits p.fmt = 0 ∧
    d = ⟨true, 0, (va * 8 / elemBits p.fmt : Nat), elemBits p.fmt, p.fmt, 0, s.pagePitch t.asid, s.shadowBase t.asid, 2 ^ 55⟩) ∧
  d.off % 4 = 0 ∧
  ∀ j b, j < 64 → b < mvK t.recd / 4 →
    let e : Int := ((64 * i + j) * mvPitch t.recd + 4 * b : Nat)
    let a := (d.base + (byteLo d.bits (d.off + e)).toNat) % 2 ^ 55
    (∃ p dd, Cached s t a .read p ∧ placeOf (p.pa + (a - p.va)) = .hbm dd) ∧
    ∀ k : Nat, k < 4 → ElemReaches s t d .read (e + k)

/-- The word of an XRED or XATOM lies, at `pa`, in an HBM page of a reduction's format within reach (R351). -/
def RedReaches (s : State) (t : Xfer) (pa : Nat) : Prop :=
  let va := addrVirt (wordAt t.args 0)
  ∃ p d, Cached s t va .both p ∧ (p.fmt = 0 ∨ p.fmt = 1 ∨ p.fmt = 12) ∧ p.geo = 3 ∧ pa = p.pa + (va - p.va) ∧
    placeOf pa = .hbm d ∧ s.retained (.hbm d) true = false

/-- The barrier of an XRED lies, at `pa`, in HBM within reach (R356). -/
def BarReaches (s : State) (t : Xfer) (pa : Nat) : Prop :=
  let va := addrVirt (wordAt t.args 2)
  ∃ p d, Cached s t va .both p ∧ pa = p.pa + (va - p.va) ∧ placeOf pa = .hbm d ∧ s.retained (.hbm d) true = false

/-- The block at work can run to its result (R302, R305): its ends are what its operation asks for, and within reach. -/
def HutchEnds (s : State) (t : Xfer) (b : Block) : Prop :=
  let h := objHead (wordsOf 8 t.head)
  s.flaws = [] ∧
  match b.op with
  | 1 => ∃ d, ObjIs s t b.dst .write d ∧
    if t.head = [] then BytesReach s t d .write d.need d.objAt 64
    else HutchReads s t b ∧ d.objAt + 64 + 2 * h.rsv ≤ d.limit ∧ BytesReach s t d .write d.need d.objAt (64 + 2 * h.rsv) ∧
      ∀ es, s.hutchIn t b = .ok es →
        64 * ((b.n + 511) / 512) + 64 * (((es.filter fun e => e.1 != 0).length * (elemBits b.sfmt / 8) + 63) / 64) ≤ h.rsv
  | 2 => ∃ d, ObjIs s t b.src .read d ∧
    if t.head = [] then BytesReach s t d .read d.need d.objAt 64
    else h.bad = false ∧ HutchWrites s t b (if h.v then h.nelem else 0) ∧
      (h.v = true → h.nelem ≤ b.n ∧ d.objAt + 64 + h.side * h.rsv + h.mlen + h.vlen ≤ d.limit ∧
        BytesReach s t d .read d.need (d.objAt + 64 + h.side * h.rsv) (h.mlen + h.vlen))
  | _ => HutchReads s t b ∧ HutchWrites s t b b.n

end Sys2Proof.Rules
end

