-- ==== Sys2Proof/Certificates/Slice0/Obligations.lean ====
section
/-! DEFINITION. The statements about the machine, in the order of OBLIGATIONS.json. -/

section

open Sys2Proof Sys2Proof.Machine Sys2Proof.Rules

/-! ### Reset and encodings -/

/-- What module reset leaves (R9 to R26, R88, R209): every register of every context at 0, but for the fixed entries, CTXSTAT and
every other system register among them, PPRIV, PLSK and the trap image of the current operations at 0, and both cycle counters at 0.
That memory lists nothing then is the model's (log 1). -/
def Obligations.ResetClearsRegisters : Prop :=
  (∀ (core : Nat) (x : Fin 4),
    let c := State.reset.ctx core x
    (∀ i : BitVec 5, c.regs.sGet c.sys.rot i = 0) ∧
    (∀ i : BitVec 3, c.regs.pGet i = decide (i = 0)) ∧
    (∀ i : BitVec 3, c.regs.mGet i = if i = 0 then BitVec.allOnes 64 else 0) ∧
    (∀ (i : BitVec 5) (k : Nat), lane (c.regs.vGet c.sys.rot i) k = 0) ∧
    (∀ i : BitVec 6, c.regs.kGet i = 0) ∧
    c.sys = { brconf := false, wconf := false, coll := false, esat := false, gang := false, prot := false, intrap := false, priv := false
              epc := 0, cause := 0, faddr := 0, wid := 0, taskid := 0, flags := 0, rmode := 0, fmode := 0, ecnt := 0, eres := 0
              stream := 0, seed := 0, rcnt := 0, seedsel := 0, lc := 0, nstg := 0, rot := 0
              strv0 := 0, strv1 := 0, strl0 := 0, strl1 := 0, strx := 0, wins := Vector.replicate 8 ⟨0, 0⟩ } ∧
    c.stateField = 0 ∧
    c.ppriv = false ∧ c.plsk = false ∧ c.lsk = false ∧ c.tcur = Vector.replicate 5 ⟨0, 0⟩) ∧
  (∀ d : Nat, (State.reset.die d).scc = 0) ∧ State.reset.wcc = 0 ∧ State.reset.mem = [] ∧
  State.reset.mem.wf = true

/-- Words that the spec writes out decode to their syllables (the table after R108, and the maps of R90 to R95). -/
def Obligations.DecodesWrittenWords : Prop :=
  decodeSyl 0x8001214C#32 = .ok (.add ⟨true, false, false, 0⟩ 4 5 6) ∧
  decodeSyl 0x002747FB#32 = .ok (.cmplti ⟨false, false, false, 0⟩ 2 7 (-5)) ∧
  decodeSyl 0x80296540#32 = .ok (.pand ⟨true, false, false, 0⟩ 3 1 2 1 0) ∧
  decodeSyl 0x9B30FFFA#32 = .ok (.br ⟨true, true, true, 3⟩ (-6)) ∧
  decodeSyl 0x80388600#32 = .ok (.loop ⟨true, false, false, 0⟩ 2 3) ∧
  decodeSyl 0x803A14C0#32 = .ok (.kwait ⟨true, false, false, 0⟩ 5 12) ∧
  decodeSyl 0x803BF040#32 = .ok (.trap ⟨true, false, false, 0⟩ 0x3C1) ∧
  decodeSyl 0x80404900#32 = .ok (.mfsr ⟨true, false, false, 0⟩ 9 0x20)

/-- Every word of an instruction's encoding decodes to that instruction, with every operand; and an instruction whose row has an
encoding has one word. -/
def Obligations.EncodedInstructionsDecode : Prop :=
  (∀ i : Instr, Laws.Encoding.Statement i) ∧
  (∀ (i : Instr) (y : Syl), sylOf i = some y → ∃ w, encode i = [w])

/-- A word that decodes is the encoding of what it decodes to: no two words are one instruction, and every bit of a word counts. -/
def Obligations.DecodedWordsEncode : Prop :=
  ∀ (w : W32) (i : Instr), decodeSyl w = .ok i → encode i = [w]

/-! ### Register results -/

/-- Scalar arithmetic on registers, immediates and literals (R104, R105). -/
def Obligations.ScalarArithmeticResults : Prop := Table.Holds arithRow

/-- Compares, predicate logic and SEL (R106 to R108). -/
def Obligations.PredicateResults : Prop := Table.Holds predRow

/-- MFSR, MTSR and RDEN (R122, R125). -/
def Obligations.SystemRegisterResults : Prop := Table.Holds sysRow

/-- Vector floating-point arithmetic (R135). -/
def Obligations.VectorFloatResults : Prop := Table.Holds fpRow

/-- Vector integer arithmetic (R137). -/
def Obligations.VectorIntegerResults : Prop := Table.Holds intRow

/-- Vector logic, shifts, selection and movement (R140, R141, R149). -/
def Obligations.VectorMoveResults : Prop := Table.Holds moveRow

/-- Vector compares and mask logic (R138, R139). -/
def Obligations.VectorMaskResults : Prop := Table.Holds maskRow

/-- Vector conversions, packed images, approximations and draws (R142 to R145, R151, R152). -/
def Obligations.VectorConversionResults : Prop := Table.Holds convertRow

/-- Vector reductions, scans and the partition (R146, R147, R150). -/
def Obligations.VectorAcrossResults : Prop := Table.Holds acrossRow

/-! ### Instructions with effects of their own -/

/-- Branches, LOOP, SYNC, YIELD and TEND (R109, R111, R115, R120, R121). Where the dead clk of a taken branch stands beside a YIELD, and
the program counter that YIELD and TEND leave, are the model's (logs 13 and 14). -/
def Obligations.ControlEffects : Prop := Deeds.Hold controlDeed

/-- Loads, stores and atomics enter flight as accesses (R159, R167 to R174). -/
def Obligations.LocalMemoryIssues : Prop := Deeds.Hold localDeed

/-- The nest table, nests and tile instructions (R181, R182, R195 to R205). The clk in which a tile instruction samples its tile and lands,
and that in which the MSMX flags are set, are the model's (log 20). -/
def Obligations.MatrixEffects : Prop := Deeds.Hold matrixDeed

/-- Transfers and collectives enter flight under new identifiers (R283, R295 to R311, R354 to R359, R384, R415 to R420). The model's
are: the clk in which an XMVB reads A (log 22), that a command block is read in the issue clk (log 25), the place of a collective in its
group (log 41) and the pending ranges of a virtual destination (log 60). -/
def Obligations.TransferIssues : Prop := Deeds.Hold asyncDeed

/-- RAND draws two words, and SEEDREQ makes a request whose key is the entropy source's (R126, R127). The key's derivation from the
source is the model's (logs 4 and 5): the statement holds whatever the source gives. -/
def Obligations.DrawEffects : Prop := Deeds.Hold drawDeed

/-- NOP does nothing: it takes no place in the issue order and is charged nothing but its bundle's weight (R90, R233). Only that of slot
M has a fault, that of the matrix grant (R179). -/
def Obligations.NopDoesNothing : Prop :=
  ∀ (s : State) (tg : TagAny), wellFormed (.nop tg) = true →
    (tg.slot = 6 → s.me.bind.mgrant = true ∧ s.me.sys.intrap = false) →
    ∃ f : Frame, exec (.nop tg) s = .next ((s.setMe { s.me with
      charge := s.me.charge + (s.myCore.ewt[(15 : Fin 16)]).toNat
      cur := curAfter s (.nop tg) tg.slot.toNat
      land := s.me.land ++ (loopResults s).map (fun r => r.landing s.me.ord)
      pc := nextPc s, run := none }).setFr f)

/-- KWAIT (R87, R88, R116, R117): it issues and changes nothing when its condition is 0 or its tokens are ready and without error; a
token with an error traps; a token that is not ready blocks the context on it, or traps inside a gang-timed region, to which the gang-entry bundle belongs. -/
def Obligations.KwaitWaitsForTokens : Prop :=
  ∀ (s : State) (tg : Tag2) (ka kb : BitVec 6),
    let i : Instr := .kwait tg ka kb
    let tokens := [s.me.regs.kGet ka, s.me.regs.kGet kb]
    let late := tokens.filter fun w => !s.myCore.ready w
    (s.condS tg = false → Brings s i (slotOf tg 0) 2 []) ∧
    (s.condS tg = true → late = [] → (∀ w ∈ tokens, s.myCore.errorOf w = none) → Brings s i (slotOf tg 0) 2 []) ∧
    (s.condS tg = true → late = [] → ∀ r, tokens.findSome? s.myCore.errorOf = some r → r.code ≠ 0x001 →
      ∃ f : Frame, exec i s = .next ((s.takeTrap s.fr.core s.fr.ctx 0 ⟨r.code, r.faddr, some (slotOf tg 0), some r.xf.x⟩ s.me.pc).setFr f)) ∧
    (s.condS tg = true → late ≠ [] → s.me.region = false → s.opensRegion = false →
      ∃ t, exec i s = .next t ∧ t.me = { s.me with wait := late } ∧ t.mem = s.mem ∧
        t.myCore.holder ≠ some s.fr.ctx) ∧
    (s.condS tg = true → late ≠ [] → s.me.region = true → s.fr.tmpl = 1 → exec i s = .next s) ∧
    (s.condS tg = true → late ≠ [] → (s.me.region = true ∨ s.opensRegion = true) → s.fr.tmpl ≠ 1 →
      exec i s = .next (s.inRegion.takeTrap s.fr.core s.fr.ctx 0 ⟨0x101, 0, some (slotOf tg 0), none⟩ s.me.pc))

/-- TRAP (R118): the bundle acts, and its trap is taken after it with the address where control would have passed. -/
def Obligations.TrapTakesItsCode : Prop :=
  ∀ (s : State) (tg : Tag2) (code : BitVec 10), Passes s (.trap tg code) →
    (s.condS tg = false → Brings s (.trap tg code) (slotOf tg 0) 2 []) ∧
    (s.condS tg = true → ∃ f : Frame, exec (.trap tg code) s =
      .next ((((s.setMe (ctxAfter s (.trap tg code) (slotOf tg 0) 2 [])).takeTrap s.fr.core s.fr.ctx 1
        ⟨code.toNat, 0, some (slotOf tg 0), none⟩ (nextPc s)).meet (s.meets (.trap tg code) (slotOf tg 0))).setFr f))

/-- ERET (R119, R210): control passes to EPC and the context's trap state is restored. What the reload leaves is the model's (logs 15
and 62). -/
def Obligations.EretReturns : Prop :=
  ∀ (s : State) (tg : Tag2), wellFormed (.eret tg) = true →
    (s.me.sys.priv = true → s.me.sys.intrap = true → s.condS tg = true →
      ∃ f : Frame, exec (.eret tg) s =
        .next ((let t := (s.setMe (ctxAfter s (.eret tg) (slotOf tg 0) 2 [])).returnFromTrap s.fr.core s.fr.ctx
          (t.setMe { t.me with pc := s.me.sys.epc, run := none }).meet (s.meets (.eret tg) (slotOf tg 0))).setFr f)) ∧
    (s.me.sys.priv = true → s.me.sys.intrap = true → s.condS tg = false → Brings s (.eret tg) (slotOf tg 0) 2 []) ∧
    ((s.me.sys.priv && s.me.sys.intrap) = false →
      ∃ f : Frame, exec (.eret tg) s =
        .next ((s.takeTrap s.fr.core s.fr.ctx 0 ⟨0x381, 0, some (slotOf tg 0), none⟩ s.me.pc).setFr f))

/-! ### Checks and traps -/

/-- A syllable that is illegal, or has an issue-time fault, traps before its bundle acts, and nothing else of the bundle happens (R77,
R78, R207). -/
def Obligations.FailedChecksTrap : Prop :=
  ∀ (s : State) (i : Instr) (y : Syl), sylOf i = some y → (∀ tg ka kb, i ≠ .kwait tg ka kb) →
    let t := s.setFr (s.fr.alone i)
    (y.legal t = false →
      exec i s = .next (t.takeTrap s.fr.core s.fr.ctx 0 ⟨0x002, 0, some y.slot, none⟩ s.me.pc)) ∧
    (∀ f, y.legal t = true → y.chk t = some f → f.code ≠ 0x001 →
      exec i s = .next (t.takeTrap s.fr.core s.fr.ctx 0 { f with slot := some (f.slot.getD y.slot) } s.me.pc)) ∧
    (∀ f, y.legal t = true → y.chk t = some f → f.code = 0x001 →
      exec i s = .next (t.takeTrap s.fr.core s.fr.ctx 0 f s.me.pc))

/-- The faults of system-register numbers (R15, R16, R122): an unassigned number is illegal-register; a write to a read-only register,
or to a privileged one outside privileged mode, is a privilege fault; a reserved encoding of LSTG, RMODE, FMODE or a window word is
reserved-value (R14, R22, R28), and a write of CTXSTAT that changes a field that no write may change is a privilege fault at any
privilege (R123). Against which other word of its window a word is checked is the model's (log 50). -/
def Obligations.SystemRegisterFaults : Prop :=
  ∀ (s : State) (d : BitVec 5) (sr : BitVec 8),
    (srAssigned sr.toNat = false → srFault sr s = some ⟨0x005, sr.toNat, none, none⟩ ∧
      mtsrFault d sr s = some ⟨0x005, sr.toNat, none, none⟩) ∧
    (∀ n ∈ [0x04, 0x05, 0x0E, 0x20, 0x21], sr.toNat = n → mtsrFault d sr s = some ⟨0x381, 0, none, none⟩) ∧
    (s.me.sys.priv = false → ∀ n, n ∈ [0x01, 0x02, 0x03, 0x09, 0x0A, 0x0B] ∨ (0x40 ≤ n ∧ n ≤ 0x4F) → sr.toNat = n →
      mtsrFault d sr s = some ⟨0x381, 0, none, none⟩) ∧
    (s.me.sys.priv = false → sr = 0x00#8 → (s.rdS d).getLsbD 11 = true → mtsrFault d sr s = some ⟨0x381, 0, none, none⟩) ∧
    (sr = 0x11#8 → 5 ≤ (s.rdS d).toNat % 8 → mtsrFault d sr s = some ⟨0x004, 0x11, none, none⟩) ∧
    (sr = 0x07#8 → 5 ≤ (s.rdS d).toNat % 8 → mtsrFault d sr s = some ⟨0x004, 0x07, none, none⟩) ∧
    (sr = 0x08#8 → (s.rdS d).toNat % 4 = 3 → mtsrFault d sr s = some ⟨0x004, 0x08, none, none⟩) ∧
    (s.me.sys.priv = true → ∀ i : Fin 8,
      let o := s.me.sys.wins[i]
      let even : Win := ⟨winWord0 (s.rdS d), o.w1⟩
      let odd : Win := ⟨o.w0, winWord1 (s.rdS d)⟩
      (sr.toNat = 0x40 + 2 * i.val →
        mtsrFault d sr s = if even.ok = true then none else some ⟨0x004, sr.toNat, none, none⟩) ∧
      (sr.toNat = 0x41 + 2 * i.val →
        mtsrFault d sr s = if odd.word1Ok = true then none else some ⟨0x004, sr.toNat, none, none⟩)) ∧
    (sr = 0x00#8 →
      let w := s.rdS d
      let r := s.readSr 0x00
      let same := w.extractLsb' 12 4 = r.extractLsb' 12 4 ∧ w.extractLsb' 8 3 = r.extractLsb' 8 3
      (¬ same → mtsrFault d sr s = some ⟨0x381, 0, none, none⟩) ∧
      (same → s.me.sys.priv = true ∨ w.getLsbD 11 = false → mtsrFault d sr s = none)) ∧
    (∀ n ∈ [0x06, 0x0C, 0x0D, 0x10, 0x12, 0x18, 0x19, 0x1A, 0x1B, 0x1C], sr.toNat = n → mtsrFault d sr s = none)

/-- Entry to a trap handler (R19, R118, R209), for a context with nothing of an earlier capture to reload: the cause registers are
written, the status and loop-skip state are saved, the handler runs privileged, with empty current operations, at TVEC, and its first
bundle issues in clk u + 4; what lands by the boundary lands first, under the trap's values (R118, R123); what was to land later waits in
the trap chest, whose image goes to the save area 32 clk after the boundary (log 15); every register file and memory stand. -/
def Obligations.HandlerEntrySavesState : Prop :=
  ∀ (s : State) (core : Nat) (x : Fin 4) (k : Nat) (t : Trap) (epc : W32),
    (s.ctx core x).reload = false → (s.ctx core x).treload = false →
    let c := s.ctx core x
    let r := s.enterHandler core x k t epc
    let h := r.ctx core x
    h.sys = { c.sys with cause := h.sys.cause, epc := epc, faddr := BitVec.ofNat 55 t.faddr, priv := true, intrap := true } ∧
    (h.sys.cause.extractLsb' 0 10).toNat = t.code % 1024 ∧ h.sys.cause.getLsbD 20 = t.slot.isSome ∧
    (∀ n, t.slot = some n → (h.sys.cause.extractLsb' 21 3).toNat = n % 8) ∧
    h.ppriv = c.privAt k ∧ h.plsk = c.lsk ∧ h.lsk = false ∧
    h.tcur = c.cur ∧ h.cur = Vector.replicate 5 {} ∧ h.pc = c.bind.tvec ∧ h.regs = c.regs ∧
    h.land = (trapLand k t epc true c.land).filter (fun l => decide (l.left ≤ k)) ∧
    h.tchest = c.tchest ++ laterThan k c.land ∧ h.chest = c.chest ∧ h.tsaveIn = some (32 + k) ∧
    (r.core core).holder = some x ∧ (r.core core).wait = 3 + k ∧ r.mem = s.mem

/-- Delivery of a trap (R208): inside a handler it is a double trap, which keeps the first trap's registers, records the new code and
freezes; a cause that the table delivers by freezing, or any in a gang-timed region, writes the cause registers and freezes with PRIV,
INTRAP, LSK and the current operations as they were; any other enters the handler. That the secondary cause is the second trap's own
code is the model's reading (log 57). -/
def Obligations.TrapDelivery : Prop :=
  ∀ (s : State) (core : Nat) (x : Fin 4) (k : Nat) (t : Trap) (epc : W32),
    let c := s.ctx core x
    let r := s.takeTrap core x k t epc
    let h := r.ctx core x
    (c.sys.intrap = true → h.sys = c.sys ∧ h.second = some (BitVec.ofNat 10 t.code)) ∧
    (c.sys.intrap = false → (t.code ∈ freezeCodes ∨ c.region = true) →
      h.sys = { c.sys with cause := causeWord t, epc := epc, faddr := BitVec.ofNat 55 t.faddr } ∧
      h.lsk = c.lsk ∧ h.plsk = c.plsk ∧ h.ppriv = c.ppriv ∧ h.cur = c.cur ∧ h.tcur = c.tcur ∧ h.tchest = c.tchest) ∧
    ((c.sys.intrap = true ∨ t.code ∈ freezeCodes ∨ c.region = true) → c.frozen = .none →
      h.frozen = .trap ∧ (r.slot (clusterIndex core) (entryOf core x)).dst = .frozen ∧ h.pc = epc ∧ h.regs = c.regs ∧ h.chest = c.chest ++ laterThan k c.land ∧ h.run = none) ∧
    (c.sys.intrap = false → t.code ∉ freezeCodes → c.region = false →
      r = (s.setCore core ((s.core core).takeRecord t.taken)).enterHandler core x k t epc) ∧
    r.mem = s.mem

/-- Return from a trap (R119, R210): PRIV, LSK and the current operations are those saved at entry, INTRAP is 0, and the target
issues after the dead clk or after the reload of the chest. That the trap image of the current operations is left empty (log 62) and
the chest stands until the target issues (log 15) are the model's. -/
def Obligations.TrapReturnRestores : Prop :=
  ∀ (s : State) (core : Nat) (x : Fin 4),
    let c := s.ctx core x
    let r := s.returnFromTrap core x
    let h := r.ctx core x
    let n := c.tchest.length
    h.sys = { c.sys with priv := c.ppriv, intrap := false } ∧ h.lsk = c.plsk ∧ h.cur = c.tcur ∧ h.regs = c.regs ∧
    h.tchest = c.tchest ∧ h.treload = true ∧ h.tcur = Vector.replicate 5 {} ∧
    (r.core core).wait = (if n = 0 then 1 else 2 + (n + 7) / 8) ∧ r.mem = s.mem

/-! ### The step -/

/-- A step takes the next of the agenda; a clk of the machine; or, in the clk in hand of a core whose holding context's bundle has
one syllable, the issue of the instruction that the syllable decodes to (R77, R79, R89): what the step answers is what exec answers
for that instruction. A bundle of one NOP issues nothing else either. The agenda, and that an event is a step of its own, are the model's (log 2). -/
def Obligations.StepRunsInstruction : Prop :=
  (∀ (s : State) (i : Instr) (e : Subject) (l : List (Option (Instr × Subject))), s.agenda = some (i, e) :: l →
    step s = exec i { s with agenda := l, ev := e }) ∧
  (∀ (s : State) (l : List (Option (Instr × Subject))), s.agenda = none :: l → step s = .next ({ s with agenda := l }).clk) ∧
  (∀ (s : State) (e : Subject) (l : List (Option (Instr × Subject))) (x : Fin 4),
    s.agenda = some (.bundleIssue, e) :: l → e.core < moduleCores → s.runs (dieOf e.core) = true →
    let r := ({ s with agenda := l, ev := e } : State).boundaries e.core
    let k := (r.core e.core).select
    (r.core e.core).did.getLsbD 0 = false → k.holder = some x → k.wait = 0 →
    let u := r.setCore e.core { k with did := k.did ||| 1#5, payer := some x }
    ∀ (b : Bundle) (t : State) (w : W32) (i : Instr), Fetches u e.core x b t → b.syls = [w] → decodeSyl w = .ok i →
      ((∀ (slot : Nat) (cap : Option W32) (y : Syl),
        (u.ctx e.core x).opsAt b 0 = [⟨slot, i, cap, true⟩] → sylOf i = some y →
        (t.unready ((u.ctx e.core x).opsOf b)).isEmpty = true →
        (t.countOps b ((u.ctx e.core x).opsOf b)).issueFault b ((u.ctx e.core x).opsOf b) = none →
        Passes (oneIssue u e.core x b i slot cap) i →
        step s = exec i (oneIssue u e.core x b i slot cap)) ∧
      ((∃ tg, i = .nop tg) → (u.ctx e.core x).opsAt b 0 = [] → (u.ctx e.core x).opsOf b = [] →
        step s = exec i (oneIssue u e.core x b i 0 none))))

/-! ### The clk -/

/-- The end of a clk for a context's results (R9, R18, R21, R83, R84): those due land, of those that meet in one register the last in
rank stands and WCONF is set, the others come a clk nearer, and no result changes s0, p0, m0 or k0. -/
def Obligations.ResultsLand : Prop :=
  ∀ c : Ctx,
    let due := c.land.filter fun l => decide (l.left ≤ 1)
    let r := c.landAll
    (∀ l : Landing, Wins l due →
      (∀ i : Fin 32, l.dest = .s i → i ≠ 0 → r.regs.s[i] = l.word) ∧
      (∀ i : Fin 8, l.dest = .p i → i ≠ 0 → r.regs.p[i] = (l.word != 0)) ∧
      (∀ i : Fin 8, l.dest = .m i → i ≠ 0 → r.regs.m[i] = l.word) ∧
      (∀ i : Fin 64, l.dest = .k i → i ≠ 0 → r.regs.k[i] = l.word) ∧
      (∀ (i : Fin 32) (k : Nat), l.dest = .v i → k < 64 → l.lanes.getLsbD k = true → lane r.regs.v[i] k = lane l.vec k)) ∧
    (∀ i : Fin 32, (i = 0 ∨ ∀ l ∈ due, l.dest ≠ .s i) → r.regs.s[i] = c.regs.s[i]) ∧
    (∀ i : Fin 8, (i = 0 ∨ ∀ l ∈ due, l.dest ≠ .p i) → r.regs.p[i] = c.regs.p[i]) ∧
    (∀ i : Fin 8, (i = 0 ∨ ∀ l ∈ due, l.dest ≠ .m i) → r.regs.m[i] = c.regs.m[i]) ∧
    (∀ i : Fin 64, (i = 0 ∨ ∀ l ∈ due, l.dest ≠ .k i) → r.regs.k[i] = c.regs.k[i]) ∧
    (∀ (i : Fin 32) (k : Nat), k < 64 → (∀ l ∈ due, l.dest = .v i → l.lanes.getLsbD k = false) →
      lane r.regs.v[i] k = lane c.regs.v[i] k) ∧
    (anyMeet (sortLandings due) = true → r.sys.wconf = true) ∧
    (c.sets.getLsbD 2 = true → r.sys.coll = true) ∧
    (∀ (l : Landing) (k : Nat), (l ∈ due ∧ l.flags.getLsbD k = true) ∨ c.fsets.getLsbD k = true → r.sys.flags.getLsbD k = true) ∧
    r.land = (c.land.filter fun l => decide (1 < l.left)).map fun l => { l with left := l.left - 1 }

/-- A core's part of the clk in hand (R79, R87, R113, R234, R254, R257, R258, R370): the issue of the context that holds it, a dead clk, a
scanned bundle, an arrival on the trestle and its release, a switch of contexts, the charge of a core that issues nothing, and a hold clk,
of which a window of 64 clk has no more than HOLD; a chest or a bundle whose parity is in error freezes the context (R211, R216); a
report is taken before a new bundle, and a context in the routine that serves HIBLIST registration runs it (R207, R432).
The model's are: the parts of a clk as events of their own (log 2), where the clk of a switch and of a dead clk stand (log 13), in which
clk of its window a hold clk stands (log 32), where a parity error is met (log 43), for which clk a sync bundle's lateral slots are
checked (log 52) and the routine that a TRAP of HIBLIST registration enters (log 61). -/
def Obligations.ClockEvents : Prop :=
  ((∀ (s : State) (x : Fin 4), InHand s s.ev.core x →
    exec .bundleIssue s = .next ((taken s s.ev.core x).issueCtx s.ev.core x)) ∧
  (∀ (s : State) (x : Fin 4), InHand s s.ev.core x →
    let k := s.core s.ev.core
    let c := k.ctx x
    c.run = none → c.arrived = false → c.release ≠ some 0 →
    (k.badChest x = true →
      exec .bundleIssue s = .next ((taken s s.ev.core x).trapBefore s.ev.core x ⟨0x30A, 0, none, none⟩)) ∧
    (∀ t, k.badChest x = false → c.report = some t →
      exec .bundleIssue s = .next ((taken s s.ev.core x).trapBefore s.ev.core x t)) ∧
    (k.badChest x = false → c.report = none → s.serves s.ev.core x = true →
      exec .bundleIssue s = .next ((taken s s.ev.core x).service s.ev.core x)) ∧
    (∀ b, k.badChest x = false → c.report = none → s.serves s.ev.core x = false → k.breaks x = false → k.fetch x = .ok b →
      k.badBundle x b.bytes = true →
      exec .bundleIssue s = .next (((taken s s.ev.core x).entersRegion s.ev.core x b).trapBefore s.ev.core x ⟨0x30B, c.pc.toNat, none, none⟩))) ∧
  (∀ (s : State) (x : Fin 4) (n : Nat), s.ev.core < moduleCores → s.runs (dieOf s.ev.core) = true →
    (s.core s.ev.core).did.getLsbD 0 = false → s.boundaries s.ev.core = s → (s.core s.ev.core).holder = some x →
    (s.core s.ev.core).wait = n + 1 →
    exec .bundleIssue s = .next (s.setCore s.ev.core
      { s.core s.ev.core with did := (s.core s.ev.core).did ||| 1#5, payer := some x, wait := n })) ∧
  (∀ (s : State) (x : Fin 4) (b : Bundle) (t : State), InHand s s.ev.core x →
    let c := s.ctx s.ev.core x
    c.lsk = true → c.run = none → c.arrived = false → c.release = none → c.report = none → s.serves s.ev.core x = false → (s.core s.ev.core).badChest x = false →
    (taken s s.ev.core x).frontEnd s.ev.core x = .inr (b, t) →
    (t.countOps b (scanned (c.opsOf b))).issueFault b (scanned (c.opsOf b)) = none →
    ∃ f : Frame, exec .loopSkipScan s = .next (((taken s s.ev.core x).setCtx s.ev.core x
      { c with pc := c.pc + BitVec.ofNat 32 b.bytes, lsk := b.tmpl != 3 }).setFr f)) ∧
  (∀ (s : State) (y : Fin 4), s.ev.core < moduleCores → s.runs (dieOf s.ev.core) = true →
    let k := s.core s.ev.core
    k.did.getLsbD 0 = false → k.holder = none → k.nextHolder = some y →
    exec .contextSwitch s = .next (s.setCore s.ev.core
      { k with ctxs := k.ctxs.set y { k.ctx y with wait := [], dead := 0 }, holder := some y, ran := true
               wait := if y = k.last ∨ k.ran = false then (k.ctx y).dead else 2 })) ∧
  (∀ (s : State) (x : Fin 4) (b : Bundle) (t : State), InHand s s.ev.core x → x = ctxNo s.ev.ctx →
    let c := s.ctx s.ev.core x
    c.lsk = false → c.run = none → c.arrived = false → c.release = none → c.report = none → s.serves s.ev.core x = false → b.tmpl = 1 → (s.core s.ev.core).fetch x = .ok b →
    (s.core s.ev.core).badChest x = false → c.frozen = .none →
    (taken s s.ev.core x).frontEnd s.ev.core x = .inr (b, t) → t.handlerMaps s.ev.core x = t → (t.unready (c.opsOf b)).isEmpty = true →
    (t.atRelease.countOps b (c.opsOf b)).issueFault b (c.opsOf b) = none →
    ∃ f : Frame, exec .trestleArrive s = .next (((taken s s.ev.core x).setCtx s.ev.core x { c with arrived := true }).setFr f)) ∧
  (∀ s : State, s.ev.core < moduleCores → s.runs (dieOf s.ev.core) = true → s.boundaries s.ev.core = s →
    let k := s.core s.ev.core
    k.did = 0 → k.holder = none → k.nextHolder = none →
    let r := addCharge k.icnt k.ires k.spwr.toNat
    exec .idleClkCharge s = .next (s.setCore s.ev.core { k with did := 0x11#5, payer := none, icnt := r.1, ires := r.2.1 })) ∧
  (∀ s : State,
    let core := s.ev.core
    let u := s.performFirst (dieOf core)
    (s.runs (dieOf core) = true →
      (Gives .resultLand s fun t => t.mem = u.mem ∧ ∀ x, t.ctx core x = (u.ctx core x).landDue) ∧
      (Gives .chestEntryLand s fun t => t.mem = u.mem ∧ ∀ x, t.ctx core x =
        if x = ctxNo s.ev.ctx then (u.ctx core x).landDue else u.ctx core x)) ∧
    (s.runs (dieOf core) = false → exec .resultLand s = .next s ∧ exec .chestEntryLand s = .next s))) ∧
  ((∀ s : State, s.runs s.ev.die = true →
    Gives .trestleRelease s fun t => t.mem = s.mem ∧ ∀ (core : Nat) (x : Fin 4),
      let c := s.ctx core x
      let all := dieOf core = s.ev.die ∧ c.arrived = true ∧ c.release = none ∧ c.bind.gang = true ∧
        c.bind.tline.toNat = s.ev.index ∧ ∀ m ∈ s.trestleGang core x, (s.ctx m.1 m.2).asserts = true
      (all → t.ctx core x = { c with release := some 4 }) ∧ (¬ all → t.ctx core x = c)) ∧
  (∀ s : State, s.ev.die < numDies → (s.die s.ev.die).winHeld < (s.die s.ev.die).hold → (∀ e ∈ s.cores, dieOf e.1 = s.ev.die → e.2.did = 0) →
    exec .holdClk s = .next (s.setDie s.ev.die { s.die s.ev.die with held := true })) ∧
  (∀ s : State, s.ev.die < numDies → (s.die s.ev.die).hold ≤ (s.die s.ev.die).winHeld → exec .holdClk s = .next s))

/-- Freezing (R208, R213, R214, R235, R277): a context over its energy ceiling takes 0x281 by freezing, inside a handler as a double
trap; Vizin's requests freeze a context between bundles, and a context past its quantum that another entry waits for. The model's are:
how a request's freeze ends (log 9, not stated here), the boundary at which a ceiling freezes (log 14), that 0x281 stands as the
secondary cause inside a handler (log 57), and pre-emption for any reservation of the die (log 30). -/
def Obligations.FreezeEvents : Prop :=
  (∀ s : State,
    let core := s.ev.core
    let x := ctxNo s.ev.ctx
    let c := s.ctx core x
    c.bound = true → c.frozen = .none → c.run = none →
    (c.overBudget = false → exec .energyBudgetFreeze s = .next s) ∧
    (c.overBudget = true → c.region = false →
      Gives .energyBudgetFreeze s fun t => t.mem = s.mem ∧ (t.core core).holder ≠ some x ∧
        t.ctx core x =
          (let k := (s.core core).boundaryOff x
           if c.sys.intrap then
             frozenCtx { c with second := some 0x281#10, arrived := false, release := none } (s.die (dieOf core)).scc k .trap
           else
             frozenCtx { c with
               sys := { c.sys with cause := 0x281#32, epc := c.pc, faddr := 0 }, arrived := false, release := none
               land := trapLand k ⟨0x281, 0, none, none⟩ c.pc false c.land } (s.die (dieOf core)).scc k .trap))) ∧
  (∀ s : State,
    let core := s.ev.core
    let x := ctxNo s.ev.ctx
    let c := s.ctx core x
    c.bound = true → c.bind.gang = false →
    (c.frozen = .none → c.run = none →
      Gives .freezeRequest s fun t => t.mem = s.mem ∧ (t.core core).holder ≠ some x ∧
        t.ctx core x = frozenCtx c (s.die (dieOf core)).scc ((s.core core).boundaryOff x) .request ∧
        (t.slot (clusterIndex core) (entryOf core x)).dst = .frozen) ∧
    (c.frozen = .none → c.run ≠ none →
      exec .freezeRequest s = .next (s.setCtx core x { c with wantF := some .request })) ∧
    (c.frozen ≠ .none → exec .freezeRequest s = .next s)) ∧
  (∀ s : State,
    let core := s.ev.core
    let x := ctxNo s.ev.ctx
    let c := s.ctx core x
    let waiting := (s.bindOrder (clusterIndex core)).any (fun p => decide (c.bind.prio.toNat ≤ s.epri p.2)) ∨
      (s.die (dieOf core)).reserved.isSome = true
    c.bound = true → c.frozen = .none → c.started = true → c.bind.gang = false → c.run = none → c.seq = none →
    (c.bind.quant.toNat * 1024 ≤ s.wcc.toNat - c.boundAt → waiting →
      Gives .preemptExamine s fun t => t.mem = s.mem ∧ t.ctx core x =
        frozenCtx c (s.die (dieOf core)).scc ((s.core core).boundaryOff x) .preempt) ∧
    ((s.wcc.toNat - c.boundAt < c.bind.quant.toNat * 1024 ∨ ¬ waiting) → exec .preemptExamine s = .next s))

/-- Core pairs (R224 to R229): the pair's mode changes while nothing is bound to it; unequal signatures are reported to what runs on
the leading core, with both kept; the task runs a third time elsewhere; a third run that agrees with either stands, one that agrees with
neither fails the launch, the first pair's score rising, and so does one with a mismatch of its own; a mismatch of a task that may not
run again, or of one that runs a third time, fails its launch; a score falls by one after 24 hours without a mismatch. Where a
trailing core's record comes from is the model's (log 38), and so is how a third run is arranged (log 28).

Migration (R221, R287): a frozen task that may move takes its vault regions with it and waits in the queue of its new place; one that
may not stays. Its place, and that Vizin names it, are the model's (log 30). -/
def Obligations.PairEvents : Prop :=
  ((∀ s : State,
    let p := s.ev.index
    let z := s.pair p
    (z.quar = false → z.prot ≠ s.ev.flag → (∀ x : Fin 4, s.ctxFree (2 * p) x = true ∧ s.ctxFree (2 * p + 1) x = true) →
      exec .pairModeChange s = .next (s.setPair p { z with
        prot := s.ev.flag, csig := 0xFFFFFFFF#32, csigT := 0xFFFFFFFF#32, csigL := 0xFFFFFFFF#32, lag := [], nc := 0
        vote := none, watch := none, seen := none, trail := none })) ∧
    ((∃ x : Fin 4, s.ctxFree (2 * p) x = false ∨ s.ctxFree (2 * p + 1) x = false) → exec .pairModeChange s = .next s)) ∧
  (∀ s : State,
    let p := s.ev.index
    let z := s.pair p
    (s.ev.flag = false → z.prot = true → z.csigL ≠ z.csigT →
      Gives .csigCompare s fun t => t.mem = s.mem ∧
        t.pair p = { z with vote := z.vote.or (some (z.csigL, z.csigT, z.trailNc)), since := s.wcc.toNat } ∧
        ∀ x, t.ctx (2 * p) x =
          (let c := s.ctx (2 * p) x
           if c.bound = true ∧ c.frozen = .none then
             { c with report := c.report.or (some ⟨0x309, z.trailNc % 2 ^ 55, none, none⟩) }
           else c)) ∧
    (s.ev.flag = false → z.csigL = z.csigT → exec .csigCompare s = .next s) ∧
    (∀ (a : W32 × List Byte) (l : List (W32 × List Byte)), s.ev.flag = true → z.prot = true → z.lag = a :: l → z.csigL = z.csigT →
      exec .csigCompare s = .next (s.setPair p { z with lag := (a.1, s.ev.bytes) :: l }))) ∧
  (∀ (s : State) (a b : W32) (n : Nat) (x : Fin 4) (q : Nat × Nat),
    let p := s.ev.index
    let z := s.pair p
    let c := s.ctx (2 * p) x
    z.watch = none → z.vote = some (a, b, n) → s.mismatched p = some x → c.bind.gang = false → c.saveIn = none →
    (s.slot (clusterIndex (2 * p)) (entryOf (2 * p) x)).entry = some q → (∀ y, y ≠ x → (s.ctx (2 * p) y).frozen ≠ .trap) →
    Gives .reexecutionVote s fun t => (t.ctx (2 * p) x).bound = false ∧ (t.pair p).vote = none ∧ (t.pair p).score = z.score ∧
      (t.entry q).st = .ready ∧ (t.entry q).rsm = false ∧ (t.entry q).home = [] ∧
      (t.entry q).third = some { gmem := c.bind.gmem.toNat, pair := p, lead := a, trail := b, nc := n, lnum := c.bind.lnum
                                 wid := c.sys.wid, taskid := c.sys.taskid } ∧
      t.mem = s.mem.write (s.queueAddr q) (bytesOf (t.entry q).words)) ∧
  (∀ (s : State) (r : ThirdRun) (sig : W32),
    let p := s.ev.index
    let z := s.pair p
    let o := s.pair r.pair
    z.watch = some r → z.seen = some sig → z.vote = none → r.pair ≠ p →
    (o.quar = true ∨ o.score + 16 < 128 ∨ ∀ x : Fin 4, (s.ctx (2 * r.pair) x).bound = false ∧ (s.ctx (2 * r.pair + 1) x).bound = false) →
    let t := (s.setPair p { z with watch := none, seen := none }).setPair r.pair
      { o with score := min 255 (o.score + 16), quar := o.quar || decide (128 ≤ min 255 (o.score + 16)) }
    (sig = r.lead ∨ sig = r.trail → exec .reexecutionVote s = .next t) ∧
    (sig ≠ r.lead → sig ≠ r.trail → exec .reexecutionVote s = .next (t.failLaunch r.lnum 0x309 r.wid r.taskid))) ∧
  (∀ (s : State) (r : ThirdRun),
    let p := s.ev.index
    let z := s.pair p
    z.watch = some r → z.vote ≠ none →
    exec .reexecutionVote s = .next ((s.setPair p { z with watch := none, seen := none }).failLaunch r.lnum 0x309 r.wid r.taskid)) ∧
  (∀ (s : State) (l : Launch) (core : Nat) (x : Fin 4),
    let c := s.ctx core x
    s.launch? s.ev.lnum = some l → l.failed = none → l.aborted = false →
    c.bound = true → (c.sys.taskid.extractLsb' 32 32).toNat = l.num → c.frozen = .trap → c.saveIn = none → c.second = none →
    c.sys.cause.extractLsb' 0 10 = 0x309#10 → (c.bind.reex = false ∨ (s.pair (core / 2)).watch ≠ none) →
    Gives .completionRecord s fun t => ∀ k, t.launch? l.num = some k → k.failed ≠ none) ∧
  (∀ s : State,
    let z := s.pair s.ev.index
    (z.score ≠ 0 → z.quar = false → z.since + 86400 * second ≤ s.wcc.toNat →
      exec .suspectScoreDecay s = .next (s.setPair s.ev.index { z with score := z.score - 1, since := z.since + 86400 * second })) ∧
    ((z.quar = true ∨ s.wcc.toNat < z.since + 86400 * second) → exec .suspectScoreDecay s = .next s))) ∧
  (∀ (s : State) (q : Nat × Nat),
    let core := s.ev.core
    let x := ctxNo s.ev.ctx
    let c := s.ctx core x
    let wins := (List.range 8).map fun i => (⟨wordAt s.ev.words (2 * i), wordAt s.ev.words (2 * i + 1)⟩ : Win)
    let can := s.movable core x = true ∧ s.ev.core2 < moduleCores ∧ s.coreFits s.ev.core2 c.bind.prot = true ∧
      s.ctxFree s.ev.core2 (ctxNo s.ev.ctx2) = true ∧ movedWinsOk c.bind.wins.toList wins (clusterOf s.ev.core2) = true
    (s.slot (clusterIndex core) (entryOf core x)).entry = some q →
    (¬ can → exec .migration s = .next s) ∧
    (can → clusterIndex s.ev.core2 = q.1 → (s.entry q).st = .bound → (s.entry q).live = 1 → (s.entry q).home = [] →
      Gives .migration s fun t => (t.ctx core x).bound = false ∧ (t.entry q).st = .ready ∧
        ∃ h, (t.entry q).home = [h] ∧ h.core = s.ev.core2 ∧ h.ctx = (ctxNo s.ev.ctx2).val ∧ h.wins = wins))

/-! ### Memory -/

/-- Bytes written read back, and every other byte stands; the canonical form stays, and two memories in it that read alike are one
(R41, R70; the form is the model's own, log 1). -/
def Obligations.MemoryReadsBack : Prop :=
  ((∀ (m : Memory) (a : Nat) (bs : List Byte), (m.write a bs).bytes a bs.length = bs) ∧
  (∀ (m : Memory) (a x : Nat) (bs : List Byte), (x < a ∨ a + bs.length ≤ x) → (m.write a bs).read x = m.read x) ∧
  (∀ (m : Memory) (a : Nat) (w : Word), (m.putWord a w).word a = w) ∧
  (∀ (m : Memory) (a mask val k : Nat), k < 8 →
    ((m.poke a mask val).read a).getLsbD k = if mask.testBit k then val.testBit k else (m.read a).getLsbD k) ∧
  (∀ (m : Memory) (a : Nat) (bs : List Byte), m.wf = true → (m.write a bs).wf = true)) ∧
  (∀ m n : Memory, m.wf = true → n.wf = true → (∀ a, m.read a = n.read a) → m = n)

/-- An element of n bits stored at bit `lo` from byte `a` reads back, and no other bit changes (R41, R155). -/
def Obligations.StoredBitsReadBack : Prop :=
  ∀ (m : Memory) (a lo n v : Nat),
    let m2 := (bitCells a lo n v).foldl (fun (m : Memory) c => m.poke c.1 c.2.1 c.2.2) m
    m2.bits a lo n = v % 2 ^ n ∧
    ∀ x k : Nat, k < 8 → (x < a ∨ 8 * (x - a) + k < lo ∨ lo + n ≤ 8 * (x - a) + k) →
      (m2.read x).getLsbD k = (m.read x).getLsbD k

/-- The first four checks of a local access, in their order (R161): the window's kind and right, its format, the alignment of an 8-byte
access, and the range, whose fault names the lowest byte outside the region. -/
def Obligations.LocalAccessFaults : Prop :=
  ∀ (s : State) (k : AccKind) (tg : Tag2) (w : BitVec 3) (a : BitVec 5),
    k ∈ [.vld, .vst, .vstm, .sld, .sst, .sldd, .sstd, .vldm, .aadd, .aaddF, .amin, .amax, .axchg, .acas, .pfxld] →
    s.fr.reps = 1 → s.fr.fresh = true →
    let win := s.opWin w
    let bits := offsetBits win.fmt
    let es := k.elems win.fmt (s.nowS a).toNat 0 []
    let first := faddrOf (byteLo bits (es.headD 0))
    let barred := win.kind = 0 ∨ (k.isStore = false ∧ win.rd = false) ∨ ((k.isStore || k.isAtomic) = true ∧ win.wr = false)
    let odd := (k = .sldd ∨ k = .sstd ∨ k = .vldm) ∧ byteLo bits (es.headD 0) % 8 ≠ 0
    (barred → lmFault k tg w a s = some ⟨0x081, first, none, none⟩) ∧
    (¬ barred → k.accepts win.fmt = false → lmFault k tg w a s = some ⟨0x082, first, none, none⟩) ∧
    (¬ barred → k.accepts win.fmt = true → odd → lmFault k tg w a s = some ⟨0x083, first, none, none⟩) ∧
    (¬ barred → k.accepts win.fmt = true → ¬ odd → (∃ x ∈ es, (win.len : Int) < byteHi bits x) →
      ∃ z ∈ es, (win.len : Int) < byteHi bits z ∧
        lmFault k tg w a s = some ⟨0x084, faddrOf (max (byteLo bits z) win.len), none, none⟩ ∧
        ∀ y ∈ es, (win.len : Int) < byteHi bits y → max (byteLo bits z) win.len ≤ max (byteLo bits y) win.len)

/-- A local access performs (R156 to R159, R165, R173): a load brings its results and changes no memory; a store of one write changes
its cells and nothing else; an atomic returns the old word and stores the new one. What the die's cores issue in the clk comes first
(R250). -/
def Obligations.LocalAccessesPerform : Prop :=
  ∀ (s : State) (a : Access), PerformsAlone s s.ev.die a →
    let u := s.readFirst s.ev.die
    (a.kind ∈ [.vld, .sld, .sldd, .vldm, .vlds, .vldg, .pfxld] →
      exec .staticAccessPerform s = .next (accessDone u s.ev.die a u.mem fun c =>
        { c with land := c.land ++ (a.loads u.mem).1.map fun p => ⟨a.land, a.slot, a.ord, p.1, p.2.1, p.2.2.1, p.2.2.2, 0⟩
                 fsets := c.fsets ||| (a.loads u.mem).2 })) ∧
    (∀ p, a.kind.isStore = true → (a.puts u.mem).1 = [p] →
      Gives .staticAccessPerform s fun t =>
        t.mem = p.cells.foldl (fun m (c : Nat × Nat × Nat) => m.poke c.1 c.2.1 c.2.2) u.mem ∧
        (∀ x, (∀ c ∈ p.cells, c.1 ≠ x) → t.mem.read x = u.mem.read x) ∧ (t.die s.ev.die).acc = [] ∧
        ∀ (core : Nat) (x : Fin 4), t.ctx core x =
          if core = a.core ∧ x = ctxNo a.ctx then
            { u.ctx core x with fsets := (u.ctx core x).fsets ||| (a.puts u.mem).2 } else u.ctx core x) ∧
    (a.kind.isAtomic = true →
      let old := BitVec.ofNat 32 (u.mem.nat a.addr 4)
      Gives .staticAccessPerform s fun t =>
        BitVec.ofNat 32 (t.mem.nat a.addr 4) = (a.atomicNew old).1 ∧
        (∀ x, (x < a.addr ∨ a.addr + 4 ≤ x) → t.mem.read x = u.mem.read x) ∧
        t.ctx a.core (ctxNo a.ctx) =
          (let c := u.ctx a.core (ctxNo a.ctx)
           { c with land := c.land ++ [⟨a.land, a.slot, a.ord, a.dest, a.atomicOld old, [], 0, 0⟩]
                    fsets := c.fsets ||| (a.atomicNew old).2 }))

/-- A static-domain copy reads its source and then writes it (R291, R299). -/
def Obligations.StaticCopies : Prop :=
  (∀ (s : State) (a : Access) (t : Xfer),
    let d := dieOf s.ev.core
    let u := s.readFirst d
    a.kind = .copyRead → s.runs d = true → (u.die d).acc = [a] → a.core = s.ev.core → a.x = s.ev.x → a.left ≤ 1 → u.flaws = [] →
    (u.core a.core).xfer? a.x = some t → t.core = a.core → t.fixed = true →
    exec .staticCopyRead s = .next ((u.setDie d { u.die d with acc := [] }).updXfer
      { t with buf := u.mem.bytes (a.win.addr a.core + a.elem.toNat) a.arg.toNat
                ++ u.mem.bytes (a.win.scaleAddr a.core + a.step.toNat) a.arg2.toNat })) ∧
  (∀ (s : State) (a : Access) (t : Xfer),
    let d := dieOf s.ev.core
    let u := s.readFirst d
    a.kind = .copyWrite → PerformsAlone s d a → a ∈ (s.die d).acc →
    a.core = s.ev.core → a.x = s.ev.x → (u.core a.core).xfer? a.x = some t → t.core = a.core → litScope t.lit ≠ 6 →
    let at_ := a.win.addr a.core + a.elem.toNat
    Gives .staticCopyWrite s fun r =>
      r.mem.bytes at_ t.buf.length = t.buf ∧ (∀ x, (x < at_ ∨ at_ + t.buf.length ≤ x) → r.mem.read x = u.mem.read x) ∧
      (r.core a.core).xfer? a.x = none)

/-! ### The matrix unit at work -/

/-- The values of a step of a nest (R182, R183): element (r, j) is the sum over four products of A's row r and B's column j, at the sum
of their blocks' exponents less PSH, for the tile and the elements that the indices of the step name. -/
def Obligations.StepValues : Prop :=
  ∀ (n : Nest) (m : Memory) (core step r j : Nat), r < n.tab.nr → j < 64 →
    let t := n.tab
    let idx := stepIndices t.counts step
    let a (k : Nat) : Int := atStep t.offA t.stridesA idx + (r * t.pa : Nat) + k
    let b (k : Nat) : Int := if t.bt then atStep t.offB t.stridesB idx + (j * t.pb : Nat) + k
      else atStep t.offB t.stridesB idx + (k * t.pb : Nat) + j
    let prod (k : Nat) : Int := operandInt m n.winA core t.fa (a k) * operandInt m n.winB core t.fb (b k)
    let v := n.readStep m core step
    v.1 = atStep t.tgt.toNat t.stridesC idx ∧
    (v.2.2.getD r []).getD j Dy.zero = ⟨prod 0 + prod 1 + prod 2 + prod 3,
      operandExp m n.winA core t.fa (a 0) + operandExp m n.winB core t.fb (b 0) - (t.psh.toNat : Int)⟩

/-- The updates of accumulator tiles. ApplyRow (R188 to R190): an unset row takes the least exponent at which every element is whole, a
row that is to take nothing but zeros stays unset; the shift is the least at which every element fits, or takes the exponent to 511, where
the elements saturate and OVF is set; LOSS counts every fraction dropped; a shift or a saturation is one entry of the event log; no other
row changes.

The values that the tile instructions leave (R195, R199 to R204): ACCNORM moves headroom into the exponent and loses nothing, ACCSCALE
moves the exponent within its range, ACCINIT empties the tile, ACCWR writes half a mantissa, MSMX writes the running maximum, the sum of
the very blocks it writes and the rescaled row. One of them that is due lands with its flags. The clk in which each lands and the clk of
MSMX's flags are the model's (log 20), and so is what a deficit adds to LOSS in MSMX (log 54). -/
def Obligations.RowUpdates : Prop :=
  (∀ (t : Tile) (i src tag : Nat) (x : List Dy), i < 64 → t.rows.length = 64 → (t.row i).m.length = x.length →
    -512 ≤ (t.row i).e → (t.row i).e ≤ 511 →
    let r := t.row i
    let u := t.applyRow i x src tag
    let some_ := r.unset = false ∨ ∃ y ∈ x, y.isZero = false
    (¬ some_ → u = t) ∧
    (some_ → ∃ (e : Int) (k : Nat),
      (r.unset = false → e = r.e) ∧
      (r.unset = true → ∃ z : Int, e = max (-512) (min z 511) ∧ (∀ y ∈ x, y.multipleOf z = true) ∧ ∃ y ∈ x, y.multipleOf (z + 1) = false) ∧
      (∀ j, j < k → (shiftedRow r.m x e j).all fits36 = false ∧ e + j < 511) ∧
      ((shiftedRow r.m x e k).all fits36 = true ∨ e + k = 511) ∧
      let n := shiftedRow r.m x e k
      let sat := !(n.all fits36)
      let w := u.log[(⟨t.nseq.toNat % 16, Nat.mod_lt _ (by omega)⟩ : Fin 16)]
      u.row i = { r with e := e + k, unset := false, m := n.map fun a => max (-(2 ^ 35)) (min a (2 ^ 35 - 1)) } ∧
      u.ovf = (t.ovf || sat) ∧
      u.loss = min (t.loss + (x.filter fun y => !y.multipleOf (e + k)).length
        + (if 0 < k then (r.m.filter fun a => decide (a % 2 ^ k ≠ 0)).length else 0)) (2 ^ 32 - 1) ∧
      (k = 0 → sat = false → u.log = t.log ∧ u.nseq = t.nseq) ∧
      (0 < k ∨ sat = true → u.nseq = t.nseq + 1 ∧ w.extractLsb' 48 16 = t.nseq ∧ w.getLsbD 47 = true ∧
        w.extractLsb' 45 2 = BitVec.ofNat 2 src ∧ w.extractLsb' 39 6 = BitVec.ofNat 6 i ∧ w.extractLsb' 29 10 = BitVec.ofInt 10 e ∧
        w.extractLsb' 19 10 = BitVec.ofNat 10 k ∧ w.getLsbD 18 = sat ∧ w.extractLsb' 0 18 = BitVec.ofNat 18 tag)) ∧
    (∀ j, j < 64 → j ≠ i → u.row j = t.row j) ∧ -512 ≤ (u.row i).e ∧ (u.row i).e ≤ 511 ∧
    (u.row i).max = r.max ∧ (u.row i).sum = r.sum ∧ u.check = t.check ∧ u.chkerr = t.chkerr) ∧
  -- ACCNORM and ACCSCALE of one row
  (∀ (g i : Nat) (r : Machine.Row), g ≤ 35 → (∀ a ∈ r.m, fits36 a = true) → -512 ≤ r.e →
    let k := Nat.min (r.headroom - g) (r.e + 512).toNat
    ((r.unset = true ∨ (∀ a ∈ r.m, a = 0) ∨ r.headroom ≤ g) → normRow g i r = none) ∧
    (r.unset = false → (∃ a ∈ r.m, a ≠ 0) → g < r.headroom →
      normRow g i r = some ⟨i, some (r.e - k, r.m.map fun a => a * 2 ^ k), none⟩ ∧ ∀ a ∈ r.m, fits36 (a * 2 ^ k) = true)) ∧
  (∀ (e : Int) (m : List Int), (∀ a ∈ m, fits36 a = true) →
    (-512 ≤ e → e ≤ 511 → moveExp e m = ((e, m), false, 0)) ∧
    (511 < e → moveExp e m = ((511, m.map fun a => if a = 0 then 0 else if 0 < a then 2 ^ 35 - 1 else -(2 ^ 35 - 1)), true, 0)) ∧
    (e < -512 → moveExp e m = ((-512, m.map fun a => shiftRNE a (-512 - e).toNat), false,
      (m.filter fun a => decide (a % 2 ^ (-512 - e).toNat ≠ 0)).length))) ∧
  -- what a tile instruction leaves
  (∀ (t : Tile) (e : Int) (un : Bool) (i : Nat),
    let u := t.land (.init e un)
    u.row i = { e := e, unset := un, m := List.replicate 64 0, max := 0xFF800000#32, sum := 0 } ∧ u.ovf = false ∧ u.chkerr = false ∧
    u.loss = t.loss ∧ u.log = t.log ∧ u.nseq = t.nseq ∧ u.check = t.check) ∧
  (∀ (t : Tile) (ws : List RowWrite) (o : Bool) (l : Nat) (f : Fl), t.rows.length = 64 → (∀ w ∈ ws, w.row < 64) → (ws.map RowWrite.row).Nodup →
    let u := t.land (.rows ws o l f)
    (∀ w ∈ ws, u.row w.row = { t.row w.row with
      e := (w.val.map Prod.fst).getD (t.row w.row).e, m := (w.val.map Prod.snd).getD (t.row w.row).m
      max := (w.side.map Prod.fst).getD (t.row w.row).max, sum := (w.side.map Prod.snd).getD (t.row w.row).sum }) ∧
    (∀ i, i < 64 → (∀ w ∈ ws, w.row ≠ i) → u.row i = t.row i) ∧ u.ovf = (t.ovf || o) ∧ u.loss = min (t.loss + l) (2 ^ 32 - 1) ∧
    u.log = t.log ∧ u.nseq = t.nseq ∧ u.check = t.check ∧ u.chkerr = t.chkerr) ∧
  (∀ (t : Tile) (i : Nat) (x : Lanes), i < 64 → t.rows.length = 64 →
    let r := t.row i
    let lo := t.land (.mlo i x)
    let hi := t.land (.mhi i x)
    (∀ u ∈ [lo, hi], (u.row i).unset = false ∧ (u.row i).e = r.e ∧ (u.row i).m.length = r.m.length ∧ (∀ a ∈ (u.row i).m, fits36 a = true) ∧
      (u.row i).max = r.max ∧ (u.row i).sum = r.sum ∧ (∀ j, j < 64 → j ≠ i → u.row j = t.row j) ∧ u.loss = t.loss ∧ u.nseq = t.nseq) ∧
    ∀ j, j < r.m.length →
      encInt ((lo.row i).m.getD j 0) 36 = encInt (r.m.getD j 0) 36 / 2 ^ 32 * 2 ^ 32 + (lane x j).toNat ∧
      encInt ((hi.row i).m.getD j 0) 36 = (lane x j).toNat % 16 * 2 ^ 32 + encInt (r.m.getD j 0) 36 % 2 ^ 32) ∧
  (∀ (ts tout : Machine.Row) (i fm : Nat),
    let r := softmaxRow ts tout i fm
    let mx : Dy := ⟨ts.m.foldl max (ts.m.headD 0), ts.e⟩
    ∃ mc mn sum : Nat,
      mc = (let p := roundToFormat fmtF32 mx.isNeg mx.m.natAbs mx.e 3 0
        if p.2 &&& flOF ≠ 0 ∧ mx.isNeg = false then fpMax fmtF32 false else (flushResult fmtF32 fm p).1) ∧
      mn = (fpMinMax fmtF32 true fm tout.max.toNat mc).1 ∧
      let v := (fpDecode fmtF32 mn).dy
      let block (b : Nat) := encodeBlock (((ts.m.drop (4 * b)).take 4).map fun a => exp2Fp ((Dy.mk a ts.e).sub v)) 8 0 fm [0, 0, 0, 0]
      r.1.row = i ∧ r.1.side = some (BitVec.ofNat 32 mn, BitVec.ofNat 32 sum) ∧ r.2.1.length = 16 ∧
      (∀ b, b < 16 → r.2.1[b]? = some ((block b).1, (block b).2.1)) ∧
      (tout.max = 0xFF800000#32 ∨ tout.unset = true → r.1.val = none ∧ r.2.2.1 = 0) ∧
      (tout.max = 0xFF800000#32 →
        let g := (List.range 16).foldl (fun (g : Dy) b => (block b).2.1.foldl (fun (g : Dy) m => g.add ⟨m, ((block b).1 : Int) - 133⟩) g) Dy.zero
        sum = (roundFlush fmtF32 g.isNeg g.m.natAbs g.e 0 fm 0).1) ∧
      (tout.max ≠ 0xFF800000#32 → tout.unset = false → ∃ (c : Int) (mu : Nat),
        let dl := (fpDecode fmtF32 (flushIn fmtF32 fm tout.max.toNat)).dy.sub v
        c = dl.ceil ∧ mu = roundInt (exp2Real (dl.sub (Dy.ofInt c))).1 ((exp2Real (dl.sub (Dy.ofInt c))).2 + 16) 0 false 0 ∧
        r.1.val = some (moveExp (tout.e + c) (tout.m.map fun a => shiftRNE (a * mu) 16)).1)) ∧
  -- landing
  (∀ (k : Core) (w : TileWrite), k.twr = [w] →
    (1 < w.left → k.tileLand = { k with twr := [{ w with left := w.left - 1 }] }) ∧
    (w.left ≤ 1 →
      let r := k.tileLand
      r.twr = [] ∧ r.tile w.tile = (k.tile w.tile).land w.op ∧ (∀ t, t % 8 ≠ w.tile % 8 → r.tile t = k.tile t) ∧ r.nests = k.nests ∧
      ∀ x : Fin 4, r.ctx x =
        (match w.op with
         | .rows _ _ _ f => if x = ctxNo w.ctx then { k.ctx x with fsets := (k.ctx x).fsets ||| f } else k.ctx x
         | _ => k.ctx x))) ∧
  (∀ (t : Tile) (i : Nat) (x : List Dy), t.land (.apply i x) = t.applyRow i x 3 0 ∧ t.land .clearLoss = { t with loss := 0 })

/-- The nest's reads and updates, its end with what it reports, and arriving units (R185, R191 to R194, R197). What the core issues
and reads in the clk comes first (R250). Which comparison a record shows when both fail, and its second place when one output fails, are
the model's (log 65). -/
def Obligations.NestEvents : Prop :=
  (∀ (s : State) (n : Nest),
    let core := s.ev.core
    let u := s.clkIssue core
    let k := u.core core
    s.runs (dieOf core) = true → k.did.getLsbD 1 = false → k.nests = [n] → n.frozen = false → n.rotate = false → n.mirror = false →
    k.badPes = [] → u.flaws = [] → n.next < n.tab.steps → n.wait ≤ 1 →
    let v := n.readStep u.mem core n.next
    exec .nestStepRead s = .next (u.setCore core { k with
      did := k.did ||| 2#5
      nests := [{ n with next := n.next + 1, wait := n.tab.stepClk
                         vals := n.vals ++ [⟨n.tab.stepClk + 12, n.next, v.1, v.2.2⟩] }] })) ∧
  (∀ (s : State) (n : Nest) (v : StepVals),
    let core := s.ev.core
    let u := s.coreFirst core
    let k := u.core core
    s.runs (dieOf core) = true → k.did.getLsbD 2 = false → k.nests = [n] → n.vals = [v] → v.left ≤ 1 →
    exec .nestStepUpdate s = .next (u.setCore core
      { k.setTile v.tile.toNat (v.rows.zipIdx.foldl (fun t p => t.applyRow p.2 p.1 0 v.step) (k.tile v.tile.toNat)) with
        did := k.did ||| 4#5, nests := [{ n with vals := [] }] })) ∧
  (∀ (s : State) (n : Nest),
    let core := s.ev.core
    let u := s.coreFirst core
    let k := u.core core
    let x := ctxNo n.ctx
    let bad := if n.turnBad ≠ [] then n.turnBad else n.mirrorBad
    let first := (n.tab.tiles.headD 0).toNat
    s.runs (dieOf core) = true → k.did.getLsbD 2 = true → k.twr = [] → k.nests = [n] → n.frozen = false → n.remain ≤ 1 →
    (bad = [] → (∀ i ∈ n.tab.tiles, k.badTile i.toNat = false) →
      exec .nestEnd s = .next (u.setCore core { k with nests := [] })) ∧
    (bad ≠ [] →
      Gives .nestEnd s fun t => (t.core core).nests = [] ∧ t.mem = u.mem ∧
        (∀ i ∈ n.tab.tiles, ((t.core core).tile i.toNat).chkerr = true) ∧
        ((t.core core).tile first).check =
          (if (k.tile first).check.getLsbD 63 then (k.tile first).check else checkRecord (n.turnBad != []) bad) ∧
        (t.ctx core x).report = (k.ctx x).report.or (some ⟨0x303, first, none, none⟩)) ∧
    (∀ j, bad = [] → n.tab.tiles.find? (fun i => k.badTile i.toNat) = some j →
      Gives .nestEnd s fun t => (t.core core).nests = [] ∧ t.mem = u.mem ∧
        (∀ i ∈ n.tab.tiles, ((t.core core).tile i.toNat).chkerr = true) ∧
        (t.ctx core x).report = (k.ctx x).report.or (some ⟨0x304, j.toNat, none, none⟩))) ∧
  (∀ s : State,
    let k := s.core s.ev.core
    let u := s.ev.unit
    let stands := ∀ r ∈ k.regn, r.x = u.x → k.stands r = true
    let room := (k.arrq.filter fun v => !v.kept).length < 15
    let sixteenth := k.nextUnit u = true ∧ ∀ v ∈ k.arrq, v.kept = false
    k.awaitsUnit u = true →
    (stands → room → exec .arrivalUnitQueue s = .next (s.setCore s.ev.core { k with arrq := k.arrq ++ [{ u with kept := false }] })) ∧
    (stands → ¬ room → sixteenth →
      exec .arrivalUnitQueue s = .next (s.setCore s.ev.core { k with arrq := k.arrq ++ [{ u with kept := true }] })) ∧
    ((¬ stands ∨ (¬ room ∧ ¬ sixteenth)) →
      exec .arrivalUnitQueue s = .next (s.setCore s.ev.core { k with retry := k.retry ++ [u] }))) ∧
  (∀ (s : State) (u : ArrUnit),
    let k := s.core s.ev.core
    k.retry = [u] → (∃ r ∈ k.regn, r.x = u.x) → (∀ r ∈ k.regn, r.x = u.x → k.stands r = true) →
    (k.arrq.filter fun v => !v.kept).length < 15 →
    exec .arrivalUnitRetry s = .next (s.setCore s.ev.core { k with retry := [], arrq := k.arrq ++ [{ u with kept := false }] })) ∧
  (∀ (s : State) (u : ArrUnit) (r : Registration),
    let core := s.ev.core
    let v := s.coreFirst core
    let k := v.core core
    s.runs (dieOf core) = true → k.did.getLsbD 3 = false → firstUnit (k.arrq.filter k.applicable) = some u → u.src ≠ 1 →
    k.regn = [r] → r.tile = u.tile → r.x = u.x → r.done + 1 < r.total → k.badTile u.tile = false →
    Gives .arrivalUnitApply s fun t =>
      (t.core core).tile u.tile =
        (k.tile u.tile).applyRow u.row (u.q.map fun q => ⟨q, u.e⟩) u.src (xidTag u.x) ∧
      (t.core core).regn = [{ r with done := r.done + 1 }] ∧
      (t.core core).arrq = k.arrq.filter (fun w => !decide (w.x = u.x ∧ w.seq = u.seq ∧ w.tile = u.tile)) ∧
      (t.core core).did = k.did ||| 8#5 ∧ t.mem = v.mem)

/-! ### Transfers at work -/

/-- A transfer that completes (R284, R286, R292): it leaves flight with its pending ranges, an error leaves its record, the watermark
passes every identifier that is complete with all before it, and the token of a transfer at the watermark becomes ready. -/
def Obligations.TransferCompletion : Prop :=
  ∀ (k : Core) (t : Xfer), t.x.ch < 8 →
    let ch : Fin 8 := ⟨t.x.ch % 8, Nat.mod_lt _ (by omega)⟩
    let c := k.chans[ch]
    let r := k.complete t
    let d := r.chans[ch]
    r.xfer? t.x = none ∧ (∀ p ∈ r.pend, p.x ≠ t.x) ∧ (∀ p ∈ k.pend, p.x ≠ t.x → p ∈ r.pend) ∧
    (∀ u ∈ k.xfers, u.x ≠ t.x → u ∈ r.xfers) ∧ d.nid = c.nid ∧ d.wm ∉ d.done ∧
    (∀ j, j < (d.wm - c.wm).toNat → c.wm + BitVec.ofNat 32 j ∈ t.x.id :: c.done) ∧
    (t.err = none → r.faults = k.faults) ∧ (∀ code faddr, t.err = some (code, faddr) → ⟨t, code, faddr, false⟩ ∈ r.faults) ∧
    (t.x.id = c.wm → (∀ i ∈ t.x.id :: c.done, (i - c.wm).toNat < (c.nid - c.wm).toNat) → r.ready (tokenOf t.x) = true)

/-- The start, the pieces and the end of a transfer (R284, R286, R289, R290, R300, R309, R347, R348, R355, R363). That an error waits for
the pieces under way, and the RP it leaves, are the model's reading (log 23). -/
def Obligations.TransferEvents : Prop :=
  (∀ (s : State) (t : Xfer), s.evXfer = some t →
    ((s.core t.core).startable t = true → (s.core t.core).inherited t = none → s.badRecord t = none →
      exec .transferStart s = .next (s.updXfer { t with phase := .started })) ∧
    (∀ r, (s.core t.core).startable t = true → (s.core t.core).inherited t = some r →
      exec .transferStart s = .next ((s.dropStatus t).failXfer t r.code r.faddr)) ∧
    (∀ b, (s.core t.core).startable t = true → (s.core t.core).inherited t = none → s.badRecord t = some b →
      exec .transferStart s = .next ((s.dropStatus t).failXfer t 0x306 (sramOffset b))) ∧
    ((s.core t.core).startable t = false → exec .transferStart s = .next s)) ∧
  (∀ (s : State) (t : Xfer) (src dst : Area) (sp : List Spot) (r : State),
    let n := s.ev.index
    let u := s.settle
    let ms := copyMoves (copyKind t.op) t.recd t.rp
    let line := (dst.pieceLines ms).getD n 0
    let mine := ms.filter fun m => (dst.linesOf m.dst).contains line
    let v := u.fillAll t (moveVas src dst mine)
    s.evXfer = some t → ((t.op matches .xcopy _ _ _ _) = true ∨ (t.op matches .xlin _ _ _ _) = true) → recCmp t.recd = false →
    t.dst = none → s.working t = true → n < s.goal t → t.pieces.contains n = false → u.copyEnds t = .ok (src, dst) →
    raggedEnd (copyKind t.op) t src dst = none → (n = 0 → v.readDrops t src dst = .ok ()) →
    (do let cs ← v.moveCells t src dst mine; v.spots t dst (cs.filter fun c => c.addr / 64 == line)) = .ok sp →
    v.writeSpots t n sp = .ok r →
    exec .transferPiecePerform s = .next (r.pieceDone t n)) ∧
  (∀ (s : State) (t : Xfer) (d : Area) (line : Nat) (sp : List Spot) (r : State),
    let u := s.settle
    let lines := distinct (t.out.map fun c => c.addr / 64)
    let rest := t.out.filter fun c => c.addr / 64 != line
    s.evXfer = some t → s.working t = true → t.dst = some d → t.out ≠ [] → lines[s.ev.index % lines.length]? = some line →
    u.spots t d (t.out.filter fun c => c.addr / 64 == line) = .ok sp → u.writeSpots t 0 sp = .ok r →
    exec .transferPiecePerform s = .next (r.updXfer { t with
      out := rest, dst := if rest = [] ∧ t.commit = [] then none else some d, round := 0 })) ∧
  (∀ (s : State) (t : Xfer) (pa : Nat), s.evXfer = some t → (t.op matches .xbarw _ _ _ _) = true → t.dst = none → s.working t = true →
    s.ev.index = 0 → t.pieces.contains 0 = false → s.settle.barrierAt t (wordAt t.args 0) = .ok pa →
    ((s.settle.mem.word (pa + 8)).toNat % 32 ≠ addrGen (wordAt t.args 0) →
      exec .transferPiecePerform s = .next (s.settle.pieceDone t 0)) ∧
    ((s.settle.mem.word (pa + 8)).toNat % 32 = addrGen (wordAt t.args 0) → exec .transferPiecePerform s = .next s.settle)) ∧
  (∀ (s : State) (t : Xfer), s.evXfer = some t → (t.op matches .xsig _ _ _ _) = true → 2 ≤ sigMode t → t.dst = none →
    s.working t = true → s.ev.index = 0 → t.pieces.contains 0 = false →
    let e := (s.core t.core).cst[(⟨(wordAt t.args 0).toNat % 16, Nat.mod_lt _ (by omega)⟩ : Fin 16)].word
    let p := fld (wordAt t.args 1) 0 6
    (e.getLsbD 29 = true → exec .transferPiecePerform s = .next (s.failXfer t 0x188 0)) ∧
    (e.getLsbD 29 = false → p ≤ fld e 0 6 ∨ e.getLsbD 31 = true ∨ e.getLsbD 30 = true →
      exec .transferPiecePerform s = .next (s.pieceDone t 0))) ∧
  (∀ (s : State) (t : Xfer), s.evXfer = some t → s.performed t = true → lateOp t.op = false → s.coll? t.core t.x = none →
    litScope t.lit ≠ 6 → exec .transferComplete s = .next (s.completeXfer t)) ∧
  (∀ (s : State) (t : Xfer) (code faddr : Nat), s.evXfer = some t → t.phase = .waiting → t.cut = false → t.err = some (code, faddr) →
    (s.awaiting t = false → s.undelivered t = false →
      let u := { t with rp := t.failRp }
      exec .transferComplete s = .next (s.failXfer { u with bytes := s.bytesBefore u } code faddr)) ∧
    (s.awaiting t = true ∨ s.undelivered t = true → exec .transferComplete s = .next s)) ∧
  (∀ (s : State) (t : Xfer) (tg : Tag) (kd : BitVec 6) (a : BitVec 5) (l : BitVec 4), s.evXfer = some t → s.performed t = true →
    t.op = .xatom tg kd a l → s.landsNow t = some true → s.coll? t.core t.x = none → litScope t.lit ≠ 6 →
    let x := ctxNo t.ctx
    let c := s.ctx t.core x
    exec .transferComplete s = .next ((s.setCtx t.core x { c with
      land := ⟨1, 0, 0, .s t.late, t.found, [], 0, 0⟩ :: c.land }).completeXfer t)) ∧
  (∀ (s : State) (t : Xfer) (src dst : Area) (cs : List Cell) (sp : List Spot) (r : State),
    let row := s.ev.index
    let n := s.ev.count
    let u := s.settle
    let ms := t.row row
    let parts := dst.rowParts ms
    let lines := parts.getD n []
    let mine := ms.filter fun m => (dst.linesOf m.dst).any lines.contains && !(t.overrun dst row lines).contains m.dst
    let v := u.fillAll t (moveVas src dst mine)
    let ps := lineKey row n :: t.pieces
    s.evXfer = some t → ((t.op matches .xgath _ _ _ _) = true ∨ (t.op matches .xscat _ _ _ _) = true) → s.working t = true →
    row < t.index.length → t.lineDone row n = false → u.copyEnds t = .ok (src, dst) → n < parts.length →
    v.moveCells t src dst mine = .ok cs → v.spots t dst (cs.filter fun c => lines.contains (c.addr / 64)) = .ok sp →
    v.writeSpots t (lineKey row n) sp = .ok r →
    exec .indexRowMove s = .next (r.updXfer { t with
      pieces := if (List.range parts.length).all (fun i => ps.contains (lineKey row i)) then row :: ps else ps, round := 0 }))

/-- Re-runs, the fault buffer, seed requests and barriers (R127, R307, R347, R349, R360, R405): RESUME reports the identifier under which a
faulted transfer goes on, but not while an S3 sequence runs (R375); a freed record lets the first transfer start whose tokens are ready; a seed request brings its index,
names its entry and restarts the draws; an arrival counts at its barrier, and the host's copy of a line of HBM goes first; an output row of XMVB arrives at its tile, or is
held until the last of them is computed and then written. -/
def Obligations.TransferSideEvents : Prop :=
  (∀ s : State, s.power.s3 ≠ .none → exec .transferResume s = .next s) ∧
  (∀ (s : State) (r : FaultRec), s.power.s3 = .none → (s.core s.ev.core).faults[s.ev.index]? = some r → r.xf.x.ch < 8 →
    let ch : Fin 8 := ⟨r.xf.x.ch % 8, Nat.mod_lt _ (by omega)⟩
    let id := (s.core s.ev.core).chans[ch].nid
    Gives .transferResume s fun t =>
      (t.core s.ev.core).resume = id.zeroExtend 64 ∧ (t.core s.ev.core).chans[ch].nid = id + 1 ∧
      r ∉ (t.core s.ev.core).faults ∧ t.mem = s.mem ∧
      ∃ x ∈ (t.core s.ev.core).xfers, x.x = ⟨r.xf.x.ch, id⟩ ∧ x.op = r.xf.op ∧ x.phase = .started ∧ x.err = none ∧ x.uses = []) ∧
  (∀ (s : State) (t : Xfer), (s.core s.ev.core).xfers.find? (s.core s.ev.core).startable = some t → t.core = s.ev.core →
    (s.core s.ev.core).inherited t = none → s.badRecord t = none →
    exec .faultBufferFree s = .next (s.updXfer { t with phase := .started })) ∧
  (∀ (s : State) (t : Xfer) (tg : Tag2) (kd : BitVec 6) (d : BitVec 5), s.evXfer = some t → t.op = .seedreq tg d kd →
    t.wantsSeed = false → t.err = none → s.landsNow t = some true →
    let x := ctxNo t.ctx
    let c := s.ctx t.core x
    let l (d : Dest) (w : Word) : Landing := ⟨1, slotOf tg 0, 0, d, w, [], 0, 0⟩
    exec .seedreqComplete s = .next ((s.setCtx t.core x { c with
      land := [l (.s ⟨(wordAt t.args 0).toNat % 32, Nat.mod_lt _ (by omega)⟩) t.found,
        l (.sr 0x0B) (c.sys.stream ++ 0#24 ++ (t.found.truncate 8 : BitVec 8)), l (.sr 0x0C) 0] ++ c.land }).completeXfer t)) ∧
  (∀ (m : Memory) (a : Nat),
    let w := m.word a
    let target := (w.extractLsb' 32 32).toNat
    let count := (w.extractLsb' 0 32).toNat
    let r := m.arriveAt a
    r.2 = m.word (a + 8) ∧ (r.1.word a).extractLsb' 32 32 = w.extractLsb' 32 32 ∧
    (count + 1 < 2 ^ 32 → target ≤ count + 1 →
      (r.1.word a).extractLsb' 0 32 = 0 ∧ r.1.word (a + 8) = m.word (a + 8) + 1) ∧
    (count + 1 < target →
      ((r.1.word a).extractLsb' 0 32).toNat = count + 1 ∧ r.1.word (a + 8) = m.word (a + 8)) ∧
    ∀ x, (x < a ∨ a + 16 ≤ x) → r.1.read x = m.read x) ∧
  (∀ s : State, s.retained (s.place s.ev.addr) false = false →
    (∀ d, s.place s.ev.addr = .hbm d →
      exec .barrierArrival s = .next { s.settle.backInvalidate (s.ownAddr s.ev.addr / 64) with
        mem := (s.settle.mem.arriveAt (s.ownAddr s.ev.addr)).1 }) ∧
    (∀ d c, s.place s.ev.addr = .vault d c →
      exec .barrierArrival s = .next (s.addDelivery d
        (.arrive ⟨0, 0⟩ (3072 + 2 * c) moduleCores 0 (s.ownAddr s.ev.addr) none)))) ∧
  (∀ s : State, s.retained (s.place s.ev.addr) false = true → exec .barrierArrival s = .next s) ∧
  (∀ (s : State) (t : Xfer) (i : Nat) (d : Area) (xs : List Dy), s.evXfer = some t → (t.op matches .xmvb _ _ _ _) = true →
    s.working t = true → t.buf ≠ [] → t.dst = none →
    (List.range (mvRows t.recd)).find? (fun i => !t.pieces.contains i) = some i →
    let u := s.settle.fillAll t [addrVirt (wordAt t.recd 2)]
    u.mvArea t = .ok d → (List.range 64).mapM (fun j => u.mvOut t d (64 * i + j)) = .ok xs →
    (mvWin t.recd = false → exec .xmvbOutput s = .next ((u.setCore t.core ((u.core t.core).arrive
      ⟨mvTile t.recd, mvRow0 t.recd + i, 1, t.x, i, (commonExp xs).1, (commonExp xs).2, false⟩)).pieceDone t i)) ∧
    (mvWin t.recd = true →
      let o := windowArea t.wins t.core (wordAt t.recd 4) 0
      let cs := xs.zipIdx.flatMap fun (x : Dy × Nat) =>
        o.cells none ((64 * i + x.2 : Nat) : Int) 32 (roundToFormat fmtF32 x.1.isNeg x.1.m.natAbs x.1.e 0 0).1
      ((i :: t.pieces).length < mvRows t.recd →
        exec .xmvbOutput s = .next (u.updXfer { t with pieces := i :: t.pieces, out := t.out ++ cs, round := 0 })) ∧
      (mvRows t.recd ≤ (i :: t.pieces).length → ∀ sp, u.spots t o (t.out ++ cs) = .ok sp →
        exec .xmvbOutput s = .next (u.updXfer { t with
          pieces := i :: t.pieces, head := [], round := 0, dst := if t.out ++ cs = [] then none else some o, out := t.out ++ cs
          commit := [] })))) ∧
  (∀ (s : State) (t : Xfer) (i : Nat) (d : Area), s.evXfer = some t → (t.op matches .xmvb _ _ _ _) = true →
    s.working t = true → t.buf ≠ [] → t.dst = none → mvWin t.recd = false → s.flaws = [] →
    (List.range (mvRows t.recd)).find? (fun i => !t.pieces.contains i) = some i → MvReads s.settle t d i →
    ∃ e ms, exec .xmvbOutput s = .next ((s.settle.setCore t.core ((s.settle.core t.core).arrive
      ⟨mvTile t.recd, mvRow0 t.recd + i, 1, t.x, i, e, ms, false⟩)).pieceDone t i))

/-- The hutch (R302, R304 to R306): the block at work runs under the event of its operation. It reads the header of its object; or its
result stays in the buffer, or is in hand to be written, and the chain goes to its next block or ends; an error ends it. A block whose
ends are what its operation asks for, and within reach, runs. That a result waits until every byte of it can be reached is the model's
(log 25). `hutchNo` numbers the seven events: HUTCH_PACK, HUTCH_UNPACK, HUTCH_CONVERT,
HUTCH_REBLOCK, HUTCH_TRANSPOSE, HUTCH_DPENC and HUTCH_DPDEC (`hutchPack` to `hutchDpdec`). -/
def Obligations.HutchEvents : Prop :=
  ∀ (s : State) (i : Instr) (n : Nat) (t : Xfer) (b : Block), hutchNo i = some n → HutchReady s t b → b.op = n →
    let u := s.settle
    (∀ o, u.blockRun t b = .ok o → (∀ d cs commit, o = .cells d cs commit → ∃ sp, u.spots t d (cs ++ commit) = .ok sp) →
      exec i s = .next (u.updXfer (hutchTook t b o))) ∧
    (∀ code faddr, u.blockRun t b = .error (.fault code faddr) → exec i s = .next (u.failAt t code faddr)) ∧
    (HutchEnds u t b → ∃ o, u.blockRun t b = .ok o ∧ exec i s = .next (u.updXfer (hutchTook t b o)))

/-- Translation (R345, R346): a walk's mapping enters the caches; TINV drops the entries of its pages, and a write while one is
under way is ignored.

A walk grants only what its leaf grants (R340 to R343): the mapping holds the address, its page gives the right asked for, and an
address space that is not valid, or whose directory has no valid entry, has none. -/
def Obligations.TranslationEvents : Prop :=
  ((∀ (s : State) (p : Mapping),
    let d := s.ev.cluster / numClusters
    let c := s.ev.cluster % numClusters
    let u := s.settle
    (u.die d).lookup c s.ev.asid s.ev.addr = none → u.walkRetained s.ev.asid s.ev.addr = false →
    u.walk s.ev.asid s.ev.addr .read = .ok p →
    exec .translationWalk s = .next (u.setDie d ((u.die d).cache c s.ev.asid p))) ∧
  (∀ s : State,
    let d := s.ev.cluster / numClusters
    s.settle.walk s.ev.asid s.ev.addr .read = .error 0x087 → s.settle.walk s.ev.asid s.ev.addr .write = .error 0x087 →
    (s.settle.die d).lookup (s.ev.cluster % numClusters) s.ev.asid s.ev.addr = none →
    exec .translationWalk s = .next s.settle) ∧
  (∀ s : State,
    let d := s.ev.cluster / numClusters
    let u := s.settle
    (u.die d).lookup (s.ev.cluster % numClusters) s.ev.asid s.ev.addr = none → u.walkRetained s.ev.asid s.ev.addr = false →
    ∀ p, LeafAt u s.ev.asid s.ev.addr .read p →
      exec .translationWalk s = .next (u.setDie d ((u.die d).cache (s.ev.cluster % numClusters) s.ev.asid p))) ∧
  (∀ s : State,
    let x := s.die s.ev.die
    (x.tinv.getLsbD 63 = false → exec .tinv s = .next (s.setDie s.ev.die { x with tinv := s.ev.value })) ∧
    (x.tinv.getLsbD 63 = true → exec .tinv s = .next s)) ∧
  (∀ s : State,
    let x := s.die s.ev.die
    (x.tinv.getLsbD 63 = true → s.tinvWaits s.ev.die x.tinv = false →
      exec .tinvComplete s = .next (s.setDie s.ev.die
        { x with tlb := x.tlb.filter (fun e => !tinvHits x.tinv e), tinv := x.tinv &&& 0x7FFFFFFFFFFFFFFF#64 })) ∧
    (x.tinv.getLsbD 63 = false ∨ s.tinvWaits s.ev.die x.tinv = true → exec .tinvComplete s = .next s))) ∧
  ((∀ (s : State) (asid va : Nat) (r : Right) (p : Mapping), s.walk asid va r = .ok p →
    p.grants r = true ∧ p.va ≤ va ∧ va < p.va + p.size ∧ p.size ∈ [2 ^ 16, 2 ^ 29, 2 ^ 42] ∧ p.pa % 2 ^ 16 = 0 ∧
    (blockFmt p.fmt = true → p.geo ≤ 2) ∧ (blockFmt p.fmt = false → p.geo = 3)) ∧
  (∀ (s : State) (asid va : Nat) (r : Right), s.flaws = [] → (wordAt (s.space asid) 0).getLsbD 63 = false →
    s.walk asid va r = .error 0x089) ∧
  (∀ (s : State) (asid va : Nat) (r : Right), s.flaws = [] →
    let w := wordAt (s.space asid) 0
    w.getLsbD 63 = true → (s.portMem.word (fld w 0 36 * 2 ^ 16 + 8 * (va / 2 ^ 42 % 8192))).getLsbD 63 = false →
    s.walk asid va r = .error 0x087))

/-- Merged reductions (R353, R354): the order in which operands merge makes no difference to the integer and logic operations, a sum is
the sum modulo the word's size, and a least or greatest is one of the words and bounds them all. -/
def Obligations.MergedReductions : Prop :=
  (∀ (op old : Nat) (vs ws : List Nat), op ∈ [0, 1, 7, 8, 9, 14] → vs.Perm ws → redNew op old vs = redNew op old ws) ∧
  (∀ (op old : Nat) (vs : List Nat), op ∈ [0, 1] → old < 2 ^ (8 * redBytes op) →
    redNew op old vs = (old + vs.sum) % 2 ^ (8 * redBytes op)) ∧
  (∀ (old : Nat) (vs : List Nat),
    redNew 3 old vs ∈ old :: vs ∧ (∀ v ∈ old :: vs, signExt (redNew 3 old vs) 32 ≤ signExt v 32) ∧
    redNew 4 old vs ∈ old :: vs ∧ (∀ v ∈ old :: vs, signExt v 32 ≤ signExt (redNew 4 old vs) 32))

/-- The memory ports (R351 to R353, R356, R364, R405): an update joins its line's queue or, an atomic, drains the line and swaps; a drain
empties the line's entries in order; an XRED with BAR finds its barrier before its update and arrives at it after; the patrol counts
errors and retires a row that gave two. -/
def Obligations.MemoryPortEvents : Prop :=
  (∀ (s : State) (t : Xfer) (tg : Tag) (kd : BitVec 6) (a : BitVec 5) (l : BitVec 4) (pa d : Nat), s.evXfer = some t →
    (t.op = .xred tg kd a l ∨ t.op = .xatom tg kd a l) → s.working t = true →
    t.pieces.contains 0 = false → t.sent.contains 0 = false → litScope t.lit ≠ 6 →
    let va := addrVirt (wordAt t.args 0)
    let v := (wordAt t.args 1).toNat
    let u := s.fillAll t [va]
    (u.redPlace t va = .ok pa ∧ placeOf pa = .hbm d ∨ s.flaws = [] ∧ RedReaches s t pa) →
    (t.op = .xred tg kd a l → litBar t.lit = false →
      exec .writeQueueAccept s = .next
        ((u.accept (litOp t.lit) pa (v % 2 ^ (8 * redBytes (litOp t.lit)))).pieceDone { t with found := 0 } 0)) ∧
    (∀ pb, t.op = .xred tg kd a l → litBar t.lit = true →
      (u.redPlace t va = .ok pa ∧ u.redBarrier t = .ok pb ∨ s.flaws = [] ∧ RedReaches s t pa ∧ BarReaches s t pb) →
      exec .writeQueueAccept s = .next
        ((u.accept (litOp t.lit) pa (v % 2 ^ (8 * redBytes (litOp t.lit)))).pieceDone { t with found := BitVec.ofNat 64 pb } 0)) ∧
    (t.op = .xatom tg kd a l →
      let w := u.drainLine (pa / 64)
      let old := w.mem.nat pa (redBytes (litOp t.lit))
      exec .writeQueueAccept s = .next
        (({ w with mem := w.mem.write pa (leBytes (redBytes (litOp t.lit))
            (redValue (litOp t.lit) old v (wordAt t.args 2).toNat)) }).pieceDone { t with found := BitVec.ofNat 64 old } 0))) ∧
  (∀ s : State,
    let d := s.ev.index * 64 / hbmSize
    let x := s.die d
    exec .writeQueueDrain s = .next { s.setDie d { x with queue := x.queue.filter fun q => q.line != s.ev.index } with
      mem := (x.queue.filter fun q => q.line == s.ev.index).foldl drainEntry s.mem }) ∧
  (∀ (s : State) (t : Xfer) (tg : Tag) (kd : BitVec 6) (a : BitVec 5) (l : BitVec 4) (pa d : Nat), s.evXfer = some t →
    t.op = .xred tg kd a l → s.working t = true → litBar t.lit = true → t.pieces = [0] → s.undelivered t = false → s.awaiting t = false →
    t.found.toNat = pa → s.settle.place pa = .hbm d → s.settle.retained (.hbm d) true = false →
    exec .reductionBarrierSend s = .next
      (({ s.settle.backInvalidate (pa / 64) with mem := (s.settle.mem.arriveAt pa).1 }).pieceDone t 1)) ∧
  (∀ s : State,
    let x := s.die s.ev.die
    let bad := if x.patrol = s.patrolPeriod then x.badRows else []
    Gives .patrolRead s fun t =>
      (t.die s.ev.die).errs = (if s.ev.count = 0 then x.errs else x.errs ++ [(s.wcc.toNat, s.ev.count)]) ∧ t.mem = s.mem ∧
      (t.die s.ev.die).patrol = s.patrolPeriod ∧
      (∀ r ∈ s.ev.nats, (r ∈ bad → r ∈ (t.die s.ev.die).retired ∧ r ∉ t.flaws) ∧
        (r ∉ bad → r ∈ (t.die s.ev.die).badRows ∧ r ∈ t.flaws)) ∧
      (∀ r, r ∈ s.flaws → r ∉ s.ev.nats → r ∈ t.flaws))

/-! ### Launches and tasks -/

/-- Submission and acceptance (R261, R262, R281, R374): a doorbell moves TAIL when the ring can hold the records; an accepted record takes
the next launch number and ROOT is to be activated; a refused one has its reason written; one that a die at retention keeps from being
read waits. The model's choices: the doorbell's index taken modulo 4,096, a doorbell that does not fit leaves TAIL, and a torn ring or
one outside HBM refuses its records (log 27); where the graph's copy stands (log 4); WACC of a refusal (log 66). -/
def Obligations.SubmissionEvents : Prop :=
  (∀ s : State,
    let q := s.subq s.ev.queue
    let tail := s.ev.index % 4096
    (s.ten.go = false → q.size ≠ 0 → (tail + 4096 - q.head) % 4096 ≤ q.size →
      exec .submitDoorbell s = .next (s.setSubq s.ev.queue { q with tail := tail })) ∧
    ((s.ten.go = true ∨ q.size < (tail + 4096 - q.head) % 4096) → exec .submitDoorbell s = .next s)) ∧
  (∀ s : State,
    let q := s.subq s.ev.queue
    let u := s.settle.setSubq s.ev.queue
      { q with head := (q.head + 1) % 4096, torn := q.torn && decide ((q.head + 1) % 4096 ≠ q.tail) }
    let a := 128 * q.base + 128 * (q.head % q.size)
    let r := u.mem.words a 16
    let v := if q.torn ∨ ¬ q.inHbm then (9, []) else u.refusal r none
    s.ten.go = false → s.ev.queue < 64 → q.size ≠ 0 → q.head ≠ q.tail → s.launches.length < 4096 →
    (q.inHbm = true ∨ ringReadable a = true) → (u.asleep (placeOf a) = true ∨ u.recordWaits r = true →
      exec .launchAccept s = .next (u.setSubq s.ev.queue q)) ∧ (u.asleep (placeOf a) = false → u.recordWaits r = false →
    (∀ g, v = (0, g) → Gives .launchAccept s fun t =>
      t.lnext = (s.lnext + 1) % 2 ^ 32 ∧
      t.mem = (u.mem.putWord (a + 120) (word15 u.lnext 0)).write (u.graphAddr r g u.lnext) g ∧
      ∃ l, t.launches = u.launches ++ [l] ∧ l.num = u.lnext ∧ l.recd = r ∧ l.graph = g ∧ l.pending = [gRoot g] ∧
        l.failed = none ∧ l.queue = some s.ev.queue) ∧
    (∀ n g, n ≠ 0 → v = (n, g) → exec .launchAccept s = .next
      (({ u with mem := u.mem.putWord (a + 120) (word15 (fld (wordAt r 15) 32 32) n) }).refuse r (some s.ev.queue))))) ∧
  (∀ s : State, s.ten.go = true → exec .launchAccept s = .next s) ∧
  (∀ (s r : State) (t : Xfer) (ws : List Word) (g : List Byte),
    let va := (wordAt t.args 0).toNat
    s.ten.go = false → 64 ≤ s.ev.queue → s.xlaunches.head? = some t → s.launches.length < 4096 →
    s.settle.vwords t.asid va 16 = .ok ws → s.settle.recordWaits ws = false → s.settle.refusal ws (some t.asid) = (0, g) →
    s.settle.vwrite t.asid (va + 120) (leBytes 8 (word15 s.lnext 0).toNat) = .ok r → litOpt t.lit % 2 = 1 →
    exec .launchAccept s = .next ((r.accepted ws g none (some (t.core, t.x, true))).pieceDone t 0))

/-- The graph runs (R263, R265, R266): a TASK's walks begin in every cluster of its set; COND and WHILE choose a successor once nothing
runs; JOIN passes on with its last arrival; END ends the graph. A TASK activated again before its instances have completed fails the
launch, as a second END does. -/
def Obligations.GraphEvents : Prop :=
  (∀ (s : State) (l : Launch) (w : List Word), s.pendingNode 0 = some (l, w) → (l.node s.ev.node).live = 0 →
    let set := if nMask w (lrNf l.recd - 1) then lrSet l.recd else [lrHome l.recd]
    Gives .taskNodeActivate s fun t =>
      t.launch? l.num = some (l.setNode s.ev.node { l.node s.ev.node with opened := true, live := instTotal l.recd w }) ∧
      (∀ c ∈ set, ⟨l.num, s.ev.node, 0⟩ ∈ (t.cluster c).walk) ∧ (∀ c, c ∉ set → t.cluster c = s.cluster c) ∧
      t.cores = s.cores ∧ t.mem = s.mem) ∧
  (∀ (s : State) (l : Launch) (w : List Word), s.pendingNode 0 = some (l, w) → (l.node s.ev.node).live ≠ 0 →
    exec .taskNodeActivate s = .next (s.failLaunch l.num 0 0 0)) ∧
  (∀ (s : State) (l : Launch) (w : List Word) (b : Bool), s.pendingNode 1 = some (l, w) → l.liveCount = 0 →
    (s.nodeTest l w = .ok b ∨ nTest w ≤ 1 ∧ CwTest s l w b) →
    exec .condNodeActivate s = .next (s.setLaunch { l with pending := l.pending ++ [if b then nSucc0 w else nSucc1 w] })) ∧
  (∀ (s : State) (l : Launch) (w : List Word) (b : Bool), s.pendingNode 2 = some (l, w) → l.liveCount = 0 →
    (s.nodeTest l w = .ok b ∨ nTest w ≤ 1 ∧ CwTest s l w b) →
    let n := l.node s.ev.node
    (b = true → n.count < nCap w → exec .whileNodeActivate s = .next
      (s.setLaunch ((l.setNode s.ev.node { n with count := n.count + 1 }).activate (nSucc0 w)))) ∧
    (b = true → nCap w ≤ n.count → exec .whileNodeActivate s = .next
      (s.setLaunch (({ l with caphit := true }.setNode s.ev.node { n with count := 0 }).activate (nSucc1 w)))) ∧
    (b = false → exec .whileNodeActivate s = .next
      (s.setLaunch ((l.setNode s.ev.node { n with count := 0 }).activate (nSucc1 w))))) ∧
  (∀ (s : State) (l : Launch) (w : List Word), l.liveCount ≠ 0 →
    (s.pendingNode 1 = some (l, w) → exec .condNodeActivate s = .next s) ∧
    (s.pendingNode 2 = some (l, w) → exec .whileNodeActivate s = .next s)) ∧
  (∀ (s : State) (l : Launch) (w : List Word), s.pendingNode 3 = some (l, w) →
    let n := l.node s.ev.node
    (n.count + 1 < nPred w → exec .joinNodeActivate s = .next (s.setLaunch (l.setNode s.ev.node { n with count := n.count + 1 }))) ∧
    (nPred w ≤ n.count + 1 → exec .joinNodeActivate s = .next
      (s.setLaunch ((l.setNode s.ev.node { n with count := 0 }).activate (nSucc0 w))))) ∧
  (∀ (s : State) (l : Launch) (w : List Word), s.pendingNode 4 = some (l, w) →
    (l.ended = false → exec .endNodeActivate s = .next (s.setLaunch { l with ended := true })) ∧
    (l.ended = true → exec .endNodeActivate s = .next (s.failLaunch l.num 0 0 0)))

/-- The end of a launch and its budget (R279, R280, R362): status 1 once END has been reached and nothing runs, status 2 when it has
failed; a launch over its budget is held with its entries, its running tasks frozen at their next boundary, its record written once they
are saved; it continues with more, or is aborted, its transfers discarded, with status 5. The model's choices (log 28): statuses 2 and 5
wait until no task of the launch is bound, a graph with nothing left that never reached END ends with status 2, and a CLAIMED entry is
held too, its members' places given up; a task that froze for an error is not held over it. -/
def Obligations.LaunchEndEvents : Prop :=
  (∀ (s : State) (l : Launch), s.launch? s.ev.lnum = some l →
    let quiet := ∀ m ∈ s.boundOf l.num, (s.ctx m.1 m.2).frozen ≠ .none ∧ (s.ctx m.1 m.2).saveIn = none
    (s.vwaits (lrAsid l.recd) (lrCmpl l.recd) 64 .write = true → l.failed ≠ none ∨ l.aborted = true ∨ s.fatal l.num s.ev.flag = none →
      exec .completionRecord s = .next s) ∧
    (s.vwaits (lrAsid l.recd) (lrCmpl l.recd) 64 .write = false → (l.failed ≠ none ∨ l.aborted = true →
      (s.launchBusy l.num = false → s.boundOf l.num = [] →
        exec .completionRecord s = .next (s.finalRecord l (if l.aborted then 5 else 2))) ∧
      (s.launchBusy l.num = true ∨ s.boundOf l.num ≠ [] → exec .completionRecord s = .next s)) ∧
    (l.failed = none → l.aborted = false → s.fatal l.num s.ev.flag = none →
      (s.launchBusy l.num = true → exec .completionRecord s = .next s) ∧
      (s.launchBusy l.num = false →
        (l.due = true → quiet → exec .completionRecord s = .next (s.heldRecord l)) ∧
        (l.due = false → l.ended = true → l.liveCount = 0 → exec .completionRecord s = .next (s.finalRecord l 1)) ∧
        (l.due = false → l.ended = false → l.pending = [] → l.liveCount = 0 →
          exec .completionRecord s = .next ((s.setLaunch { l with failed := some (0, 0, 0) }).finalRecord
            { l with failed := some (0, 0, 0) } 2)) ∧
        (l.due = false → l.liveCount ≠ 0 → exec .completionRecord s = .next s))))) ∧
  (∀ (s : State) (l : Launch), s.launch? s.ev.lnum = some l →
    (l.held = false → l.failed = none → s.overBudget l = true →
      Gives .launchHold s fun t => t.launch? l.num = some { l with held := true, due := true } ∧
        (∀ q ∈ s.entriesOf l.num, q.2.st = .ready ∨ q.2.st = .claimed → (t.entry q.1).st = .held) ∧
        ∀ m ∈ s.boundOf l.num, let c := s.ctx m.1 m.2
          c.bound = true →
          (∀ q ∈ s.entriesOf l.num, q.2.st = .claimed → ∀ e ∈ s.slotsOf q.1, (slotCore e.1 e.2, slotCtx e.2) ≠ m) →
          (c.frozen = .none → c.run = none → (t.ctx m.1 m.2).frozen = .hold ∧
            ∃ k, k ≤ 1 ∧ (t.ctx m.1 m.2).boundary = (s.die (dieOf m.1)).scc.toNat + k ∧ (t.ctx m.1 m.2).saveIn = some (32 + k)) ∧
          (c.frozen = .none → c.run ≠ none → t.ctx m.1 m.2 = { c with wantF := some .hold }) ∧
          (c.frozen ≠ .none → t.ctx m.1 m.2 = if c.mayHold then { c with frozen := .hold } else c)) ∧
    (s.overBudget l = false → exec .launchHold s = .next s)) ∧
  (∀ (s : State) (l : Launch), s.launch? s.ev.lnum = some l → l.held = true →
    Gives .launchContinue s fun t =>
      t.launch? l.num = some { l with held := false, budget := l.budget + (s.subq s.ev.queue).lbud } ∧
      (∀ q ∈ s.entriesOf l.num, q.2.st = .held → (t.entry q.1).st = .ready ∧ (t.entry q.1).enq = s.wcc.toNat) ∧
      (∀ core x, t.ctx core x =
        if (core, x) ∈ s.boundOf l.num then (s.ctx core x).unheld (!(s.die (dieOf core)).awake) else s.ctx core x) ∧
      ∀ a, (∀ q ∈ s.entriesOf l.num, a < s.queueAddr q.1 ∨ s.queueAddr q.1 + 64 ≤ a) → t.mem.read a = s.mem.read a) ∧
  (∀ (s : State) (l : Launch), s.launch? s.ev.lnum = some l → l.held = true →
    (∀ e ∈ s.cores, ∀ t ∈ e.2.xfers, t.core = e.1) →
    Gives .launchAbort s fun t =>
      (∃ m, t.launch? l.num = some m ∧ m.aborted = true ∧ m.held = false ∧ m.due = false ∧ m.pending = []) ∧
      (∀ core, ∀ x ∈ (t.core core).xfers, (x.taskid.extractLsb' 32 32).toNat = l.num →
        x.phase = .waiting ∧ x.err = none ∧ x.dst = none ∧ x.out = [] ∧ x.commit = []) ∧
      ∀ q ∈ s.entriesOf l.num, q.2.st ≠ .bound → (t.entry q.1).st = .free) ∧
  (∀ s : State, (∀ l, s.launch? s.ev.lnum = some l → l.held = false) →
    exec .launchContinue s = .next s ∧ exec .launchAbort s = .next s)

/-- Enumeration and stealing (R267, R268, R271, R272): the next instance of a walk takes a free entry of the queue; a walk with no instance
left ends; a thief takes half of the stealable entries of the peer that has the most, rounded up, by ascending ENQ, each marked STEALING,
its copy written and its original freed; a gang at the head for 1 ms reserves its home die, of several the first of the order in which
entries bind. The model's choices: that the entry taken is the lowest free one, and how an entry's words stand (log 29), in a place that
Vizin chose (log 4), and that the home die of a launch is its home cluster's (log 30). -/
def Obligations.QueueEvents : Prop :=
  (∀ (s : State) (w : Walk) (rest : List Walk),
    let c := s.ev.cluster
    (s.cluster c).walk = w :: rest →
    (s.walkNext c w = none → exec .instanceEnqueue s = .next (s.setCluster c { s.cluster c with walk := rest })) ∧
    (∀ l n j i, s.walkNext c w = some (l, n, j) → s.freeEntry c = some i →
      Gives .instanceEnqueue s fun t =>
        let e := t.entry (c, i)
        e.st = .ready ∧ e.wid = instWid l.recd n j ∧ e.lnum = l.num ∧ e.node = w.node ∧ e.prio = lrPrio l.recd ∧
        e.gang = nGang n ∧ e.vbnd = nVbnd n ∧ e.prot = nProt n ∧ e.enq = s.wcc.toNat ∧ e.gen = (s.entry (c, i)).gen + 1 ∧
        (t.cluster c).walk = { w with next := j + 1 } :: rest ∧ (∀ k, k ≠ i → t.entry (c, k) = s.entry (c, k)) ∧
        t.mem = s.mem.write (s.queueAddr (c, i)) (bytesOf e.words) ∧ t.cores = s.cores) ∧
    (s.freeEntry c = none → s.walkNext c w ≠ none → exec .instanceEnqueue s = .next s)) ∧
  (∀ (s : State) (k i : Nat) (p : Nat × QueueEntry),
    let c := s.ev.cluster
    s.cmcIdle c = true → k / numClusters = c / numClusters → k ≠ c → s.stealable k = [p] →
    (∀ j, j / numClusters = c / numClusters → j ≠ c → j ≠ k → s.stealable j = []) → s.freeEntry c = some i →
    exec .workSteal s = .next (((s.setEntry (k, p.1) { p.2 with st := .stealing, owner := c % numClusters }).setEntry (c, i)
      { p.2 with gen := 0, owner := 0, head := none }).setEntry (k, p.1) { p.2 with st := .free, owner := c % numClusters })) ∧
  (∀ (s : State) (k : Nat),
    let c := s.ev.cluster
    let l := s.stealable k
    s.cmcIdle c = true → k / numClusters = c / numClusters → k ≠ c → l ≠ [] → (l.map Prod.fst).Nodup →
    (∀ j, j / numClusters = c / numClusters → j ≠ c → j ≠ k → (s.stealable j).length < l.length) →
    (l.length + 1) / 2 ≤ ((List.range queueSize).filter fun i => (s.entry (c, i)).st == .free).length →
    Gives .workSteal s fun t => ∃ m : List (Nat × QueueEntry), m.length = (l.length + 1) / 2 ∧ m.Nodup ∧ (∀ p ∈ m, p ∈ l) ∧
      (∀ p ∈ m, ∀ q ∈ l, q ∉ m → p.2.enq ≤ q.2.enq) ∧
      (∀ p ∈ m, (t.entry (k, p.1)).st = .free ∧ ∃ i, (s.entry (c, i)).st = .free ∧
        t.entry (c, i) = { p.2 with gen := (s.entry (c, i)).gen + 1, owner := 0, head := none }) ∧
      ∀ q ∈ l, q ∉ m → t.entry (k, q.1) = s.entry (k, q.1)) ∧
  (∀ s : State, s.cmcIdle s.ev.cluster = false → exec .workSteal s = .next s) ∧
  (∀ (s : State) (p : Nat × QueueEntry) (l : Launch) (since : Nat),
    let c := s.ev.cluster
    let u := s.noteHead c
    let d := lrHome l.recd / numClusters
    (u.bindOrder c).head? = some p → u.launch? p.2.lnum = some l → p.2.head = some since → p.2.gang = true →
    (u.die d).reserved = none → u.places c (c, p.1) p.2 = none →
    (since + 600000 ≤ s.wcc.toNat →
      (∀ k ∈ u.clusters, k.1 ≠ c → ∀ v, u.wantsDie k.1 = some v → v.1 = d → u.takenBefore v.2 p = false) →
      exec .gangReserve s = .next (u.setDie d { u.die d with reserved := some (c, p.1) })) ∧
    (∀ k ∈ u.clusters, k.1 ≠ c → ∀ v, u.wantsDie k.1 = some v → v.1 = d → u.takenBefore v.2 p = true → u.takenBefore p v.2 = false →
      exec .gangReserve s = .next u) ∧
    (s.wcc.toNat < since + 600000 → exec .gangReserve s = .next u))

/-- Binding and dispatch (R270, R273, R276): the first of the order that has a place is bound; GO loads; a bind record that fails a
check is refused, its entry tried again or its launch failed; a context starts at its start SCC. The model's choices: of several failed
checks the least number is the reason (log 29), what a record loads from a die at retention is waited for (log 29), a context that
starts at its start SCC takes its core then (log 13), and which places fit an entry (log 30).

The end of a task (R121): once nothing of it is in flight its context is free, its energy is its launch's, and the last member's
entry is free; an untaken transfer error traps at its TEND. -/
def Obligations.DispatchEvents : Prop :=
  ((∀ (s : State) (p : Nat × QueueEntry) (l : List (Nat × Fin 4)),
    let c := s.ev.cluster
    let u := s.noteHead c
    (u.bindOrder c).all (fun q => !u.gangLost q.2) = true → (u.bindOrder c).head? = some p → u.places c (c, p.1) p.2 = some l →
    exec .instanceBind s = .next (u.bindEntry (c, p.1) p.2 l)) ∧
  (∀ (s : State) (p : Nat × QueueEntry) (l : Launch) (core : Nat) (x : Fin 4) (pa : Nat),
    let c := s.ev.cluster
    let u := s.noteHead c
    (u.bindOrder c).all (fun q => !u.gangLost q.2) = true → (u.bindOrder c).head? = some p → p.2.gang = false → p.2.home = [] →
    u.launch? p.2.lnum = some l → u.places c (c, p.1) p.2 = some [(core, x)] →
    InPage u.settle (lrAsid l.recd) (lrCode l.recd + 4096 * (nPc (gNode l.graph p.2.node) / 4096)) 4096 .code pa →
    Gives .instanceBind s fun t => (t.entry (c, p.1)).st = .claimed ∧
      (t.slot (clusterIndex core) (entryOf core x)).entry = some (c, p.1)) ∧
  (∀ s : State,
    let sl := s.slot s.ev.cluster s.ev.entry
    (s.power.s3 ≠ .none → exec .dispatchGo s = .next s) ∧
    (s.power.s3 = .none → (sl.dst = .empty ∨ sl.dst = .ended ∨ sl.dst = .refused) →
      exec .dispatchGo s = .next (s.setSlot s.ev.cluster s.ev.entry
        { sl with dst := .loading, reason := 0, goScc := (s.die (s.ev.cluster / numClusters)).scc.toNat })) ∧
    ((sl.dst = .loading ∨ sl.dst = .running ∨ sl.dst = .waitstart ∨ sl.dst = .frozen) → exec .dispatchGo s = .next s)) ∧
  (∀ (s : State) (q : Nat × Nat),
    let c := s.ev.cluster
    let e := s.ev.entry
    let sl := s.slot c e
    let u := s.settle
    s.power.s3 = .none → sl.dst = .loading → sl.goScc + 24 ≤ (s.die (c / numClusters)).scc.toNat → sl.entry = some q → (s.entry q).st = .claimed →
    (u.loadWaits (u.slotBind c e) = true → exec .loadingEnd s = .next u) ∧
    (∀ n, u.loadWaits (u.slotBind c e) = false → u.dispatch c e = .inl n →
      let v := (u.setSlot c e { sl with dst := .refused, reason := n, entry := none }).unclaim q
      let w := if (s.entry q).gang then v.setSlot c e { v.slot c e with dst := .empty } else v
      (n ∈ [3, 6, 7, 9] → exec .loadingEnd s = .next (w.setEntry q { s.entry q with st := .ready, live := 0 })) ∧
      (n ∉ [3, 6, 7, 9] → exec .loadingEnd s = .next
        (w.failLaunch (s.entry q).lnum 0 (u.slotBind c e).wid (u.slotBind c e).taskid))) ∧
    (∀ t, u.loadWaits (u.slotBind c e) = false → (u.dispatch c e = .inr t ∨ DispatchOk u c e ∧ t = dispatched u c e) →
      let w := (t.setSlot c e { sl with dst := .waitstart }).memberBound q (slotCore c e) (slotCtx e)
      let l := w.launch? (w.ctx (slotCore c e) (slotCtx e)).bind.lnum
      ((∀ m, l = some m → m.ckpt.busy = none) → exec .loadingEnd s = .next w) ∧
      (∀ m, l = some m → m.ckpt.busy ≠ none → exec .loadingEnd s = .next (w.wantFreeze (slotCore c e) (slotCtx e) .park)))) ∧
  (∀ (s : State) (c e : Nat),
    let b := s.slotBind c e
    (∀ n, s.dispatch c e = .inl n → 1 ≤ n ∧ n ≤ 10) ∧
    (b.wins.toList.all Win.ok = false → s.dispatch c e = .inl 1) ∧
    (b.wins.toList.all Win.ok = true → b.lres.toList.all (lresOk (c % numClusters) (s.boundBinds (c / numClusters))) = false →
      s.dispatch c e = .inl 2) ∧
    (∀ t, b.rsm = false → b.dlen = 0 → s.dispatch c e = .inr t → DispatchOk s c e ∧ t = dispatched s c e)) ∧
  (∀ s : State,
    let c := s.ev.cluster
    let e := s.ev.entry
    let sl := s.slot c e
    let core := slotCore c e
    let k := s.ctx core (slotCtx e)
    let scc := (s.die (c / numClusters)).scc
    let r := (s.core core).setCtx (slotCtx e) { k with started := true, boundAt := s.wcc.toNat }
    (s.runs (c / numClusters) = true → (s.core core).did.getLsbD 0 = false → sl.dst = .waitstart → k.bound = true →
      k.bind.startscc.toNat ≤ scc.toNat →
      exec .firstIssue s = .next ((s.setCore core (if k.bind.startscc ≠ 0 ∧ k.bind.startscc = scc then r.claim (slotCtx e) else r)).setSlot c e
        { sl with dst := .running })) ∧
    (s.runs (c / numClusters) = false ∨ (s.core core).did.getLsbD 0 = true ∨ scc.toNat < k.bind.startscc.toNat →
      exec .firstIssue s = .next s))) ∧
  (∀ (s : State) (slot : Nat),
    let core := s.ev.core
    let x := ctxNo s.ev.ctx
    let c := s.ctx core x
    c.ended = some slot → c.bound = true → c.frozen = .none → c.report = none → s.taskDone core x = true →
    let err := (s.core core).taskError x.val c.sys.wid c.sys.taskid
    (∀ r, err = some r →
      exec .taskComplete s = .next (s.setCtx core x { c with ended := none, report := some { r.trap with slot := some slot } })) ∧
    (∀ q, err = none → (s.slot (clusterIndex core) (entryOf core x)).entry = some q → (s.entry q).live = 1 →
      Gives .taskComplete s fun t =>
        (t.ctx core x).bound = false ∧ (t.entry q).st = .free ∧ (t.slot (clusterIndex core) (entryOf core x)).dst = .ended ∧
        (t.slot (clusterIndex core) (entryOf core x)).entry = none ∧
        (∀ a, (a < s.queueAddr q ∨ s.queueAddr q + 64 ≤ a) → t.mem.read a = s.mem.read a) ∧
        (∀ h ∈ t.kept, ¬ (h.wid = c.sys.wid ∧ h.taskid = c.sys.taskid)) ∧
        ∀ l, s.launch? (fld c.sys.taskid 32 32) = some l → ∃ m, t.launch? l.num = some m ∧ m.spent = l.spent + c.sys.ecnt.toNat) ∧
    (err = none → (s.slot (clusterIndex core) (entryOf core x)).entry = none →
      Gives .taskComplete s fun t => (t.ctx core x).bound = false ∧ t.mem = s.mem))

/-! ### Power -/

/-- Supply and parking (R367, R369, R371, R373, R374, R439): the gauge recharges while the input is at 46.0 V or above, by at least
RESCAP / 90,000 in 1 ms, not before the seal and never above RESCAP; S1 holds, S2 sheds one die at a time in the order of SHORD, and a
park freezes the die's contexts, cuts its transfers and keeps its chests; what a retained die turns away goes out again in its next round,
up to the limit. The model's choices: how hold clk are counted (log 32), when a die is still, the form of its chest image and how a die
that SHORD no longer names unparks (log 33), and how a transfer of this module counts its rounds (logs 33, 48). -/
def Obligations.SupplyEvents : Prop :=
  (∀ s : State,
    let p := s.power
    let up := s.ev.flag = true ∧ p.s3 ≠ .quiesce ∧ p.s3 ≠ .drain
    Gives .reserveGaugeUpdate s fun t =>
      (up → t.power.reserve = min p.rescap (p.reserve + max s.ev.count ((p.rescap + 89999) / 90000))) ∧
      (¬ up → t.power.reserve = p.reserve - s.ev.index) ∧ (p.reserve ≤ p.rescap → t.power.reserve ≤ p.rescap) ∧
      t.power.rescap = p.rescap ∧ t.mem = s.mem ∧ t.cores = s.cores) ∧
  (∀ s : State,
    (s.power.st ≤ 2 → s.power.s3 = .none → Gives .powerLimitExceeded s fun t =>
      t.power.st = max 1 s.power.st ∧ (∀ d < numDies, (t.die d).hold = min 56 (s.ev.nats.getD d 0)) ∧
      t.mem = s.mem ∧ t.cores = s.cores) ∧
    (3 ≤ s.power.st → exec .powerLimitExceeded s = .next s)) ∧
  (∀ s : State,
    (s.power.st = 1 → Gives .s1Exit s fun t =>
      t.power.st = 0 ∧ (∀ d < numDies, (t.die d).hold = 0) ∧ t.mem = s.mem ∧ t.cores = s.cores) ∧
    (s.power.st ≠ 1 → exec .s1Exit s = .next s)) ∧
  (∀ s : State, s.power.st ≤ 1 → s.power.s3 = .none → s.graceDies = [] → s.parkedDies = [] → 0 < s.power.shedN →
    (s.die (s.power.shed 0)).awake = true →
    Gives .undervoltageSag s fun t =>
      t.power.st = 2 ∧ t.power.s2s = s.power.s2s ++ [s.wcc.toNat] ∧ (t.die (s.power.shed 0)).park = .grace ∧ t.mem = s.mem ∧
      ∀ (core : Nat) (x : Fin 4), dieOf core = s.power.shed 0 → (s.ctx core x).bound = true → (s.ctx core x).frozen = .none →
        (s.ctx core x).run = none →
        t.ctx core x = frozenCtx (s.ctx core x) (s.die (dieOf core)).scc ((s.core core).boundaryOff x) .park) ∧
  (∀ s : State,
    (∀ i, s.power.st = 2 → s.graceDies = [] → s.parkedDies.length < s.power.shedN → i < s.power.shedN →
      (s.die (s.power.shed i)).awake = true → (∀ j < i, (s.die (s.power.shed j)).awake = false) →
      exec .parkNextDie s = .next (s.parkDie (s.power.shed i))) ∧
    ((s.power.st ≠ 2 ∨ s.graceDies ≠ [] ∨ s.power.shedN ≤ s.parkedDies.length) → exec .parkNextDie s = .next s)) ∧
  (∀ s : State,
    let d := s.ev.die
    (((s.die d).park ≠ .grace ∨ s.dieStill d = false) → exec .parkGraceExpiry s = .next s) ∧
    ((s.die d).park = .grace → s.dieStill d = true → (∀ c ∈ s.coresOn d, (s.core c).xfers = []) →
      exec .parkGraceExpiry s = .next (({ s with
        mem := (s.coresOn d).foldl (fun (m : Memory) c => m.write (parkArea c) (s.core c).parkImage) s.mem }).setDie d
          { s.die d with park := .retained })) ∧
    ((s.die d).park = .grace → s.dieStill d = true →
      (∀ c ∈ s.coresOn d, ∀ u ∈ (s.core c).xfers, u.core = c ∧ s.mayComplete u = false) →
      Gives .parkGraceExpiry s fun t => (t.die d).park = .retained ∧
        ∀ c ∈ s.coresOn d, (∀ u ∈ (t.core c).xfers, u.cut = true) ∧ (t.core c).xfers.length = (s.core c).xfers.length)) ∧
  (∀ s : State,
    (s.power.st = 2 → Gives .supplyRecovery s fun t =>
      t.power.st = (if (List.range numDies).any (fun d => (s.die d).hold != 0) then 1 else 0) ∧ t.mem = s.mem ∧ t.cores = s.cores) ∧
    (s.power.st ≠ 2 → exec .supplyRecovery s = .next s)) ∧
  (∀ s : State,
    let ok := s.power.st ≤ 1 ∧ s.power.s3 = .none ∧ s.graceDies = [] ∧ s.unparkNext = some s.ev.die
    let u := s.unpark s.ev.die
    let resuming := ∃ m ∈ u.boundOn s.ev.die, (u.ctx m.1 m.2).resumeIn ≠ none
    (ok → exec .unparkDie s = .next u ∧ (resuming → (u.die s.ev.die).park = .unparking) ∧
      (¬ resuming → (u.die s.ev.die).park = .none)) ∧
    (¬ ok → exec .unparkDie s = .next s)) ∧
  (∀ (s : State) (t : Xfer), s.sentFor s.ev.packet (fun _ => true) = none → (s.core s.ev.packet.core).xfer? s.ev.packet.x = some t →
    t.round ≠ 0 → t.cut = false → isColl t.op = false →
    (s.waitedOut (t.round + 1) = false → exec .retainedWait s = .next (s.updXfer { t with round := t.round + 1 })) ∧
    (s.waitedOut (t.round + 1) = true → exec .retainedWait s = .next (s.failAt t 0x282 t.waitAt))) ∧
  (∀ (s : State) (t : Xfer), s.sentFor s.ev.packet (fun _ => true) = none → (s.core s.ev.packet.core).xfer? s.ev.packet.x = some t →
    t.round ≠ 0 → t.cut = false → isColl t.op = true → exec .retainedWait s = .next (s.updXfer { t with round := 0 })) ∧
  (∀ (s : State) (e : Sent), s.sentFor s.ev.packet (fun _ => true) = some e →
    let n := fld (wordAt s.ev.packet.ops 0) 0 20 + 1
    (e.pkt.type = 4 → exec .retainedWait s = .next ((s.pauseFor e.pkt).nextRound e n)) ∧
    (e.pkt.type ≠ 4 → s.waitedOut n = true → exec .retainedWait s = .next ((s.answered e).refused e 0x282)) ∧
    (e.pkt.type ≠ 4 → s.waitedOut n = false → exec .retainedWait s = .next (s.nextRound e n)))

/-- Hibernation and restart (R369, R375, R377, R381, R388): each trigger of S3 is recorded and freezes every die; nothing is served after
the quiesce; a restart waits for the reserve, runs a pending scrub first, restores a valid manifest, and without one is a cold start. That the link
endpoints, the directory and the host lines are dropped at the seal is the model's reading (log 34). -/
def Obligations.HibernationEvents : Prop :=
  (∀ (s : State) (i : Instr) (n : Nat),
    (i = .pfwNAssert ∧ n = 1) ∨ (i = .undervoltageTrip ∧ n = 2) ∨
      (i = .shedExhausted ∧ n = 3 ∧ s.power.st = 2 ∧ s.power.shedN ≤ s.parkedDies.length) → s.power.s3 = .none →
    Gives i s fun t =>
      t.power.st = 3 ∧ t.power.s3 = .quiesce ∧ t.power.trig = n ∧ t.power.wccTrig = s.wcc.toNat ∧
      t.power.resTrig = s.power.reserve ∧ t.power.s3s = s.power.s3s ++ [s.wcc.toNat] ∧ t.mem = s.mem ∧
      (∀ l ∈ t.launches, l.ckpt.busy = none ∧ l.ckpt.asked = none) ∧
      ∀ (core : Nat) (x : Fin 4), core < moduleCores → (s.ctx core x).bound = true → (s.ctx core x).frozen = .none →
        (s.ctx core x).run = none →
        t.ctx core x = frozenCtx (s.ctx core x) (s.die (dieOf core)).scc ((s.core core).boundaryOff x) .park) ∧
  (∀ s : State, s.power.s3 ≠ .none →
    exec .pfwNAssert s = .next { s with power := { s.power with pfw := true, pfws := s.power.pfws ++ [s.wcc.toNat] } } ∧
    exec .undervoltageTrip s = .next { s with power := { s.power with uv := true } } ∧ exec .shedExhausted s = .next s) ∧
  (∀ s : State, (s.power.st ≠ 2 ∨ s.parkedDies.length < s.power.shedN) → exec .shedExhausted s = .next s) ∧
  (∀ s : State,
    (s.power.s3 = .quiesce → (∀ d < numDies, s.dieStill d = true) →
      Gives .quiesceEnd s fun t => t.power.s3 = .closed ∧ t.sents = [] ∧ t.recvs = [] ∧ t.rts = [] ∧ t.directory = [] ∧
        t.hostLines = [] ∧ (∀ p < 18, (t.port p).st = 0) ∧
        (s.ten.pend = true → (∀ e ∈ s.cores, (s.core e.1).xfers = []) → t.mem = s.mem)) ∧
    ((s.power.s3 ≠ .quiesce ∨ ∃ d < numDies, s.dieStill d = false) → exec .quiesceEnd s = .next s)) ∧
  (∀ s : State,
    ((s.power.s3 ≠ .closed ∨ s.power.reserve < s.hibMin) → exec .restart s = .next s) ∧
    (s.power.s3 = .closed → s.hibMin ≤ s.power.reserve →
      (s.ten.pend = true → exec .restart s = .next (s.backToS0.freshDies.scrub s.ev.nats)) ∧
      (s.ten.pend = false → s.manifest = none → exec .restart s = .next
        { s.moduleReset with power := { s.moduleReset.power with unrestored := true } }) ∧
      (∀ k m, s.ten.pend = false → s.manifest = some (k, m) → exec .restart s = .next (s.backToS0.restore m))))

/-! ### Tenancy -/

/-- Tenancy (R66, R386 to R393, R395, R396, R404): attestation, firmware, the scrub, the bench test, RISK, the checkpoint protocol and the
acceptance of a restored state. The model's choices: the order of the conditions of the scrub and of the bench test, the bench test's
subject and that it aborts when the reserve cannot give the 800,000 mJ of item 6 and keep 60,000 (logs 35, 36), the report's place and the
numbers of the interrupt vectors (logs 35, 67), and the form of a restore digest and of the answers to it (log 37).

Registers and module reset (R262, R367, R389, R407): Vizin's registers take Vizin's writes and the host's the host's, a value that is
not allowed is ignored, and module reset keeps SCM and no other memory. -/
def Obligations.TenancyEvents : Prop :=
  ((∀ s : State,
    (s.ten.attgo = true → exec .attestationRequest s = .next s) ∧
    (s.ten.attgo = false → s.ten.go = true →
      exec .attestationRequest s = .next { s with ten := { s.ten with attgo := true, attdone := false } }) ∧
    (s.ten.attgo = false → s.ten.go = false → Gives .attestationRequest s fun t =>
      t.ten = { s.ten with attdone := true } ∧ t.cores = s.cores ∧ t.msix = s.msix ++ [66] ∧
      let a := hostAddr + s.ten.attbuf / 64 * 64
      (s.hostLines = [] →
        (∀ i, i < s.report.length → hostByte t (a + i) = s.report.getD i 0) ∧
        ∀ b, b < a ∨ a + s.report.length ≤ b → hostByte t b = s.mem.read b))) ∧
  (∀ s : State,
    let ok := s.ev.flag = true ∧ 1 ≤ s.ev.index ∧ s.ev.index ≤ 6 ∧ s.ten.versions.getD (s.ev.index - 1) 0 ≤ s.ev.count
    (ok → exec .firmwareInstall s = .next { s with ten := { s.ten with
      newImages := Table.put s.ten.newImages (s.ev.index - 1) s.ev.bytes
      versions := s.ten.versions.set (s.ev.index - 1) s.ev.count } }) ∧
    (¬ ok → exec .firmwareInstall s = .next s)) ∧
  (∀ s : State,
    (s.ten.go = true → exec .tenantScrub s = .next s) ∧
    (s.ten.go = false → s.ten.benchgo = true → exec .tenantScrub s = .next { s with ten := { s.ten with err := 1 } }) ∧
    (s.ten.go = false → s.ten.benchgo = false → s.power.s3 ≠ .none →
      exec .tenantScrub s = .next { s with ten := { s.ten with go := true, pend := true, phase := 1 } }) ∧
    (s.ten.go = false → s.ten.benchgo = false → s.power.s3 = .none → s.ten.attgo = false → Gives .tenantScrub s fun t =>
      (∀ a, placeOf a ≠ .host → t.mem.read a = 0) ∧ (∀ (core : Nat) (x : Fin 4), t.ctx core x = {}) ∧
      (∀ core < moduleCores, (t.core core).tiles = Vector.replicate 8 Tile.zero ∧ (t.core core).xfers = [] ∧
        (t.core core).shadow = NestTab.zero ∧ (t.core core).active = NestTab.zero ∧ (t.core core).istore = (s.core core).istore) ∧
      t.launches = [] ∧ t.clusters = [] ∧ t.seedlog = [] ∧ t.hiblist = [] ∧ (∀ g, (t.group g).v = false) ∧
      t.ten.go = false ∧ t.ten.pend = false ∧ t.ten.used = false ∧ t.ten.count = s.ten.count + 1)) ∧
  (∀ s : State,
    (s.ten.benchgo = false → s.ten.used = false → s.ten.go = false → s.power.st = 0 → exec .benchTest s = .next
      { s with ten := { s.ten with benchgo := true, benchdone := false, benchabort := false } }) ∧
    (s.ten.benchgo = false → (s.ten.used = true ∨ s.ten.go = true ∨ s.power.st ≠ 0) → exec .benchTest s = .next s) ∧
    (s.ten.benchgo = true → (s.power.reserve < 860000 ∨ s.power.st ≠ 0) → exec .benchTest s = .next
      { s with ten := { s.ten with benchgo := false, benchabort := true }, msix := s.msix ++ [67] }) ∧
    (s.ten.benchgo = true → 860000 ≤ s.power.reserve → s.power.st = 0 → Gives .benchTest s fun t =>
      t.ten.benchgo = false ∧ t.ten.benchdone = true ∧ t.power.rescap = s.ev.bench.rescap ∧
      t.ten.err = (if s.ev.bench.rows7 = [] then s.ten.err else 2) ∧ t.ten.lanes = s.ten.lanes ++ s.ev.bench.lanes ∧
      t.power.reserve = min s.ev.bench.rescap s.power.reserve ∧
      ∀ p ∈ benchFails (s.benchFound s.ev.bench), (t.pair p).quar = true ∧ (t.pair p).score = 255)) ∧
  (∀ s : State, Gives .riskUpdate s fun t => t.mem = s.mem ∧ t.cores = s.cores ∧ t.ten.risk.toNat = min 65535
    (4096 * s.within 86400 s.power.pfws + 1024 * s.within 86400 s.power.s2s + (if s.power.reserve < s.hibMin then 8192 else 0)
      + 512 * (s.pairs.filter fun p => decide (64 ≤ p.2.score)).length + min 8192 (16 * s.hourErrors) + 256 * s.ev.count)) ∧
  (∀ (s : State) (l : Launch), s.launch? s.ev.lnum = some l →
    (∀ u, l.ckpt.pol.getLsbD 63 = true → l.held = false → l.failed = none → l.waiting = false → l.ckpt.asked = none →
      l.ckpt.busy = none → s.ckptDue l = true →
      s.vwrite (lrAsid l.recd) (condAddr l 255) (leBytes 8 (l.ckpt.n + 1)) = .ok u →
      exec .checkpointDue s = .next (u.setLaunch { l with ckpt := { l.ckpt with n := l.ckpt.n + 1, asked := some u.wcc.toNat } })) ∧
    (∀ pa, l.ckpt.pol.getLsbD 63 = true → l.held = false → l.failed = none → l.waiting = false → l.ckpt.asked = none →
      l.ckpt.busy = none → s.ckptDue l = true → InPage s (lrAsid l.recd) (condAddr l 255) 8 .write pa →
      exec .checkpointDue s = .next (({ s.settle with mem := s.portMem.write pa (leBytes 8 (l.ckpt.n + 1)) }).setLaunch
        { l with ckpt := { l.ckpt with n := l.ckpt.n + 1, asked := some s.wcc.toNat } })) ∧
    (s.ckptDue l = false → exec .checkpointDue s = .next s) ∧
    (∀ w pa, l.ckpt.busy = none → l.ckpt.asked ≠ none → s.power.s3 = .none →
      (s.vwords (lrAsid l.recd) (condAddr l 254) 1 = .ok [w] ∨
        InPage s (lrAsid l.recd) (condAddr l 254) 8 .read pa ∧ w = s.portMem.word pa) →
      (fld w 32 32 ≠ l.ckpt.n → exec .checkpointAck s = .next s) ∧
      (fld w 32 32 = l.ckpt.n → Gives .checkpointAck s fun t =>
        t.launch? l.num = some { l with ckpt := { l.ckpt with asked := none, busy := some w } } ∧ t.mem = s.mem ∧
        ∀ m ∈ s.boundOf l.num, (s.ctx m.1 m.2).bound = true → (s.ctx m.1 m.2).run = none → (s.ctx m.1 m.2).frozen = .none →
          t.ctx m.1 m.2 = frozenCtx (s.ctx m.1 m.2) (s.die (dieOf m.1)).scc ((s.core m.1).boundaryOff m.2) .park)) ∧
    (∀ n, l.ckpt.asked = some n →
      (s.wcc.toNat < n + 60 * second → exec .checkpointWithdraw s = .next s) ∧
      (∀ u, n + 60 * second ≤ s.wcc.toNat → s.vwrite (lrAsid l.recd) (condAddr l 255) (leBytes 8 0) = .ok u →
        exec .checkpointWithdraw s = .next (u.setLaunch { l with ckpt := { l.ckpt with asked := none, missed := l.ckpt.missed + 1 } })) ∧
      (∀ pa, n + 60 * second ≤ s.wcc.toNat → InPage s (lrAsid l.recd) (condAddr l 255) 8 .write pa →
        exec .checkpointWithdraw s = .next (({ s.settle with mem := s.portMem.write pa (leBytes 8 0) }).setLaunch
          { l with ckpt := { l.ckpt with asked := none, missed := l.ckpt.missed + 1 } })))) ∧
  (∀ (s : State) (c : RestoreCheck) (l : Launch), s.ten.digests = [c] → s.launch? c.lnum = some l →
    let p := s.ev.packet
    let tag := wordAt p.ops 0
    let u := s.keep p p
    let d := { c with peers := c.peers - 1 }
    (p.type = 38 → s.seen p = none → p.x.id ≠ 0 → lrAsid l.recd = p.asid →
      (tag = c.tag → packetDigest p = c.digest → exec .restoreDigest s = .next (u.acceptRestored c)) ∧
      (c.tag.toNat < tag.toNat → exec .restoreDigest s = .next u) ∧
      (tag = c.tag → packetDigest p ≠ c.digest → 1 < c.peers → c.copying = false →
        exec .restoreDigest s = .next (u.setCheck { d with other := packetDigest p })) ∧
      (tag = c.tag → packetDigest p ≠ c.digest → c.peers ≤ 1 →
        exec .restoreDigest s = .next (u.setCheck { d with other := packetDigest p, copying := true })) ∧
      (tag.toNat < c.tag.toNat → 1 < c.peers ∨ c.other = [] → c.copying = false → exec .restoreDigest s = .next (u.setCheck d))) ∧
    (p.type ≠ 38 → s.ev.lnum = c.lnum → c.copying = true → exec .restoreDigest s = .next (s.copyRestored c s.ev.bytes)) ∧
    (s.wcc.toNat < c.asked + 10 * second → exec .restoreTimeout s = .next s) ∧
    (c.asked + 10 * second ≤ s.wcc.toNat → c.other = [] → exec .restoreTimeout s = .next
      { s.acceptRestored c with ten := { (s.acceptRestored c).ten with unver := true } }) ∧
    (c.asked + 10 * second ≤ s.wcc.toNat → c.other ≠ [] → exec .restoreTimeout s = .next (s.setCheck { c with copying := true }))) ∧
  (∀ (s : State) (k : Nat) (m : Manifest) (l : Launch),
    let p := s.ev.packet
    p.type = 38 → s.seen p = none → p.x.id = 0 → s.manifest = some (k, m) → s.launches.find? (fun l => lrAsid l.recd == p.asid) = some l →
    exec .restoreDigest s = .next ((s.keep p p).sendOr
      (s.digestPacket p.smod p.asid 1 m.tag (digestOf m.tag (m.payloads (s.launchOwned m l.num)))))) ∧
  (∀ s : State, s.ev.packet.type = 38 → (s.seen s.ev.packet).isSome = true → exec .restoreDigest s = .next s) ∧
  (∀ s : State, s.ten.digests = [] → exec .restoreTimeout s = .next s) ∧
  (∀ s : State, exec .entropyHealthTest s = .next { s with entropyBad := s.ev.flag }) ∧
  (∀ (s : State) (t : Xfer), s.evXfer = some t → (t.op matches .xckpt _ _ _ _) = true → s.working t = true → t.pieces.contains 0 = false →
    (s.power.s3 = .none → s.regionRetained (litOpt t.lit % 16) = none →
      exec .checkpointWrite s = .next ((s.checkpoint (litOpt t.lit % 16) (wordAt t.args 0)).pieceDone t 0)) ∧
    (∀ va, s.power.s3 = .none → s.regionRetained (litOpt t.lit % 16) = some va →
      exec .checkpointWrite s = .next (s.updXfer { t with round := max 1 t.round, waitAt := va })) ∧
    (s.power.s3 ≠ .none → exec .checkpointWrite s = .next s))) ∧
  ((∀ s : State, s.ev.addr % 8 ≠ 0 → exec .registerWrite s = .next s) ∧
  (∀ s : State,
    (s.ev.flag = false → 0x8000 ≤ s.ev.addr → s.ev.addr < 0x8100 → exec .registerWrite s = .next s) ∧
    (s.ev.flag = true → 0x9000 ≤ s.ev.addr → s.ev.addr < 0x14000 → exec .registerWrite s = .next s) ∧
    (s.ev.flag = false → s.ev.addr = 0xB100 → exec .registerWrite s = .next { s with modnum := fld s.ev.value 0 8 })) ∧
  (∀ s : State, s.ev.flag = true → s.ev.addr = 0x8038 →
    Gives .registerWrite s fun t => t.mem = s.mem ∧ t.cores = s.cores ∧
      t.power.plimit = if 800 ≤ fld s.ev.value 0 12 ∧ fld s.ev.value 0 12 ≤ 2400 then fld s.ev.value 0 12 else s.power.plimit) ∧
  (∀ (s : State) (q : Nat), q < 64 → s.ev.flag = false → s.ev.addr = 0x10020 + 0x100 * q →
    exec .registerWrite s = .next (s.setSubq q { s.subq q with lbud := fld s.ev.value 0 48 })) ∧
  (∀ s : State, s.ten.pend = true → exec .moduleReset s = .next (s.moduleReset.scrub s.ev.nats)) ∧
  (∀ s : State, s.ten.pend = false → Gives .moduleReset s fun t =>
    (∀ a, t.mem.read a = if scmAddr ≤ a ∧ a < scmAddr + scmSize then s.mem.read a else 0) ∧
    (∀ (core : Nat) (x : Fin 4), t.ctx core x = {}) ∧ t.wcc = 0 ∧ t.launches = [] ∧ t.ten.pend = false ∧
    t.ten.count = s.ten.count ∧ t.power.s3 = .none ∧ t.power.reserve = s.power.reserve ∧ t.power.rescap = s.power.rescap))


/-! ### The fabric -/

/-- Links (R397, R398, R402, R403): a bad unit is dropped and answered with a NAK, a good one in sequence is delivered once, one that came
before is acknowledged again, a NAK replays what stands unacknowledged, and a port that goes or comes floods the module's new mask. Which
idle units answer, and that a control packet that a dead port did not get across goes into the drain, are the model's (log 67). -/
def Obligations.LinkEvents : Prop :=
  (∀ s : State,
    let p := s.ev.port
    let v := s.gauge p
    let x := v.port p
    let u := s.ev.link
    let seq : BitVec 12 := BitVec.ofNat 12 (fld u.trailer 20 12)
    let acked := unacked (BitVec.ofNat 12 (fld u.trailer 8 12)) x.buf
    let ahead := (seq - x.lack - 1).toNat
    x.lack = (s.port p).lack ∧ x.dropping = (s.port p).dropping ∧ x.rx = (s.port p).rx ∧ x.st = (s.port p).st ∧
    (x.st = 3 → exec .linkUnitReceive s = .next v) ∧
    (x.st ≠ 3 → goodUnit u = false → x.dropping = true → exec .linkUnitReceive s = .next (v.setPort p x)) ∧
    (x.st ≠ 3 → goodUnit u = false → x.dropping = false → exec .linkUnitReceive s = .next (v.setPort p
      { x with dropping := true, tx := x.tx ++ [unitOf (List.replicate 64 0) x.lseq x.lack true x.pausing 3 false] })) ∧
    (x.st ≠ 3 → goodUnit u = true → fld u.trailer 2 2 = 3 → x.wait = [] → x.outq = [] → Gives .linkUnitReceive s fun t =>
      let y := t.port p
      y.buf = acked ∧ y.naked = (x.naked || u.trailer.getLsbD 7) ∧ y.pause = BitVec.ofNat 3 (fld u.trailer 4 3) ∧
      y.heard = s.wcc.toNat ∧ y.fails = (if acked.length < x.buf.length then 0 else x.fails) ∧ y.lack = x.lack ∧ y.lseq = x.lseq ∧
      y.tx = x.tx ∧ y.dropping = x.dropping ∧ t.agenda = s.agenda ∧ t.mem = s.mem) ∧
    (x.st ≠ 3 → goodUnit u = true → fld u.trailer 2 2 ≠ 3 → 2048 ≤ ahead → Gives .linkUnitReceive s fun t =>
      (t.port p).dropping = x.dropping ∧ (t.port p).lack = x.lack ∧ t.agenda = s.agenda ∧ t.mem = s.mem ∧
      ∃ w ∈ (t.port p).tx, fld w.trailer 2 2 = 3 ∧ fld w.trailer 8 12 = x.lack.toNat) ∧
    (x.st ≠ 3 → goodUnit u = true → fld u.trailer 2 2 ≠ 3 → ahead ≠ 0 → ahead < 2048 →
      Gives .linkUnitReceive s fun t => (t.port p).dropping = true ∧ (t.port p).lack = x.lack ∧ t.agenda = s.agenda ∧ t.mem = s.mem) ∧
    (∀ i, x.st ≠ 3 → goodUnit u = true → fld u.trailer 2 2 ≠ 3 → ahead = 0 → x.rx = [] → fld (wordAt (wordsOf 1 u.flit) 0) 38 4 = 0 →
      packetEvent (packetOf [u.flit]) = some i →
      Gives .linkUnitReceive s fun t => (t.port p).lack = seq ∧ (t.port p).dropping = false ∧ (t.port p).rx = [] ∧
        t.agenda = s.agenda ++ [some (i, { packet := packetOf [u.flit], port := p })] ∧ t.mem = s.mem)) ∧
  (∀ s : State,
    let x := s.port s.ev.port
    (x.naked = true → x.buf = [] → exec .linkReplay s = .next (s.setPort s.ev.port { x with naked := false })) ∧
    (x.naked = true → x.buf ≠ [] → exec .linkReplay s = .next (s.setPort s.ev.port { x with
      naked := false, tx := x.tx ++ x.buf, fails := x.fails + 1
      retry := if x.retry = BitVec.allOnes 24 then x.retry else x.retry + 1 })) ∧
    (x.naked = false → exec .linkReplay s = .next s)) ∧
  (∀ s : State,
    let p := s.ev.port
    let dying := (s.port p).st = 2 ∧ ((s.port p).naked = true ∧ 8 ≤ (s.port p).fails ∨ (s.port p).heard + 6000 < s.wcc.toNat)
    (¬ dying → exec .portDead s = .next s) ∧
    (dying → Gives .portDead s fun t => (t.port p).st = 3 ∧ (t.port p).wait = [] ∧ (t.port p).outq = [] ∧
      (∀ q ∈ (s.port p).ctl, (⟨q, p, 1, 0, 0⟩ : Sent) ∈ t.sents) ∧
      (∀ e ∈ s.sents, e.port = p → e.round = 0 → { e with round := 1 } ∈ t.sents) ∧
      Table.get (0, 0#32) t.links s.modnum = (t.liveMask, (s.port 0).lsuseq + 1) ∧ t.mem = s.mem ∧ t.cores = s.cores) ∧
    ((s.port p).st = 2 ∨ s.laneless p = true → exec .portUp s = .next s) ∧
    ((s.port p).st ≠ 2 → s.laneless p = false → Gives .portUp s fun t => (t.port p).st = 2 ∧ (t.port p).lack = 0xFFF#12 ∧ (t.port p).dropping = false ∧
      Table.get (0, 0#32) t.links s.modnum = (t.liveMask, (s.port 0).lsuseq + 1) ∧ t.mem = s.mem ∧ t.cores = s.cores)) ∧
  (∀ s : State,
    let p := s.ev.packet
    let m := fld (wordAt p.ops 0) 0 32
    let mask := fld (wordAt p.ops 1) 0 18
    let seq : W32 := BitVec.ofNat 32 (fld (wordAt p.ops 2) 0 32)
    let old := Table.get (0, 0#32) s.links m
    let newer := 1 ≤ (seq - old.2).toNat ∧ (seq - old.2).toNat ≤ 2 ^ 31 - 1
    (newer → Gives .linkStateUpdate s fun t => Table.get (0, 0#32) t.links m = (mask, seq) ∧
      (∀ q < 18, (s.port q).st = 2 → q ≠ s.ev.port → s.modnum ≤ 191 → (s.port q).wait = [] → (s.port q).outq = [] →
        (s.port q).pause.getLsbD (classOf p.type) = false → (s.port q).buf.length < 512 → p.data = [] →
        ∃ u ∈ (t.port q).tx, u.flit = headerOf p) ∧
      (∀ e ∈ s.sents, e.pkt.dmod = m → e.port < 18 → old.1.testBit e.port = true → mask.testBit e.port = false → e.round = 0 →
        { e with round := 1 } ∈ t.sents) ∧ t.mem = s.mem ∧ t.cores = s.cores) ∧
    (¬ newer → exec .linkStateUpdate s = .next s)) ∧
  (∀ s : State, (∀ e ∈ s.sents, e.port ≠ unsentPort ∧ (e.pkt.dmod = s.ev.index → e.round < 4)) →
    exec .drainRound s = .next { s with sents := s.sents.map fun (e : Sent) =>
      if e.pkt.dmod = s.ev.index ∧ e.round ≠ 0 then { e with round := e.round + 1 } else e }) ∧
  (∀ (s : State) (e : Sent), s.sents = [e] → e.pkt.dmod = s.ev.index → (e.round = 4 ∨ e.round = 0 ∧ e.port = unsentPort) →
    e.pkt.type ≠ 4 → oneWay e.pkt = false → s.commonPorts e.pkt.dmod = [] →
    exec .drainRound s = .next ((s.answered e).refused e 0x187).sendWaiting)

/-- Requests of a peer (R352, R355, R356, R363, R374, R399, R401): performed at most once, a repeated one gets the first reply; one to a
place that is not this module's is page-format, one to a place that does not accept it now waits. A reduction with the barrier bit then
makes the arrival. Their answers end their pieces. The page-format answer, which reply is kept and that it waits for the deliveries of
its request, and the bit that asks for an arrival alone are the model's (logs 39, 67). -/
def Obligations.RequestEvents : Prop :=
  (∀ (s : State) (i : Instr), i ∈ [.readRequest, .writeRequest, .reductionRequest] →
    let p := s.ev.packet
    let u := s.settle
    let a := packetOffset p
    (∀ r, u.seen p = some (some r) → exec i s = .next (u.again r)) ∧
    (u.seen p = some none → exec i s = .next u) ∧
    let barred := i = .reductionRequest ∧ (wordAt p.ops 1).toNat.testBit 4 = true ∧
      s.retained (placeOf (wordAt p.ops 4).toNat) false = true
    (s.seen p = none → barred → exec i s = .next (s.waitReply p)) ∧
    (u.seen p = none → ¬ barred → (placeOf a).here = false →
      exec i s = .next ((u.keep p (doneReply p 0x08A)).replyAfter (peerCore p) p.x (doneReply p 0x08A))) ∧
    (u.seen p = none → ¬ barred → (placeOf a).here = true → u.retained (placeOf a) false = true → exec i s = .next (u.waitReply p))) ∧
  (∀ s : State,
    let p := s.ev.packet
    let u := s.settle
    let a := packetOffset p
    let w := (wordAt p.ops 1).toNat
    let b := (wordAt p.ops 4).toNat
    let done (z : State × Packet) := (z.1.keep p z.2).replyAfter (peerCore p) p.x z.2
    let clean := u.flawed a (redBytes (w % 16)) = false
    u.seen p = none → (placeOf a).here = true → u.retained (placeOf a) false = false →
    (let n := fld (wordAt p.ops 1) 0 32
     exec .readRequest s = .next (done (if u.flawed a n then ((u.flawReply p a n).1, doneReply p (placeOf a).flawCode)
       else (u, replyTo p 16 [] (u.mem.bytes a n))))) ∧
    (∀ d, (placeOf a).onDie = true → (placeOf a).die = some d → exec .writeRequest s = .next
      (done (u.addDelivery d (.bytes p.x ⟨(placeOf a).unitPort, peerCore p, 0, none,
        p.data.zipIdx.map fun b => (a + b.2, 255, b.1.toNat)⟩), doneReply p 0))) ∧
    ((placeOf a).onDie = false → exec .writeRequest s = .next
      (done ({ u.backLines a p.data.length with mem := u.mem.write a p.data }, doneReply p 0))) ∧
    (∀ d, placeOf a = .hbm d → w.testBit 7 = false → w.testBit 4 = false → u.flawed a (redBytes (w % 16)) = true →
      exec .reductionRequest s = .next (done ((u.flawReply p a (redBytes (w % 16))).1, doneReply p 0x307))) ∧
    (∀ d, placeOf a = .hbm d → w.testBit 7 = false → w.testBit 4 = false → w.testBit 5 = false → clean →
      exec .reductionRequest s = .next (done ((u.backInvalidate (a / 64)).reduceAt (w % 16) a (wordAt p.ops 2).toNat, doneReply p 0))) ∧
    (∀ d, placeOf a = .hbm d → w.testBit 7 = false → w.testBit 4 = false → w.testBit 5 = true → clean →
      let v := (u.backInvalidate (a / 64)).atomicAt (w % 16) a (wordAt p.ops 2).toNat (wordAt p.ops 3).toNat
      exec .reductionRequest s = .next (done (v.1, replyTo p 20 [BitVec.ofNat 64 v.2] []))) ∧
    (∀ d, placeOf a = .hbm d → w.testBit 7 = false → w.testBit 4 = true → s.retained (placeOf b) false = false → w.testBit 5 = false →
      clean → u.flawed b 16 = false → exec .reductionRequest s = .next
        (done (((u.backInvalidate (a / 64)).reduceAt (w % 16) a (wordAt p.ops 2).toNat).peerArrival p b, doneReply p 0))) ∧
    (∀ d, placeOf a = .hbm d → w.testBit 7 = true → w.testBit 4 = false → u.flawed a 16 = false →
      exec .reductionRequest s = .next (done (u.peerArrival p a, doneReply p 0)))) ∧
  (∀ (s : State) (e : Sent) (t : Xfer),
    let p := s.ev.packet
    (s.core p.core).xfer? p.x = some t →
    (s.sentFor p (fun n => n == 1) = some e → exec .readData s = .next
      ((s.answered e).updXfer { t with
        got := t.got ++ [(e.piece / 64, p.data.take (fld (wordAt e.pkt.ops 1) 0 32))], round := 0 })) ∧
    (s.sentFor p (fun n => n == 3) = some e → exec .oldValue s = .next
      ((s.answered e).pieceDone { t with found := wordAt p.ops 0 } e.piece)) ∧
    (s.sentFor p (fun n => n == 37) = some e → exec .clearToSend s = .next ((s.answered e).sendMore t)) ∧
    (s.sentFor p (fun n => n == 1 || n == 2 || n == 3 || n == 5 || n == 37) = some e →
      (fld (wordAt p.ops 0) 0 12 ≠ 0 → exec .done s = .next ((s.answered e).refused e (fld (wordAt p.ops 0) 0 12))) ∧
      (fld (wordAt p.ops 0) 0 12 = 0 → e.pkt.type = 3 → exec .done s = .next
        ((s.answered e).pieceDone { t with
          sent := t.sent.filter fun n => n != e.piece
          pieces := if (wordAt e.pkt.ops 1).getLsbD 4 then 1 :: t.pieces else t.pieces } e.piece)) ∧
      (fld (wordAt p.ops 0) 0 12 = 0 → e.pkt.type = 5 → exec .done s = .next ((s.answered e).sendMore t)))) ∧
  (∀ s : State, s.sents = [] → ∀ i, i ∈ [.readData, .oldValue, .clearToSend, .done, .planeAcknowledgement] → exec i s = .next s)

/-- Messages, signals and the host port (R405, R406, R419, R420): a message goes to the oldest receive that matches, or waits for one;
its data lands once; WAITS ends when its word has reached the threshold; the host's writes and reads pass the memory ports. That the
4,097th message waits in its engine and what a refused receive ends with (log 40), and the directory's order (log 45), are the model's. -/
def Obligations.MessageEvents : Prop :=
  (∀ s : State,
    let p := s.ev.packet
    (∀ r, s.seen p = some (some r) → exec .readyToSend s = .next (s.reply r)) ∧
    (s.seen p = some none → exec .readyToSend s = .next s) ∧
    (s.seen p = none → s.rts.any (fun q => q.smod == p.smod && q.pseq == p.pseq) = true → exec .readyToSend s = .next s) ∧
    (s.seen p = none → s.rts.any (fun q => q.smod == p.smod && q.pseq == p.pseq) = false →
    (∀ r, s.recvs.find? (fun (r : Recv) => r.matches p) = some r → exec .readyToSend s = .next (s.takeMessage r p)) ∧
    (s.recvs.find? (fun (r : Recv) => r.matches p) = none → s.rts.length < 4096 →
      exec .readyToSend s = .next { s with rts := s.rts ++ [p] }) ∧
    (s.recvs.find? (fun (r : Recv) => r.matches p) = none → 4096 ≤ s.rts.length → exec .readyToSend s = .next (s.waitReply p)))) ∧
  (∀ (s : State) (r : Recv) (p : Packet) (t : Xfer), (s.core r.core).xfer? r.x = some t →
    let len := fld (wordAt p.ops 1) 0 32
    let u := { s with recvs := s.recvs.filter fun (q : Recv) => !(q.core == r.core && decide (q.x = r.x)) }
    (r.cap < len → s.takeMessage r p = (u.failFrom t 0 0x188 0).answer p (doneReply p 0x188)) ∧
    (len = 0 → s.takeMessage r p = (u.pieceDone { t with found := BitVec.ofNat 64 (p.smod * 2 ^ 32) } 0).answer p (clearPacket p)) ∧
    (len ≤ r.cap → len ≠ 0 → s.takeMessage r p = ({ s with recvs := s.recvs.map fun (q : Recv) =>
      if q.core = r.core ∧ q.x = r.x then { q with mate := some (p.smod, p.core, p.x), len := len } else q }).answer p (clearPacket p))) ∧
  (∀ (s : State) (r : Recv) (t : Xfer) (sp : List Spot),
    let p := s.ev.packet
    let v := s.settle
    let d := msgArea t
    let off := fld (wordAt p.ops 2) 0 32
    s.seen p = none → s.recvs.find? (fun (r : Recv) => decide (r.mate = some (p.smod, p.core, p.x))) = some r →
    let data := p.data.take (fld (wordAt p.ops 1) 0 32)
    (s.core r.core).xfer? r.x = some t → t.cut = false → v.spots t d (byteCells (d.base + off) data) = .ok sp →
    ∀ w, v.writeSpots t 0 sp = .ok w →
    let z := (w.keep p (doneReply p 0)).replyAfter t.core t.x (doneReply p 0)
    (r.landed + data.length < r.len → exec .messageData s = .next { z with
      recvs := z.recvs.map fun (q : Recv) => if q = r then { r with landed := r.landed + data.length } else q }) ∧
    (r.len ≤ r.landed + data.length → exec .messageData s = .next
      (({ z with recvs := s.recvs.filter fun (q : Recv) => !decide (q = r) }).pieceDone
        { t with found := BitVec.ofNat 64 (p.smod * 2 ^ 32 + r.len) } 0))) ∧
  (∀ (s : State) (r : Recv) (t : Xfer),
    let p := s.ev.packet
    let v := s.settle
    let d := msgArea t
    let off := fld (wordAt p.ops 2) 0 32
    s.seen p = none → s.recvs.find? (fun (r : Recv) => decide (r.mate = some (p.smod, p.core, p.x))) = some r →
    let data := p.data.take (fld (wordAt p.ops 1) 0 32)
    (s.core r.core).xfer? r.x = some t → t.cut = false → BytesReach v t d .write d.need (d.base + off) data.length →
    ∃ w : State, (r.landed + data.length < r.len → exec .messageData s = .next
        (let z := (w.keep p (doneReply p 0)).replyAfter t.core t.x (doneReply p 0)
         { z with recvs := z.recvs.map fun (q : Recv) => if q = r then { r with landed := r.landed + data.length } else q })) ∧
      w.cores = s.cores ∧ w.recvs = s.recvs) ∧
  (∀ (s : State) (t : Xfer) (pa : Nat), s.evXfer = some t → (t.op matches .xsig _ _ _ _) = true → sigMode t = 1 → s.working t = true →
    t.pieces.contains 0 = false →
    (s.settle.sigPlace t .read = .ok pa ∧ (placeOf pa).here = true ∨ s.flaws = [] ∧ SigReaches s.settle t pa) →
    ((wordAt t.args 1).toNat ≤ (s.settle.mem.word pa).toNat → exec .waitsReexamine s = .next (s.settle.pieceDone t 0)) ∧
    ((s.settle.mem.word pa).toNat < (wordAt t.args 1).toNat → t.round = 0 → exec .waitsReexamine s = .next s.settle)) ∧
  (∀ s : State,
    let ok := s.ev.addr < 8 * hbmSize ∧ s.retained (placeOf s.ev.addr) false = false
    let line := s.ev.addr / 64
    (ok → s.directory.contains line = true → exec .hostMemRead s = .next (s.drainLine line)) ∧
    (ok → s.directory.contains line = false → s.directory.length < 1048576 →
      exec .hostMemRead s = .next { s.drainLine line with directory := s.directory ++ [line] }) ∧
    (ok → s.directory.contains line = false → 1048576 ≤ s.directory.length →
      exec .hostMemRead s = .next { s.drainLine line with directory := s.directory.drop 1 ++ [line] }) ∧
    (s.retained (placeOf s.ev.addr) false = false → s.ev.addr + s.ev.bytes.length ≤ 8 * hbmSize →
      exec .hostMemWrite s = .next { s.settle with mem := s.settle.mem.write s.ev.addr s.ev.bytes }) ∧
    (8 * hbmSize ≤ s.ev.addr → exec .hostMemRead s = .next s) ∧
    (8 * hbmSize < s.ev.addr + s.ev.bytes.length → exec .hostMemWrite s = .next s) ∧
    (s.retained (placeOf s.ev.addr) false = true → exec .hostMemRead s = .next s ∧ exec .hostMemWrite s = .next s)) ∧
  (∀ s : State, exec .hostSnoop s = .next s)

/-- Collectives at a member (R399, R408, R410, R413, R415, R418, R421 to R423): a packet from outside the group is counted, one that comes
early is held, planes land once and go on, an acknowledgement moves the sender's mark, and a rejoining member's streams are sent again.
When a plane, an exponent or a cut is a mismatch or is ignored, and which streams a resumption sends, are the model's (log 41). -/
def Obligations.CollectiveEvents : Prop :=
  (∀ s : State,
    let p := s.ev.packet
    (∀ i, i ∈ [.exponent, .cutRequest, .errorNotice] →
      ((s.seen p).isSome = true → exec i s = .next s) ∧
      (s.seen p = none → s.fromMember p = false → exec i s = .next s.countError) ∧
      (s.seen p = none → s.fromMember p = true → s.collFor p = none → s.comesEarly p = true →
        exec i s = .next (if s.early.contains p then s else { s with early := s.early ++ [p] })) ∧
      (s.seen p = none → s.fromMember p = true → s.collFor p = none → s.comesEarly p = false → exec i s = .next s)) ∧
    (s.seen p = none → s.fromMember p = false → exec .planeData s = .next s.countError) ∧
    (∀ r, s.seen p = some (some r) → exec .planeData s = .next (s.again r)) ∧
    (s.seen p = none → s.fromMember p = true → s.collFor p = none → s.comesEarly p = false →
      let r := ackReply p (fld (wordAt p.ops 2) 0 8 + fld (wordAt p.ops 2) 8 8)
      exec .planeData s = .next ((s.keep p r).replyAfter (peerCore p) p.x r))) ∧
  (∀ (s : State) (c : Coll) (t : Xfer),
    let p := s.ev.packet
    let step := fld (wordAt p.ops 1) 0 32
    let tile := fld (wordAt p.ops 1) 32 32
    let first := fld (wordAt p.ops 2) 0 8
    let ps := packetPlanes p (c.op ≠ 0)
    let i := (step + 2 ^ 32 - c.base % 2 ^ 32) % 2 ^ 32
    let key := streamKey i tile
    s.seen p = none → s.fromMember p = true → s.collFor p = some c → c.started = true →
    (wordAt p.ops 4 ≠ c.desc → exec .planeData s = .next (s.collFail c)) ∧
    (c.planes < first + ps.length → exec .planeData s = .next (s.collFail c)) ∧
    ((c.takes i).contains tile = false → exec .planeData s = .next (s.collFail c)) ∧
    (wordAt p.ops 4 = c.desc → (c.takes i).contains tile = true → first + ps.length ≤ c.planes → Table.has c.ts tile = true →
      Table.get 0 c.ts tile = (wordAt p.ops 3).toInt → (s.core c.core).xfer? c.x = some t →
      ((t.cut = true ∨ s.tileRetained c t i tile = true) → exec .planeData s = .next (s.waitReply p)) ∧
      (t.cut = false → s.tileRetained c t i tile = false → (c.op ≠ 0 ∨ ps.any planeBad = false) → (wordAt p.ops 2).getLsbD 17 = false →
        let c2 := c.land key first ps ((wordAt p.ops 2).getLsbD 16) false
        let r := ackReply p (Table.get [] c2.inp key).length
        exec .planeData s = .next ((((s.setColl c2).keep p r).replyAfter (peerCore p) p.x r).pump c.core c.x)))) ∧
  (∀ (c : Coll) (key first : Nat) (ps : List Nat) (sat bad : Bool),
    let old := Table.get [] c.inp key
    (first ≤ old.length → Table.get [] (c.land key first ps sat bad).inp key = old ++ ps.drop (old.length - first)) ∧
    (old.length < first → c.land key first ps sat bad = c)) ∧
  (∀ (s : State) (e : Sent), s.sentFor s.ev.packet (fun n => n == 4) = some e →
    (s.collFor e.pkt = none → exec .planeAcknowledgement s = .next (s.answered e)) ∧
    (∀ c, s.collFor e.pkt = some c → (wordAt e.pkt.ops 2).getLsbD 17 = false →
      let key := streamKey ((fld (wordAt e.pkt.ops 1) 0 32 + 2 ^ 32 - c.base % 2 ^ 32) % 2 ^ 32) (fld (wordAt e.pkt.ops 1) 32 32)
      let n := max (Table.get 0 c.acked key) (min (fld (wordAt s.ev.packet.ops 0) 0 8) (Table.get 0 c.out key))
      let d := { c with acked := Table.put c.acked key n }
      exec .planeAcknowledgement s = .next (if c.paused = none then ((s.answered e).setColl d).pump c.core c.x
        else ((s.answered e).setColl d).resumeStreams d))) ∧
  (∀ (s : State) (c : Coll),
    let p := s.ev.packet
    let first := fld (wordAt p.ops 1) 0 32
    let cnt := fld (wordAt p.ops 1) 32 32
    let origin := fld (wordAt p.ops 2) 0 32
    let u := s.keep p p
    s.seen p = none → s.fromMember p = true → s.collFor p = some c →
    (c.started = true → (wordAt p.ops 4 ≠ c.desc ∨ c.round = false ∨ c.nt < first + cnt ∨ c.n ≤ origin) →
      exec .exponent s = .next (u.collFail c)) ∧
    (c.started = true → wordAt p.ops 4 = c.desc → c.round = true → first + cnt ≤ c.nt → origin < c.n → (c.succ = origin ∨ origin = c.rank) →
      let es := (List.range cnt).foldl (fun (x : Table Int) k =>
        Table.put x (streamKey origin (first + k)) (signExt (leNat ((p.data.drop (2 * k)).take 2)) 16)) c.exps
      exec .exponent s = .next ((u.setColl ({ c with exps := es }).agree).pump c.core c.x)) ∧
    (p.type = 34 → (c.cutDone = true ∨ c.op ≠ 0 ∨ c.complete = true) → exec .cutRequest s = .next u) ∧
    (p.type = 34 → c.cutDone = false → c.op = 0 → c.complete = false → c.kind ≠ .broadcast →
      let mine := (c.segment (fld (wordAt p.ops 1) 0 32)).filter fun t => c.owner t == c.rank
      let at_ := (mine.filter fun t => decide ((c.dest t).1.length < c.p)).foldl
        (fun (m : Table Nat) t => Table.put m t (c.dest t).1.length) c.cutAt
      exec .cutRequest s = .next ((u.setColl { c with cutDone := true, cutAt := at_ }).pump c.core c.x)) ∧
    (p.type = 35 → exec .errorNotice s = .next (u.collError c))) ∧
  (∀ (s : State) (c : Coll), s.colls = [c] → c.group % 4096 = s.ev.index →
    (c.paused = none → exec .streamResume s = .next s ∧ exec .waitlimExpiry s = .next s) ∧
    (∀ n, c.paused = some n →
      let g := s.group c.group
      let m := s.memberOf c.group c.succ
      exec .streamResume s = .next (if (m ≠ s.modnum ∧ s.commonPorts m = []) ∨ s.inRounds c = true then s else s.resumeStreams c) ∧
      (n + (if g.waitlim = 0 then 600 else g.waitlim) * 600000000 < s.wcc.toNat → exec .waitlimExpiry s = .next (s.collFail c)) ∧
      (s.wcc.toNat ≤ n + (if g.waitlim = 0 then 600 else g.waitlim) * 600000000 → exec .waitlimExpiry s = .next s))) ∧
  (∀ (s : State) (r : Nat),
    let p := s.ev.packet
    let g := rejoinGroup p
    let u := (s.keep p p).sendOr (s.rejoinPacket g r 1)
    s.seen p = none → (s.group g).v = true → (s.group g).gen = g / 4096 → s.rankOf g (s.group g).n p.smod = some r →
    (s.colls = [] → exec .rejoin s = .next u) ∧
    (∀ c, s.colls = [c] → c.group = g → c.succ = r → c.round = false →
      exec .rejoin s = .next (u.resendFrom c (rejoinStep p) (rejoinPlane p))) ∧
    (∀ c d, s.colls = [c, d] → c.group = g → d.group = g → c.succ = r → d.succ = r → c.round = false → d.round = false →
      exec .rejoin s = .next ((u.resendFrom c (rejoinStep p) (rejoinPlane p)).resendFrom d (rejoinStep p) (rejoinPlane p)))) ∧
  (∀ (s : State) (r : Nat),
    let p := s.ev.packet
    let g := rejoinGroup p
    let u := s.keep p p
    s.seen p = none → s.rankOf g (s.group g).n p.smod = some r →
    (s.colls = [] → exec .rejack s = .next u) ∧
    (∀ c, s.colls = [c] → c.group = g → c.succ = r → exec .rejack s = .next (u.resendFrom c (rejoinStep p) (rejoinPlane p)))) ∧
  (∀ s : State, (s.seen s.ev.packet).isSome = true → exec .rejoin s = .next s ∧ exec .rejack s = .next s)

/-! ### Invariant -/

/-- Every step keeps memory in its canonical form (log 1). -/
def Obligations.MemoryStaysCanonical : Prop :=
  ∀ s t : State, s.mem.wf = true → step s = .next t → t.mem.wf = true

end
end

