-- ==== Sys2Proof/Laws/Hash.lean ====
section
/-! SUPPORT. The sponge gives as many bytes as it is asked for. -/

namespace Sys2Proof.Machine

/-- A Keccak state has 25 lanes after every step. -/
theorem kChi_length (a : List Word) : (kChi a).length = 25 := by simp [kChi, kState]

theorem kStep_length (a : List Word) (rc : Word) : (kStep a rc).length = 25 := by
  have h := kChi_length (kRhoPi (kTheta a))
  unfold kStep
  split
  · next l t e => rw [e] at h; simpa using h
  · next e => rw [e] at h; cases h

theorem kSteps_length (l : List Word) : ∀ a : List Word, a.length = 25 → (l.foldl kStep a).length = 25 := by
  induction l with
  | nil => exact fun _ h => h
  | cons r l ih => intro a _; rw [List.foldl_cons]; exact ih _ (kStep_length a r)

/-- The sponge keeps its 25 lanes. -/
theorem absorb_length (n : Nat) : ∀ (a : List Word) (bs : List Byte), a.length = 25 → (absorb n a bs).length = 25 := by
  induction n with
  | zero => exact fun _ _ h => h
  | succ n ih =>
    intro a bs h
    rw [absorb]
    refine ih _ _ ?_
    rw [absorbBlock, keccakF]
    exact kSteps_length _ _ (by simp [h])

/-- Each block gives 136 bytes. -/
theorem squeeze_length (n : Nat) : ∀ a : List Word, a.length = 25 → (squeeze n a).length = 136 * n := by
  induction n with
  | zero => exact fun _ _ => rfl
  | succ n ih =>
    intro a h
    rw [squeeze, List.length_append, ih _ (by rw [keccakF]; exact kSteps_length _ _ h), List.length_flatMap]
    have : ((a.take 17).map fun w => (leBytes 8 w.toNat).length) = List.replicate 17 8 := by
      rw [List.eq_replicate_iff]
      refine ⟨by simp [h], fun b hb => ?_⟩
      obtain ⟨w, _, rfl⟩ := List.mem_map.1 hb
      simp [leBytes]
    rw [this]
    simp
    omega

/-- A sponge gives as many bytes as asked for. -/
theorem sponge_length (dom : Byte) (bs : List Byte) (n : Nat) : (sponge dom bs n).length = n := by
  rw [sponge, List.length_take, squeeze_length _ _ (absorb_length _ _ _ (by simp))]
  omega

end Sys2Proof.Machine
end

