-- ==== Sys2Proof/Laws/State.lean ====
section
/-! SUPPORT. Reading a record after an update: the entry that was put, and every field the update leaves alone. -/

namespace Sys2Proof.Machine

/-! ### Tables -/

@[simp] theorem Table.get_put_same {α : Type} (d : α) (t : Table α) (k : Nat) (x : α) : Table.get d (Table.put t k x) k = x := by
  induction t with
  | nil => simp [Table.put, Table.get]
  | cons c t ih =>
    obtain ⟨k', y⟩ := c
    by_cases h : k' = k
    · simp [Table.put, Table.get, h]
    · simp [Table.put, Table.get, h, ih]

theorem Table.get_put_ne {α : Type} (d : α) (t : Table α) {k j : Nat} (x : α) (h : j ≠ k) :
    Table.get d (Table.put t k x) j = Table.get d t j := by
  induction t with
  | nil => simp [Table.put, Table.get, Ne.symm h]
  | cons c t ih =>
    obtain ⟨k', y⟩ := c
    by_cases hk : k' = k
    · subst hk; simp [Table.put, Table.get, Ne.symm h]
    · by_cases hj : k' = j
      · subst hj; simp [Table.put, Table.get, hk]
      · simp [Table.put, Table.get, hk, hj, ih]

@[simp] theorem Table.put_put_same {α : Type} (t : Table α) (k : Nat) (x y : α) : Table.put (Table.put t k x) k y = Table.put t k y := by
  induction t with
  | nil => simp [Table.put]
  | cons c t ih =>
    obtain ⟨k', z⟩ := c
    by_cases h : k' = k
    · simp [Table.put, h]
    · simp [Table.put, h, ih]

/-! ### Fields that an update leaves alone -/

@[simp] theorem State.setCore_pairs (s : State) (c : Nat) (k : Core) : (s.setCore c k).pairs = s.pairs := rfl
@[simp] theorem State.setCore_clusters (s : State) (c : Nat) (k : Core) : (s.setCore c k).clusters = s.clusters := rfl
@[simp] theorem State.setCore_dies (s : State) (c : Nat) (k : Core) : (s.setCore c k).dies = s.dies := rfl
@[simp] theorem State.setCore_mem (s : State) (c : Nat) (k : Core) : (s.setCore c k).mem = s.mem := rfl
@[simp] theorem State.setCore_flaws (s : State) (c : Nat) (k : Core) : (s.setCore c k).flaws = s.flaws := rfl
@[simp] theorem State.setCore_wcc (s : State) (c : Nat) (k : Core) : (s.setCore c k).wcc = s.wcc := rfl
@[simp] theorem State.setCore_seedlog (s : State) (c : Nat) (k : Core) : (s.setCore c k).seedlog = s.seedlog := rfl
@[simp] theorem State.setCore_entropyBad (s : State) (c : Nat) (k : Core) : (s.setCore c k).entropyBad = s.entropyBad := rfl
@[simp] theorem State.setCore_astab (s : State) (c : Nat) (k : Core) : (s.setCore c k).astab = s.astab := rfl
@[simp] theorem State.setCore_power (s : State) (c : Nat) (k : Core) : (s.setCore c k).power = s.power := rfl
@[simp] theorem State.setCore_hiblist (s : State) (c : Nat) (k : Core) : (s.setCore c k).hiblist = s.hiblist := rfl
@[simp] theorem State.setCore_kept (s : State) (c : Nat) (k : Core) : (s.setCore c k).kept = s.kept := rfl
@[simp] theorem State.setCore_ten (s : State) (c : Nat) (k : Core) : (s.setCore c k).ten = s.ten := rfl
@[simp] theorem State.setCore_launches (s : State) (c : Nat) (k : Core) : (s.setCore c k).launches = s.launches := rfl
@[simp] theorem State.setCore_lnext (s : State) (c : Nat) (k : Core) : (s.setCore c k).lnext = s.lnext := rfl
@[simp] theorem State.setCore_subqs (s : State) (c : Nat) (k : Core) : (s.setCore c k).subqs = s.subqs := rfl
@[simp] theorem State.setCore_modnum (s : State) (c : Nat) (k : Core) : (s.setCore c k).modnum = s.modnum := rfl
@[simp] theorem State.setCore_ports (s : State) (c : Nat) (k : Core) : (s.setCore c k).ports = s.ports := rfl
@[simp] theorem State.setCore_links (s : State) (c : Nat) (k : Core) : (s.setCore c k).links = s.links := rfl
@[simp] theorem State.setCore_pseqs (s : State) (c : Nat) (k : Core) : (s.setCore c k).pseqs = s.pseqs := rfl
@[simp] theorem State.setCore_sents (s : State) (c : Nat) (k : Core) : (s.setCore c k).sents = s.sents := rfl
@[simp] theorem State.setCore_served (s : State) (c : Nat) (k : Core) : (s.setCore c k).served = s.served := rfl
@[simp] theorem State.setCore_groups (s : State) (c : Nat) (k : Core) : (s.setCore c k).groups = s.groups := rfl
@[simp] theorem State.setCore_colls (s : State) (c : Nat) (k : Core) : (s.setCore c k).colls = s.colls := rfl
@[simp] theorem State.setCore_recvs (s : State) (c : Nat) (k : Core) : (s.setCore c k).recvs = s.recvs := rfl
@[simp] theorem State.setCore_early (s : State) (c : Nat) (k : Core) : (s.setCore c k).early = s.early := rfl
@[simp] theorem State.setCore_rts (s : State) (c : Nat) (k : Core) : (s.setCore c k).rts = s.rts := rfl
@[simp] theorem State.setCore_owed (s : State) (c : Nat) (k : Core) : (s.setCore c k).owed = s.owed := rfl
@[simp] theorem State.setCore_directory (s : State) (c : Nat) (k : Core) : (s.setCore c k).directory = s.directory := rfl
@[simp] theorem State.setCore_hostLines (s : State) (c : Nat) (k : Core) : (s.setCore c k).hostLines = s.hostLines := rfl
@[simp] theorem State.setCore_msix (s : State) (c : Nat) (k : Core) : (s.setCore c k).msix = s.msix := rfl
@[simp] theorem State.setCore_fr (s : State) (c : Nat) (k : Core) : (s.setCore c k).fr = s.fr := rfl
@[simp] theorem State.setCore_ev (s : State) (c : Nat) (k : Core) : (s.setCore c k).ev = s.ev := rfl
@[simp] theorem State.setCore_agenda (s : State) (c : Nat) (k : Core) : (s.setCore c k).agenda = s.agenda := rfl
@[simp] theorem State.setCore_free (s : State) (c : Nat) (k : Core) : (s.setCore c k).free = s.free := rfl

@[simp] theorem State.setDie_cores (s : State) (d : Nat) (x : Die) : (s.setDie d x).cores = s.cores := rfl
@[simp] theorem State.setDie_pairs (s : State) (d : Nat) (x : Die) : (s.setDie d x).pairs = s.pairs := rfl
@[simp] theorem State.setDie_clusters (s : State) (d : Nat) (x : Die) : (s.setDie d x).clusters = s.clusters := rfl
@[simp] theorem State.setDie_mem (s : State) (d : Nat) (x : Die) : (s.setDie d x).mem = s.mem := rfl
@[simp] theorem State.setDie_flaws (s : State) (d : Nat) (x : Die) : (s.setDie d x).flaws = s.flaws := rfl
@[simp] theorem State.setDie_wcc (s : State) (d : Nat) (x : Die) : (s.setDie d x).wcc = s.wcc := rfl
@[simp] theorem State.setDie_seedlog (s : State) (d : Nat) (x : Die) : (s.setDie d x).seedlog = s.seedlog := rfl
@[simp] theorem State.setDie_entropyBad (s : State) (d : Nat) (x : Die) : (s.setDie d x).entropyBad = s.entropyBad := rfl
@[simp] theorem State.setDie_astab (s : State) (d : Nat) (x : Die) : (s.setDie d x).astab = s.astab := rfl
@[simp] theorem State.setDie_power (s : State) (d : Nat) (x : Die) : (s.setDie d x).power = s.power := rfl
@[simp] theorem State.setDie_hiblist (s : State) (d : Nat) (x : Die) : (s.setDie d x).hiblist = s.hiblist := rfl
@[simp] theorem State.setDie_kept (s : State) (d : Nat) (x : Die) : (s.setDie d x).kept = s.kept := rfl
@[simp] theorem State.setDie_ten (s : State) (d : Nat) (x : Die) : (s.setDie d x).ten = s.ten := rfl
@[simp] theorem State.setDie_launches (s : State) (d : Nat) (x : Die) : (s.setDie d x).launches = s.launches := rfl
@[simp] theorem State.setDie_lnext (s : State) (d : Nat) (x : Die) : (s.setDie d x).lnext = s.lnext := rfl
@[simp] theorem State.setDie_subqs (s : State) (d : Nat) (x : Die) : (s.setDie d x).subqs = s.subqs := rfl
@[simp] theorem State.setDie_modnum (s : State) (d : Nat) (x : Die) : (s.setDie d x).modnum = s.modnum := rfl
@[simp] theorem State.setDie_ports (s : State) (d : Nat) (x : Die) : (s.setDie d x).ports = s.ports := rfl
@[simp] theorem State.setDie_links (s : State) (d : Nat) (x : Die) : (s.setDie d x).links = s.links := rfl
@[simp] theorem State.setDie_pseqs (s : State) (d : Nat) (x : Die) : (s.setDie d x).pseqs = s.pseqs := rfl
@[simp] theorem State.setDie_sents (s : State) (d : Nat) (x : Die) : (s.setDie d x).sents = s.sents := rfl
@[simp] theorem State.setDie_served (s : State) (d : Nat) (x : Die) : (s.setDie d x).served = s.served := rfl
@[simp] theorem State.setDie_groups (s : State) (d : Nat) (x : Die) : (s.setDie d x).groups = s.groups := rfl
@[simp] theorem State.setDie_colls (s : State) (d : Nat) (x : Die) : (s.setDie d x).colls = s.colls := rfl
@[simp] theorem State.setDie_recvs (s : State) (d : Nat) (x : Die) : (s.setDie d x).recvs = s.recvs := rfl
@[simp] theorem State.setDie_early (s : State) (d : Nat) (x : Die) : (s.setDie d x).early = s.early := rfl
@[simp] theorem State.setDie_rts (s : State) (d : Nat) (x : Die) : (s.setDie d x).rts = s.rts := rfl
@[simp] theorem State.setDie_owed (s : State) (d : Nat) (x : Die) : (s.setDie d x).owed = s.owed := rfl
@[simp] theorem State.setDie_directory (s : State) (d : Nat) (x : Die) : (s.setDie d x).directory = s.directory := rfl
@[simp] theorem State.setDie_hostLines (s : State) (d : Nat) (x : Die) : (s.setDie d x).hostLines = s.hostLines := rfl
@[simp] theorem State.setDie_msix (s : State) (d : Nat) (x : Die) : (s.setDie d x).msix = s.msix := rfl
@[simp] theorem State.setDie_fr (s : State) (d : Nat) (x : Die) : (s.setDie d x).fr = s.fr := rfl
@[simp] theorem State.setDie_ev (s : State) (d : Nat) (x : Die) : (s.setDie d x).ev = s.ev := rfl
@[simp] theorem State.setDie_agenda (s : State) (d : Nat) (x : Die) : (s.setDie d x).agenda = s.agenda := rfl
@[simp] theorem State.setDie_free (s : State) (d : Nat) (x : Die) : (s.setDie d x).free = s.free := rfl

@[simp] theorem State.setPair_cores (s : State) (p : Nat) (x : Pair) : (s.setPair p x).cores = s.cores := rfl
@[simp] theorem State.setPair_clusters (s : State) (p : Nat) (x : Pair) : (s.setPair p x).clusters = s.clusters := rfl
@[simp] theorem State.setPair_dies (s : State) (p : Nat) (x : Pair) : (s.setPair p x).dies = s.dies := rfl
@[simp] theorem State.setPair_mem (s : State) (p : Nat) (x : Pair) : (s.setPair p x).mem = s.mem := rfl
@[simp] theorem State.setPair_flaws (s : State) (p : Nat) (x : Pair) : (s.setPair p x).flaws = s.flaws := rfl
@[simp] theorem State.setPair_wcc (s : State) (p : Nat) (x : Pair) : (s.setPair p x).wcc = s.wcc := rfl
@[simp] theorem State.setPair_seedlog (s : State) (p : Nat) (x : Pair) : (s.setPair p x).seedlog = s.seedlog := rfl
@[simp] theorem State.setPair_entropyBad (s : State) (p : Nat) (x : Pair) : (s.setPair p x).entropyBad = s.entropyBad := rfl
@[simp] theorem State.setPair_astab (s : State) (p : Nat) (x : Pair) : (s.setPair p x).astab = s.astab := rfl
@[simp] theorem State.setPair_power (s : State) (p : Nat) (x : Pair) : (s.setPair p x).power = s.power := rfl
@[simp] theorem State.setPair_hiblist (s : State) (p : Nat) (x : Pair) : (s.setPair p x).hiblist = s.hiblist := rfl
@[simp] theorem State.setPair_kept (s : State) (p : Nat) (x : Pair) : (s.setPair p x).kept = s.kept := rfl
@[simp] theorem State.setPair_ten (s : State) (p : Nat) (x : Pair) : (s.setPair p x).ten = s.ten := rfl
@[simp] theorem State.setPair_launches (s : State) (p : Nat) (x : Pair) : (s.setPair p x).launches = s.launches := rfl
@[simp] theorem State.setPair_lnext (s : State) (p : Nat) (x : Pair) : (s.setPair p x).lnext = s.lnext := rfl
@[simp] theorem State.setPair_subqs (s : State) (p : Nat) (x : Pair) : (s.setPair p x).subqs = s.subqs := rfl
@[simp] theorem State.setPair_modnum (s : State) (p : Nat) (x : Pair) : (s.setPair p x).modnum = s.modnum := rfl
@[simp] theorem State.setPair_ports (s : State) (p : Nat) (x : Pair) : (s.setPair p x).ports = s.ports := rfl
@[simp] theorem State.setPair_links (s : State) (p : Nat) (x : Pair) : (s.setPair p x).links = s.links := rfl
@[simp] theorem State.setPair_pseqs (s : State) (p : Nat) (x : Pair) : (s.setPair p x).pseqs = s.pseqs := rfl
@[simp] theorem State.setPair_sents (s : State) (p : Nat) (x : Pair) : (s.setPair p x).sents = s.sents := rfl
@[simp] theorem State.setPair_served (s : State) (p : Nat) (x : Pair) : (s.setPair p x).served = s.served := rfl
@[simp] theorem State.setPair_groups (s : State) (p : Nat) (x : Pair) : (s.setPair p x).groups = s.groups := rfl
@[simp] theorem State.setPair_colls (s : State) (p : Nat) (x : Pair) : (s.setPair p x).colls = s.colls := rfl
@[simp] theorem State.setPair_recvs (s : State) (p : Nat) (x : Pair) : (s.setPair p x).recvs = s.recvs := rfl
@[simp] theorem State.setPair_early (s : State) (p : Nat) (x : Pair) : (s.setPair p x).early = s.early := rfl
@[simp] theorem State.setPair_rts (s : State) (p : Nat) (x : Pair) : (s.setPair p x).rts = s.rts := rfl
@[simp] theorem State.setPair_owed (s : State) (p : Nat) (x : Pair) : (s.setPair p x).owed = s.owed := rfl
@[simp] theorem State.setPair_directory (s : State) (p : Nat) (x : Pair) : (s.setPair p x).directory = s.directory := rfl
@[simp] theorem State.setPair_hostLines (s : State) (p : Nat) (x : Pair) : (s.setPair p x).hostLines = s.hostLines := rfl
@[simp] theorem State.setPair_msix (s : State) (p : Nat) (x : Pair) : (s.setPair p x).msix = s.msix := rfl
@[simp] theorem State.setPair_fr (s : State) (p : Nat) (x : Pair) : (s.setPair p x).fr = s.fr := rfl
@[simp] theorem State.setPair_ev (s : State) (p : Nat) (x : Pair) : (s.setPair p x).ev = s.ev := rfl
@[simp] theorem State.setPair_agenda (s : State) (p : Nat) (x : Pair) : (s.setPair p x).agenda = s.agenda := rfl
@[simp] theorem State.setPair_free (s : State) (p : Nat) (x : Pair) : (s.setPair p x).free = s.free := rfl

@[simp] theorem State.setFr_cores (s : State) (f : Frame) : (s.setFr f).cores = s.cores := rfl
@[simp] theorem State.setFr_pairs (s : State) (f : Frame) : (s.setFr f).pairs = s.pairs := rfl
@[simp] theorem State.setFr_clusters (s : State) (f : Frame) : (s.setFr f).clusters = s.clusters := rfl
@[simp] theorem State.setFr_dies (s : State) (f : Frame) : (s.setFr f).dies = s.dies := rfl
@[simp] theorem State.setFr_mem (s : State) (f : Frame) : (s.setFr f).mem = s.mem := rfl
@[simp] theorem State.setFr_flaws (s : State) (f : Frame) : (s.setFr f).flaws = s.flaws := rfl
@[simp] theorem State.setFr_wcc (s : State) (f : Frame) : (s.setFr f).wcc = s.wcc := rfl
@[simp] theorem State.setFr_seedlog (s : State) (f : Frame) : (s.setFr f).seedlog = s.seedlog := rfl
@[simp] theorem State.setFr_entropyBad (s : State) (f : Frame) : (s.setFr f).entropyBad = s.entropyBad := rfl
@[simp] theorem State.setFr_astab (s : State) (f : Frame) : (s.setFr f).astab = s.astab := rfl
@[simp] theorem State.setFr_power (s : State) (f : Frame) : (s.setFr f).power = s.power := rfl
@[simp] theorem State.setFr_hiblist (s : State) (f : Frame) : (s.setFr f).hiblist = s.hiblist := rfl
@[simp] theorem State.setFr_kept (s : State) (f : Frame) : (s.setFr f).kept = s.kept := rfl
@[simp] theorem State.setFr_ten (s : State) (f : Frame) : (s.setFr f).ten = s.ten := rfl
@[simp] theorem State.setFr_launches (s : State) (f : Frame) : (s.setFr f).launches = s.launches := rfl
@[simp] theorem State.setFr_lnext (s : State) (f : Frame) : (s.setFr f).lnext = s.lnext := rfl
@[simp] theorem State.setFr_subqs (s : State) (f : Frame) : (s.setFr f).subqs = s.subqs := rfl
@[simp] theorem State.setFr_modnum (s : State) (f : Frame) : (s.setFr f).modnum = s.modnum := rfl
@[simp] theorem State.setFr_ports (s : State) (f : Frame) : (s.setFr f).ports = s.ports := rfl
@[simp] theorem State.setFr_links (s : State) (f : Frame) : (s.setFr f).links = s.links := rfl
@[simp] theorem State.setFr_pseqs (s : State) (f : Frame) : (s.setFr f).pseqs = s.pseqs := rfl
@[simp] theorem State.setFr_sents (s : State) (f : Frame) : (s.setFr f).sents = s.sents := rfl
@[simp] theorem State.setFr_served (s : State) (f : Frame) : (s.setFr f).served = s.served := rfl
@[simp] theorem State.setFr_groups (s : State) (f : Frame) : (s.setFr f).groups = s.groups := rfl
@[simp] theorem State.setFr_colls (s : State) (f : Frame) : (s.setFr f).colls = s.colls := rfl
@[simp] theorem State.setFr_recvs (s : State) (f : Frame) : (s.setFr f).recvs = s.recvs := rfl
@[simp] theorem State.setFr_early (s : State) (f : Frame) : (s.setFr f).early = s.early := rfl
@[simp] theorem State.setFr_rts (s : State) (f : Frame) : (s.setFr f).rts = s.rts := rfl
@[simp] theorem State.setFr_owed (s : State) (f : Frame) : (s.setFr f).owed = s.owed := rfl
@[simp] theorem State.setFr_directory (s : State) (f : Frame) : (s.setFr f).directory = s.directory := rfl
@[simp] theorem State.setFr_hostLines (s : State) (f : Frame) : (s.setFr f).hostLines = s.hostLines := rfl
@[simp] theorem State.setFr_msix (s : State) (f : Frame) : (s.setFr f).msix = s.msix := rfl
@[simp] theorem State.setFr_ev (s : State) (f : Frame) : (s.setFr f).ev = s.ev := rfl
@[simp] theorem State.setFr_agenda (s : State) (f : Frame) : (s.setFr f).agenda = s.agenda := rfl
@[simp] theorem State.setFr_free (s : State) (f : Frame) : (s.setFr f).free = s.free := rfl

@[simp] theorem State.setCtx_pairs (s : State) (c : Nat) (x : Fin 4) (v : Ctx) : (s.setCtx c x v).pairs = s.pairs := rfl
@[simp] theorem State.setCtx_clusters (s : State) (c : Nat) (x : Fin 4) (v : Ctx) : (s.setCtx c x v).clusters = s.clusters := rfl
@[simp] theorem State.setCtx_dies (s : State) (c : Nat) (x : Fin 4) (v : Ctx) : (s.setCtx c x v).dies = s.dies := rfl
@[simp] theorem State.setCtx_mem (s : State) (c : Nat) (x : Fin 4) (v : Ctx) : (s.setCtx c x v).mem = s.mem := rfl
@[simp] theorem State.setCtx_flaws (s : State) (c : Nat) (x : Fin 4) (v : Ctx) : (s.setCtx c x v).flaws = s.flaws := rfl
@[simp] theorem State.setCtx_wcc (s : State) (c : Nat) (x : Fin 4) (v : Ctx) : (s.setCtx c x v).wcc = s.wcc := rfl
@[simp] theorem State.setCtx_seedlog (s : State) (c : Nat) (x : Fin 4) (v : Ctx) : (s.setCtx c x v).seedlog = s.seedlog := rfl
@[simp] theorem State.setCtx_entropyBad (s : State) (c : Nat) (x : Fin 4) (v : Ctx) : (s.setCtx c x v).entropyBad = s.entropyBad := rfl
@[simp] theorem State.setCtx_astab (s : State) (c : Nat) (x : Fin 4) (v : Ctx) : (s.setCtx c x v).astab = s.astab := rfl
@[simp] theorem State.setCtx_power (s : State) (c : Nat) (x : Fin 4) (v : Ctx) : (s.setCtx c x v).power = s.power := rfl
@[simp] theorem State.setCtx_hiblist (s : State) (c : Nat) (x : Fin 4) (v : Ctx) : (s.setCtx c x v).hiblist = s.hiblist := rfl
@[simp] theorem State.setCtx_kept (s : State) (c : Nat) (x : Fin 4) (v : Ctx) : (s.setCtx c x v).kept = s.kept := rfl
@[simp] theorem State.setCtx_ten (s : State) (c : Nat) (x : Fin 4) (v : Ctx) : (s.setCtx c x v).ten = s.ten := rfl
@[simp] theorem State.setCtx_launches (s : State) (c : Nat) (x : Fin 4) (v : Ctx) : (s.setCtx c x v).launches = s.launches := rfl
@[simp] theorem State.setCtx_lnext (s : State) (c : Nat) (x : Fin 4) (v : Ctx) : (s.setCtx c x v).lnext = s.lnext := rfl
@[simp] theorem State.setCtx_subqs (s : State) (c : Nat) (x : Fin 4) (v : Ctx) : (s.setCtx c x v).subqs = s.subqs := rfl
@[simp] theorem State.setCtx_modnum (s : State) (c : Nat) (x : Fin 4) (v : Ctx) : (s.setCtx c x v).modnum = s.modnum := rfl
@[simp] theorem State.setCtx_ports (s : State) (c : Nat) (x : Fin 4) (v : Ctx) : (s.setCtx c x v).ports = s.ports := rfl
@[simp] theorem State.setCtx_links (s : State) (c : Nat) (x : Fin 4) (v : Ctx) : (s.setCtx c x v).links = s.links := rfl
@[simp] theorem State.setCtx_pseqs (s : State) (c : Nat) (x : Fin 4) (v : Ctx) : (s.setCtx c x v).pseqs = s.pseqs := rfl
@[simp] theorem State.setCtx_sents (s : State) (c : Nat) (x : Fin 4) (v : Ctx) : (s.setCtx c x v).sents = s.sents := rfl
@[simp] theorem State.setCtx_served (s : State) (c : Nat) (x : Fin 4) (v : Ctx) : (s.setCtx c x v).served = s.served := rfl
@[simp] theorem State.setCtx_groups (s : State) (c : Nat) (x : Fin 4) (v : Ctx) : (s.setCtx c x v).groups = s.groups := rfl
@[simp] theorem State.setCtx_colls (s : State) (c : Nat) (x : Fin 4) (v : Ctx) : (s.setCtx c x v).colls = s.colls := rfl
@[simp] theorem State.setCtx_recvs (s : State) (c : Nat) (x : Fin 4) (v : Ctx) : (s.setCtx c x v).recvs = s.recvs := rfl
@[simp] theorem State.setCtx_early (s : State) (c : Nat) (x : Fin 4) (v : Ctx) : (s.setCtx c x v).early = s.early := rfl
@[simp] theorem State.setCtx_rts (s : State) (c : Nat) (x : Fin 4) (v : Ctx) : (s.setCtx c x v).rts = s.rts := rfl
@[simp] theorem State.setCtx_owed (s : State) (c : Nat) (x : Fin 4) (v : Ctx) : (s.setCtx c x v).owed = s.owed := rfl
@[simp] theorem State.setCtx_directory (s : State) (c : Nat) (x : Fin 4) (v : Ctx) : (s.setCtx c x v).directory = s.directory := rfl
@[simp] theorem State.setCtx_hostLines (s : State) (c : Nat) (x : Fin 4) (v : Ctx) : (s.setCtx c x v).hostLines = s.hostLines := rfl
@[simp] theorem State.setCtx_msix (s : State) (c : Nat) (x : Fin 4) (v : Ctx) : (s.setCtx c x v).msix = s.msix := rfl
@[simp] theorem State.setCtx_fr (s : State) (c : Nat) (x : Fin 4) (v : Ctx) : (s.setCtx c x v).fr = s.fr := rfl
@[simp] theorem State.setCtx_ev (s : State) (c : Nat) (x : Fin 4) (v : Ctx) : (s.setCtx c x v).ev = s.ev := rfl
@[simp] theorem State.setCtx_agenda (s : State) (c : Nat) (x : Fin 4) (v : Ctx) : (s.setCtx c x v).agenda = s.agenda := rfl
@[simp] theorem State.setCtx_free (s : State) (c : Nat) (x : Fin 4) (v : Ctx) : (s.setCtx c x v).free = s.free := rfl

@[simp] theorem State.setMe_pairs (s : State) (v : Ctx) : (s.setMe v).pairs = s.pairs := rfl
@[simp] theorem State.setMe_clusters (s : State) (v : Ctx) : (s.setMe v).clusters = s.clusters := rfl
@[simp] theorem State.setMe_dies (s : State) (v : Ctx) : (s.setMe v).dies = s.dies := rfl
@[simp] theorem State.setMe_mem (s : State) (v : Ctx) : (s.setMe v).mem = s.mem := rfl
@[simp] theorem State.setMe_flaws (s : State) (v : Ctx) : (s.setMe v).flaws = s.flaws := rfl
@[simp] theorem State.setMe_wcc (s : State) (v : Ctx) : (s.setMe v).wcc = s.wcc := rfl
@[simp] theorem State.setMe_seedlog (s : State) (v : Ctx) : (s.setMe v).seedlog = s.seedlog := rfl
@[simp] theorem State.setMe_entropyBad (s : State) (v : Ctx) : (s.setMe v).entropyBad = s.entropyBad := rfl
@[simp] theorem State.setMe_astab (s : State) (v : Ctx) : (s.setMe v).astab = s.astab := rfl
@[simp] theorem State.setMe_power (s : State) (v : Ctx) : (s.setMe v).power = s.power := rfl
@[simp] theorem State.setMe_hiblist (s : State) (v : Ctx) : (s.setMe v).hiblist = s.hiblist := rfl
@[simp] theorem State.setMe_kept (s : State) (v : Ctx) : (s.setMe v).kept = s.kept := rfl
@[simp] theorem State.setMe_ten (s : State) (v : Ctx) : (s.setMe v).ten = s.ten := rfl
@[simp] theorem State.setMe_launches (s : State) (v : Ctx) : (s.setMe v).launches = s.launches := rfl
@[simp] theorem State.setMe_lnext (s : State) (v : Ctx) : (s.setMe v).lnext = s.lnext := rfl
@[simp] theorem State.setMe_subqs (s : State) (v : Ctx) : (s.setMe v).subqs = s.subqs := rfl
@[simp] theorem State.setMe_modnum (s : State) (v : Ctx) : (s.setMe v).modnum = s.modnum := rfl
@[simp] theorem State.setMe_ports (s : State) (v : Ctx) : (s.setMe v).ports = s.ports := rfl
@[simp] theorem State.setMe_links (s : State) (v : Ctx) : (s.setMe v).links = s.links := rfl
@[simp] theorem State.setMe_pseqs (s : State) (v : Ctx) : (s.setMe v).pseqs = s.pseqs := rfl
@[simp] theorem State.setMe_sents (s : State) (v : Ctx) : (s.setMe v).sents = s.sents := rfl
@[simp] theorem State.setMe_served (s : State) (v : Ctx) : (s.setMe v).served = s.served := rfl
@[simp] theorem State.setMe_groups (s : State) (v : Ctx) : (s.setMe v).groups = s.groups := rfl
@[simp] theorem State.setMe_colls (s : State) (v : Ctx) : (s.setMe v).colls = s.colls := rfl
@[simp] theorem State.setMe_recvs (s : State) (v : Ctx) : (s.setMe v).recvs = s.recvs := rfl
@[simp] theorem State.setMe_early (s : State) (v : Ctx) : (s.setMe v).early = s.early := rfl
@[simp] theorem State.setMe_rts (s : State) (v : Ctx) : (s.setMe v).rts = s.rts := rfl
@[simp] theorem State.setMe_owed (s : State) (v : Ctx) : (s.setMe v).owed = s.owed := rfl
@[simp] theorem State.setMe_directory (s : State) (v : Ctx) : (s.setMe v).directory = s.directory := rfl
@[simp] theorem State.setMe_hostLines (s : State) (v : Ctx) : (s.setMe v).hostLines = s.hostLines := rfl
@[simp] theorem State.setMe_msix (s : State) (v : Ctx) : (s.setMe v).msix = s.msix := rfl
@[simp] theorem State.setMe_fr (s : State) (v : Ctx) : (s.setMe v).fr = s.fr := rfl
@[simp] theorem State.setMe_ev (s : State) (v : Ctx) : (s.setMe v).ev = s.ev := rfl
@[simp] theorem State.setMe_agenda (s : State) (v : Ctx) : (s.setMe v).agenda = s.agenda := rfl
@[simp] theorem State.setMe_free (s : State) (v : Ctx) : (s.setMe v).free = s.free := rfl

@[simp] theorem State.setMyCore_pairs (s : State) (k : Core) : (s.setMyCore k).pairs = s.pairs := rfl
@[simp] theorem State.setMyCore_clusters (s : State) (k : Core) : (s.setMyCore k).clusters = s.clusters := rfl
@[simp] theorem State.setMyCore_dies (s : State) (k : Core) : (s.setMyCore k).dies = s.dies := rfl
@[simp] theorem State.setMyCore_mem (s : State) (k : Core) : (s.setMyCore k).mem = s.mem := rfl
@[simp] theorem State.setMyCore_flaws (s : State) (k : Core) : (s.setMyCore k).flaws = s.flaws := rfl
@[simp] theorem State.setMyCore_wcc (s : State) (k : Core) : (s.setMyCore k).wcc = s.wcc := rfl
@[simp] theorem State.setMyCore_seedlog (s : State) (k : Core) : (s.setMyCore k).seedlog = s.seedlog := rfl
@[simp] theorem State.setMyCore_entropyBad (s : State) (k : Core) : (s.setMyCore k).entropyBad = s.entropyBad := rfl
@[simp] theorem State.setMyCore_astab (s : State) (k : Core) : (s.setMyCore k).astab = s.astab := rfl
@[simp] theorem State.setMyCore_power (s : State) (k : Core) : (s.setMyCore k).power = s.power := rfl
@[simp] theorem State.setMyCore_hiblist (s : State) (k : Core) : (s.setMyCore k).hiblist = s.hiblist := rfl
@[simp] theorem State.setMyCore_kept (s : State) (k : Core) : (s.setMyCore k).kept = s.kept := rfl
@[simp] theorem State.setMyCore_ten (s : State) (k : Core) : (s.setMyCore k).ten = s.ten := rfl
@[simp] theorem State.setMyCore_launches (s : State) (k : Core) : (s.setMyCore k).launches = s.launches := rfl
@[simp] theorem State.setMyCore_lnext (s : State) (k : Core) : (s.setMyCore k).lnext = s.lnext := rfl
@[simp] theorem State.setMyCore_subqs (s : State) (k : Core) : (s.setMyCore k).subqs = s.subqs := rfl
@[simp] theorem State.setMyCore_modnum (s : State) (k : Core) : (s.setMyCore k).modnum = s.modnum := rfl
@[simp] theorem State.setMyCore_ports (s : State) (k : Core) : (s.setMyCore k).ports = s.ports := rfl
@[simp] theorem State.setMyCore_links (s : State) (k : Core) : (s.setMyCore k).links = s.links := rfl
@[simp] theorem State.setMyCore_pseqs (s : State) (k : Core) : (s.setMyCore k).pseqs = s.pseqs := rfl
@[simp] theorem State.setMyCore_sents (s : State) (k : Core) : (s.setMyCore k).sents = s.sents := rfl
@[simp] theorem State.setMyCore_served (s : State) (k : Core) : (s.setMyCore k).served = s.served := rfl
@[simp] theorem State.setMyCore_groups (s : State) (k : Core) : (s.setMyCore k).groups = s.groups := rfl
@[simp] theorem State.setMyCore_colls (s : State) (k : Core) : (s.setMyCore k).colls = s.colls := rfl
@[simp] theorem State.setMyCore_recvs (s : State) (k : Core) : (s.setMyCore k).recvs = s.recvs := rfl
@[simp] theorem State.setMyCore_early (s : State) (k : Core) : (s.setMyCore k).early = s.early := rfl
@[simp] theorem State.setMyCore_rts (s : State) (k : Core) : (s.setMyCore k).rts = s.rts := rfl
@[simp] theorem State.setMyCore_owed (s : State) (k : Core) : (s.setMyCore k).owed = s.owed := rfl
@[simp] theorem State.setMyCore_directory (s : State) (k : Core) : (s.setMyCore k).directory = s.directory := rfl
@[simp] theorem State.setMyCore_hostLines (s : State) (k : Core) : (s.setMyCore k).hostLines = s.hostLines := rfl
@[simp] theorem State.setMyCore_msix (s : State) (k : Core) : (s.setMyCore k).msix = s.msix := rfl
@[simp] theorem State.setMyCore_fr (s : State) (k : Core) : (s.setMyCore k).fr = s.fr := rfl
@[simp] theorem State.setMyCore_ev (s : State) (k : Core) : (s.setMyCore k).ev = s.ev := rfl
@[simp] theorem State.setMyCore_agenda (s : State) (k : Core) : (s.setMyCore k).agenda = s.agenda := rfl
@[simp] theorem State.setMyCore_free (s : State) (k : Core) : (s.setMyCore k).free = s.free := rfl

@[simp] theorem State.setMyDie_cores (s : State) (d : Die) : (s.setMyDie d).cores = s.cores := rfl
@[simp] theorem State.setMyDie_pairs (s : State) (d : Die) : (s.setMyDie d).pairs = s.pairs := rfl
@[simp] theorem State.setMyDie_clusters (s : State) (d : Die) : (s.setMyDie d).clusters = s.clusters := rfl
@[simp] theorem State.setMyDie_mem (s : State) (d : Die) : (s.setMyDie d).mem = s.mem := rfl
@[simp] theorem State.setMyDie_flaws (s : State) (d : Die) : (s.setMyDie d).flaws = s.flaws := rfl
@[simp] theorem State.setMyDie_wcc (s : State) (d : Die) : (s.setMyDie d).wcc = s.wcc := rfl
@[simp] theorem State.setMyDie_seedlog (s : State) (d : Die) : (s.setMyDie d).seedlog = s.seedlog := rfl
@[simp] theorem State.setMyDie_entropyBad (s : State) (d : Die) : (s.setMyDie d).entropyBad = s.entropyBad := rfl
@[simp] theorem State.setMyDie_astab (s : State) (d : Die) : (s.setMyDie d).astab = s.astab := rfl
@[simp] theorem State.setMyDie_power (s : State) (d : Die) : (s.setMyDie d).power = s.power := rfl
@[simp] theorem State.setMyDie_hiblist (s : State) (d : Die) : (s.setMyDie d).hiblist = s.hiblist := rfl
@[simp] theorem State.setMyDie_kept (s : State) (d : Die) : (s.setMyDie d).kept = s.kept := rfl
@[simp] theorem State.setMyDie_ten (s : State) (d : Die) : (s.setMyDie d).ten = s.ten := rfl
@[simp] theorem State.setMyDie_launches (s : State) (d : Die) : (s.setMyDie d).launches = s.launches := rfl
@[simp] theorem State.setMyDie_lnext (s : State) (d : Die) : (s.setMyDie d).lnext = s.lnext := rfl
@[simp] theorem State.setMyDie_subqs (s : State) (d : Die) : (s.setMyDie d).subqs = s.subqs := rfl
@[simp] theorem State.setMyDie_modnum (s : State) (d : Die) : (s.setMyDie d).modnum = s.modnum := rfl
@[simp] theorem State.setMyDie_ports (s : State) (d : Die) : (s.setMyDie d).ports = s.ports := rfl
@[simp] theorem State.setMyDie_links (s : State) (d : Die) : (s.setMyDie d).links = s.links := rfl
@[simp] theorem State.setMyDie_pseqs (s : State) (d : Die) : (s.setMyDie d).pseqs = s.pseqs := rfl
@[simp] theorem State.setMyDie_sents (s : State) (d : Die) : (s.setMyDie d).sents = s.sents := rfl
@[simp] theorem State.setMyDie_served (s : State) (d : Die) : (s.setMyDie d).served = s.served := rfl
@[simp] theorem State.setMyDie_groups (s : State) (d : Die) : (s.setMyDie d).groups = s.groups := rfl
@[simp] theorem State.setMyDie_colls (s : State) (d : Die) : (s.setMyDie d).colls = s.colls := rfl
@[simp] theorem State.setMyDie_recvs (s : State) (d : Die) : (s.setMyDie d).recvs = s.recvs := rfl
@[simp] theorem State.setMyDie_early (s : State) (d : Die) : (s.setMyDie d).early = s.early := rfl
@[simp] theorem State.setMyDie_rts (s : State) (d : Die) : (s.setMyDie d).rts = s.rts := rfl
@[simp] theorem State.setMyDie_owed (s : State) (d : Die) : (s.setMyDie d).owed = s.owed := rfl
@[simp] theorem State.setMyDie_directory (s : State) (d : Die) : (s.setMyDie d).directory = s.directory := rfl
@[simp] theorem State.setMyDie_hostLines (s : State) (d : Die) : (s.setMyDie d).hostLines = s.hostLines := rfl
@[simp] theorem State.setMyDie_msix (s : State) (d : Die) : (s.setMyDie d).msix = s.msix := rfl
@[simp] theorem State.setMyDie_fr (s : State) (d : Die) : (s.setMyDie d).fr = s.fr := rfl
@[simp] theorem State.setMyDie_ev (s : State) (d : Die) : (s.setMyDie d).ev = s.ev := rfl
@[simp] theorem State.setMyDie_agenda (s : State) (d : Die) : (s.setMyDie d).agenda = s.agenda := rfl
@[simp] theorem State.setMyDie_free (s : State) (d : Die) : (s.setMyDie d).free = s.free := rfl

@[simp] theorem Core.setCtx_holder (k : Core) (x : Fin 4) (v : Ctx) : (k.setCtx x v).holder = k.holder := rfl
@[simp] theorem Core.setCtx_last (k : Core) (x : Fin 4) (v : Ctx) : (k.setCtx x v).last = k.last := rfl
@[simp] theorem Core.setCtx_ran (k : Core) (x : Fin 4) (v : Ctx) : (k.setCtx x v).ran = k.ran := rfl
@[simp] theorem Core.setCtx_wait (k : Core) (x : Fin 4) (v : Ctx) : (k.setCtx x v).wait = k.wait := rfl
@[simp] theorem Core.setCtx_istore (k : Core) (x : Fin 4) (v : Ctx) : (k.setCtx x v).istore = k.istore := rfl
@[simp] theorem Core.setCtx_tiles (k : Core) (x : Fin 4) (v : Ctx) : (k.setCtx x v).tiles = k.tiles := rfl
@[simp] theorem Core.setCtx_shadow (k : Core) (x : Fin 4) (v : Ctx) : (k.setCtx x v).shadow = k.shadow := rfl
@[simp] theorem Core.setCtx_active (k : Core) (x : Fin 4) (v : Ctx) : (k.setCtx x v).active = k.active := rfl
@[simp] theorem Core.setCtx_nests (k : Core) (x : Fin 4) (v : Ctx) : (k.setCtx x v).nests = k.nests := rfl
@[simp] theorem Core.setCtx_twr (k : Core) (x : Fin 4) (v : Ctx) : (k.setCtx x v).twr = k.twr := rfl
@[simp] theorem Core.setCtx_regn (k : Core) (x : Fin 4) (v : Ctx) : (k.setCtx x v).regn = k.regn := rfl
@[simp] theorem Core.setCtx_mvshadow (k : Core) (x : Fin 4) (v : Ctx) : (k.setCtx x v).mvshadow = k.mvshadow := rfl
@[simp] theorem Core.setCtx_arrq (k : Core) (x : Fin 4) (v : Ctx) : (k.setCtx x v).arrq = k.arrq := rfl
@[simp] theorem Core.setCtx_retry (k : Core) (x : Fin 4) (v : Ctx) : (k.setCtx x v).retry = k.retry := rfl
@[simp] theorem Core.setCtx_away (k : Core) (x : Fin 4) (v : Ctx) : (k.setCtx x v).away = k.away := rfl
@[simp] theorem Core.setCtx_chans (k : Core) (x : Fin 4) (v : Ctx) : (k.setCtx x v).chans = k.chans := rfl
@[simp] theorem Core.setCtx_xfers (k : Core) (x : Fin 4) (v : Ctx) : (k.setCtx x v).xfers = k.xfers := rfl
@[simp] theorem Core.setCtx_faults (k : Core) (x : Fin 4) (v : Ctx) : (k.setCtx x v).faults = k.faults := rfl
@[simp] theorem Core.setCtx_resume (k : Core) (x : Fin 4) (v : Ctx) : (k.setCtx x v).resume = k.resume := rfl
@[simp] theorem Core.setCtx_pend (k : Core) (x : Fin 4) (v : Ctx) : (k.setCtx x v).pend = k.pend := rfl
@[simp] theorem Core.setCtx_bkpts (k : Core) (x : Fin 4) (v : Ctx) : (k.setCtx x v).bkpts = k.bkpts := rfl
@[simp] theorem Core.setCtx_cst (k : Core) (x : Fin 4) (v : Ctx) : (k.setCtx x v).cst = k.cst := rfl
@[simp] theorem Core.setCtx_ewt (k : Core) (x : Fin 4) (v : Ctx) : (k.setCtx x v).ewt = k.ewt := rfl
@[simp] theorem Core.setCtx_spwr (k : Core) (x : Fin 4) (v : Ctx) : (k.setCtx x v).spwr = k.spwr := rfl
@[simp] theorem Core.setCtx_icnt (k : Core) (x : Fin 4) (v : Ctx) : (k.setCtx x v).icnt = k.icnt := rfl
@[simp] theorem Core.setCtx_ires (k : Core) (x : Fin 4) (v : Ctx) : (k.setCtx x v).ires = k.ires := rfl
@[simp] theorem Core.setCtx_upsets (k : Core) (x : Fin 4) (v : Ctx) : (k.setCtx x v).upsets = k.upsets := rfl
@[simp] theorem Core.setCtx_did (k : Core) (x : Fin 4) (v : Ctx) : (k.setCtx x v).did = k.did := rfl
@[simp] theorem Core.setCtx_issued (k : Core) (x : Fin 4) (v : Ctx) : (k.setCtx x v).issued = k.issued := rfl
@[simp] theorem Core.setCtx_payer (k : Core) (x : Fin 4) (v : Ctx) : (k.setCtx x v).payer = k.payer := rfl

@[simp] theorem State.setFr_fr (s : State) (f : Frame) : (s.setFr f).fr = f := rfl

/-! ### Entries that were put -/

@[simp] theorem Core.ctx_setCtx (k : Core) (x : Fin 4) (v : Ctx) : (k.setCtx x v).ctx x = v := by
  simp [Core.ctx, Core.setCtx]

theorem Core.ctx_setCtx_ne (k : Core) {x y : Fin 4} (v : Ctx) (h : y ≠ x) : (k.setCtx x v).ctx y = k.ctx y := by
  have : x.val ≠ y.val := fun e => h (Fin.ext e.symm)
  simp [Core.ctx, Core.setCtx, Vector.getElem_set_ne, this]

@[simp] theorem Core.setCtx_setCtx (k : Core) (x : Fin 4) (v w : Ctx) : (k.setCtx x v).setCtx x w = k.setCtx x w := by
  simp [Core.setCtx]

@[simp] theorem State.core_setCore (s : State) (c : Nat) (k : Core) : (s.setCore c k).core c = k := by
  simp [State.core, State.setCore]

theorem State.core_setCore_ne (s : State) {c e : Nat} (k : Core) (h : e ≠ c) : (s.setCore c k).core e = s.core e := by
  simp [State.core, State.setCore, Table.get_put_ne, h]

@[simp] theorem State.setCore_setCore (s : State) (c : Nat) (k l : Core) : (s.setCore c k).setCore c l = s.setCore c l := by
  simp [State.setCore]

@[simp] theorem State.die_setDie (s : State) (d : Nat) (x : Die) : (s.setDie d x).die d = x := by
  simp [State.die, State.setDie]

theorem State.die_setDie_ne (s : State) {d e : Nat} (x : Die) (h : e ≠ d) : (s.setDie d x).die e = s.die e := by
  simp [State.die, State.setDie, Table.get_put_ne, h]

@[simp] theorem State.setDie_setDie (s : State) (d : Nat) (x y : Die) : (s.setDie d x).setDie d y = s.setDie d y := by
  simp [State.setDie]

@[simp] theorem State.pair_setPair (s : State) (p : Nat) (x : Pair) : (s.setPair p x).pair p = x := by
  simp [State.pair, State.setPair]

theorem State.pair_setPair_ne (s : State) {p q : Nat} (x : Pair) (h : q ≠ p) : (s.setPair p x).pair q = s.pair q := by
  simp [State.pair, State.setPair, Table.get_put_ne, h]

@[simp] theorem State.ctx_setCtx (s : State) (c : Nat) (x : Fin 4) (v : Ctx) : (s.setCtx c x v).ctx c x = v := by
  simp [State.ctx, State.setCtx]

@[simp] theorem State.setCtx_setCtx (s : State) (c : Nat) (x : Fin 4) (v w : Ctx) :
    (s.setCtx c x v).setCtx c x w = s.setCtx c x w := by
  simp [State.setCtx]

@[simp] theorem State.core_setCtx (s : State) (c : Nat) (x : Fin 4) (v : Ctx) : (s.setCtx c x v).core c = (s.core c).setCtx x v := by
  simp [State.setCtx]

@[simp] theorem State.me_setMe (s : State) (v : Ctx) : (s.setMe v).me = v := by simp [State.me, State.setMe]

@[simp] theorem State.setMe_setMe (s : State) (v w : Ctx) : (s.setMe v).setMe w = s.setMe w := by simp [State.setMe]

@[simp] theorem State.myCore_setMe (s : State) (v : Ctx) : (s.setMe v).myCore = s.myCore.setCtx s.fr.ctx v := by
  simp [State.myCore, State.setMe]

@[simp] theorem State.myDie_setMyDie (s : State) (d : Die) : (s.setMyDie d).myDie = d := by simp [State.myDie, State.setMyDie]

@[simp] theorem State.myDie_setMe (s : State) (v : Ctx) : (s.setMe v).myDie = s.myDie := rfl
@[simp] theorem State.me_setMyDie (s : State) (d : Die) : (s.setMyDie d).me = s.me := rfl
@[simp] theorem State.myCore_setMyDie (s : State) (d : Die) : (s.setMyDie d).myCore = s.myCore := rfl

/-- A die's state and a context's are written in either order. -/
theorem State.setMyDie_setMe (s : State) (d : Die) (v : Ctx) : (s.setMyDie d).setMe v = (s.setMe v).setMyDie d := rfl

/-! ### The frame of the issue in hand -/

theorem State.me_setFr (s : State) {f : Frame} (hc : f.core = s.fr.core) (hx : f.ctx = s.fr.ctx) : (s.setFr f).me = s.me := by
  show (s.core f.core).ctx f.ctx = (s.core s.fr.core).ctx s.fr.ctx
  rw [hc, hx]

theorem State.myCore_setFr (s : State) {f : Frame} (hc : f.core = s.fr.core) : (s.setFr f).myCore = s.myCore := by
  show s.core f.core = s.core s.fr.core
  rw [hc]

end Sys2Proof.Machine
end

