-- ==== Sys2Proof/Laws/Issue.lean ====
section
/-! SUPPORT. What the shared operations of an issue do (R79, R84, R86, R112, R233): each lemma says all of it, so that a
statement about an instruction needs only the instruction's own effect. -/

namespace Sys2Proof.Machine

open Sys2Proof.Rules

/-! ### The frame of a bundle of one syllable -/

@[simp] theorem Frame.solo_core (f : Frame) : f.solo.core = f.core := rfl
@[simp] theorem Frame.solo_ctx (f : Frame) : f.solo.ctx = f.ctx := rfl
@[simp] theorem Frame.solo_lits (f : Frame) : f.solo.lits = f.lits := rfl
@[simp] theorem Frame.solo_cap (f : Frame) : f.solo.cap = f.cap := rfl
@[simp] theorem Frame.solo_next (f : Frame) : f.solo.next = f.next := rfl
@[simp] theorem Frame.solo_tmpl (f : Frame) : f.solo.tmpl = f.tmpl := rfl
@[simp] theorem Frame.solo_snap (f : Frame) : f.solo.snap = f.snap := rfl
@[simp] theorem Frame.solo_base (f : Frame) : f.solo.base = f.base := rfl
@[simp] theorem Frame.solo_branch (f : Frame) : f.solo.branch = none := rfl
@[simp] theorem Frame.solo_loop (f : Frame) : f.solo.loop = false := rfl
@[simp] theorem Frame.solo_trap (f : Frame) : f.solo.trap = none := rfl
@[simp] theorem Frame.solo_eret (f : Frame) : f.solo.eret = false := rfl
@[simp] theorem Frame.solo_yield (f : Frame) : f.solo.yield = false := rfl
@[simp] theorem Frame.solo_tend (f : Frame) : f.solo.tend = none := rfl
@[simp] theorem Frame.solo_draw (f : Frame) : f.solo.draw = none := rfl

@[simp] theorem State.me_solo (s : State) : (s.setFr s.fr.solo).me = s.me := rfl
@[simp] theorem State.myCore_solo (s : State) : (s.setFr s.fr.solo).myCore = s.myCore := rfl
@[simp] theorem State.myDie_solo (s : State) : (s.setFr s.fr.solo).myDie = s.myDie := rfl

/-- What a bundle asks of Control (R79): nothing but to pass on. -/
structure Frame.Plain (f : Frame) : Prop where
  branch : f.branch = none
  loop : f.loop = false
  trap : f.trap = none
  eret : f.eret = false
  yield : f.yield = false
  tend : f.tend = none

theorem Frame.solo_plain (f : Frame) : f.solo.Plain := ⟨rfl, rfl, rfl, rfl, rfl, rfl⟩

/-! ### Results entering flight -/

/-- A result enters flight at the end of the issuing context's list. -/
theorem State.put_eq (s : State) (slot lat : Nat) (d : Dest) (w : Word) (v : Lanes) (lanes : Word) (fl : Fl) :
    s.put slot lat d w v lanes fl =
      s.setMe { s.me with land := s.me.land ++ [(Result.mk slot lat d w v lanes fl).landing s.me.ord] } := rfl

/-- The context with more results in flight. -/
def Ctx.addLand (c : Ctx) (l : List Landing) : Ctx := { c with land := c.land ++ l }

@[simp] theorem Ctx.addLand_addLand (c : Ctx) (l m : List Landing) : (c.addLand l).addLand m = c.addLand (l ++ m) := by
  simp [Ctx.addLand]

theorem State.put_addLand (s : State) (slot lat : Nat) (d : Dest) (w : Word) (v : Lanes) (lanes : Word) (fl : Fl) :
    s.put slot lat d w v lanes fl = s.setMe (s.me.addLand [(Result.mk slot lat d w v lanes fl).landing s.me.ord]) := rfl

@[simp] theorem Ctx.addLand_regs (c : Ctx) (l : List Landing) : (c.addLand l).regs = c.regs := rfl
@[simp] theorem Ctx.addLand_sys (c : Ctx) (l : List Landing) : (c.addLand l).sys = c.sys := rfl
@[simp] theorem Ctx.addLand_ord (c : Ctx) (l : List Landing) : (c.addLand l).ord = c.ord := rfl
@[simp] theorem Ctx.addLand_lsa (c : Ctx) (l : List Landing) : (c.addLand l).lsa = c.lsa := rfl

/-- Results that enter flight one after the other, each given by a function of registers alone. -/
theorem State.foldl_put {α : Type} (l : List α) (g : State → α → State) (r : State → α → Result)
    (hg : ∀ s a, g s a = s.setMe (s.me.addLand [(r s a).landing s.me.ord]))
    (hr : ∀ s a m, r (s.setMe (s.me.addLand m)) a = r s a) (s : State) (m : List Landing) :
    l.foldl g (s.setMe (s.me.addLand m)) = s.setMe (s.me.addLand (m ++ l.map fun a => (r s a).landing s.me.ord)) := by
  induction l generalizing m with
  | nil => simp
  | cons a l ih =>
    rw [List.foldl_cons, hg, hr, State.me_setMe, State.setMe_setMe, Ctx.addLand_addLand, Ctx.addLand_ord, ih]
    simp

theorem State.putP_addLand (s : State) (slot lat : Nat) (d : BitVec 3) (b : Bool) :
    s.putP slot lat d b =
      s.setMe (s.me.addLand [(Result.mk slot lat (.p ⟨d.toNat, d.isLt⟩) (if b then 1 else 0) [] 0 0).landing s.me.ord]) := rfl
theorem State.putSr_addLand (s : State) (slot lat n : Nat) (w : Word) :
    s.putSr slot lat n w = s.setMe (s.me.addLand [(Result.mk slot lat (.sr n) w [] 0 0).landing s.me.ord]) := rfl
theorem State.putS_addLand (s : State) (slot lat : Nat) (d : BitVec 5) (w : Word) :
    s.putS slot lat d w =
      s.setMe (s.me.addLand [(Result.mk slot lat (.s (physReg s.me.sys.rot d)) w [] 0 0).landing s.me.ord]) := rfl
theorem State.putM_addLand (s : State) (slot lat : Nat) (d : BitVec 3) (w : Word) (fl : Fl) :
    s.putM slot lat d w fl =
      s.setMe (s.me.addLand [(Result.mk slot lat (.m ⟨d.toNat, d.isLt⟩) w [] 0 fl).landing s.me.ord]) := rfl
theorem State.putV_addLand (s : State) (slot lat : Nat) (d : BitVec 5) (v : Lanes) (lanes : Word) (fl : Fl) :
    s.putV slot lat d v lanes fl =
      s.setMe (s.me.addLand [(Result.mk slot lat (.v (physReg s.me.sys.rot d)) 0 v lanes fl).landing s.me.ord]) := rfl
theorem State.putK_addLand (s : State) (slot lat : Nat) (d : BitVec 6) (w : Word) :
    s.putK slot lat d w =
      s.setMe (s.me.addLand [(Result.mk slot lat (.k ⟨d.toNat, d.isLt⟩) w [] 0 0).landing s.me.ord]) := rfl

/-- LoopEndUpdate (R112) in the terms of the statements: nothing while no loop is open. -/
theorem State.loopEnd_closed (s : State) (h : s.me.sys.nstg.toNat = 0) : s.loopEnd = (s, false) := by
  simp [State.loopEnd, h]

/-- LoopEndUpdate (R112) in the terms of the statements, while a loop is open. -/
theorem State.loopEnd_open (s : State) (h3 : s.fr.tmpl = 3) (h : s.me.sys.nstg.toNat ≠ 0) :
    s.loopEnd = (s.setMe (s.me.addLand ((loopResults s).map fun r => r.landing s.me.ord)), decide (s.me.sys.lc - 1 ≠ 0)) := by
  have fold := fun (m : List Landing) => State.foldl_put (List.range (s.me.sys.nstg.toNat - 1))
    (fun s' i => s'.putP 8 1 (BitVec.ofNat 3 (4 + (s.me.sys.nstg.toNat - 1 - i)))
      (s'.me.regs.pGet (BitVec.ofNat 3 (3 + (s.me.sys.nstg.toNat - 1 - i)))))
    (fun s' i => stageResult s' (s.me.sys.nstg.toNat - 1 - i))
    (fun s' i => rfl) (fun s' a m => by simp [stageResult]) s m
  unfold State.loopEnd
  simp only [h, if_false]
  have two : (s.putSr 8 1 0x10 ((s.me.sys.lc - 1).zeroExtend 64)).putSr 8 1 0x12 ((s.me.sys.rot - 1).zeroExtend 64) =
      s.setMe (s.me.addLand
        [(Result.mk 8 1 (.sr 0x10) ((s.me.sys.lc - 1).zeroExtend 64) [] 0 0).landing s.me.ord,
         (Result.mk 8 1 (.sr 0x12) ((s.me.sys.rot - 1).zeroExtend 64) [] 0 0).landing s.me.ord]) := by
    simp [State.putSr_addLand]
  rw [two, fold]
  unfold loopResults
  simp only [h3, h, ne_eq, not_true_eq_false, or_self, if_false]
  generalize s.me.sys.lc - 1 = lc
  by_cases hl : lc = 0#32
  · simp [hl, State.putP_addLand, State.putSr_addLand, Function.comp_def]
  · simp [hl, State.putP_addLand, Function.comp_def]

/-! ### Control -/

theorem loopResults_none {s : State} (h : s.fr.tmpl ≠ 3 ∨ s.me.sys.nstg.toNat = 0) : loopResults s = [] := by
  unfold loopResults
  rw [if_pos h]

/-- Control when the bundle asks for nothing (R79, R86, R112): the loop-end results enter flight and issue passes on. -/
theorem State.control_plain (s : State) (p : s.fr.Plain) :
    s.control = s.setMe { s.me.addLand ((loopResults s).map fun r => r.landing s.me.ord) with pc := nextPc s, run := none } := by
  obtain ⟨h1, h2, h3, h4, h5, h6⟩ := p
  unfold State.control nextPc
  by_cases ht : s.fr.tmpl = 3#4
  · by_cases hn : s.me.sys.nstg.toNat = 0
    · simp [h1, h2, h3, h4, h5, h6, ht, hn, State.loopEnd_closed s hn, loopResults_none (Or.inr hn), Ctx.addLand]
    · rw [State.loopEnd_open s ht hn]
      by_cases hl : s.me.sys.lc - 1#32 = 0#32 <;> simp [h1, h2, h3, h4, h5, h6, ht, hn, hl, Ctx.addLand]
  · simp [h1, h2, h3, h4, h5, h6, ht, loopResults_none (Or.inl ht), Ctx.addLand]

/-! ### The issue of one syllable -/

/-- The context of an issue before its syllable acts: charged with the bundle's weight, the syllable captured (R79, R233). -/
def Ctx.begin (s : State) (i : Instr) (slot : Nat) : Ctx :=
  { s.me with charge := s.me.charge + (s.myCore.ewt[(15 : Fin 16)]).toNat, cur := curAfter s i slot }

theorem State.capture_begin (s : State) (i : Instr) (slot : Nat) :
    ((s.setFr s.fr.solo).chargeBundle).captureCur i slot = (s.setFr s.fr.solo).setMe (Ctx.begin s i slot) := by
  unfold State.captureCur Ctx.begin curAfter State.chargeBundle
  cases hj : curIndex slot with
  | none => simp
  | some j =>
    cases hl : litIndex i <;> simp [State.literal]

theorem State.setMe_setFr (s : State) {f : Frame} (hc : f.core = s.fr.core) (hx : f.ctx = s.fr.ctx) (v : Ctx) :
    (s.setFr f).setMe v = (s.setMe v).setFr f := by
  show (s.setFr f).setCtx f.core f.ctx v = _
  rw [hc, hx]; rfl

theorem State.setMyCore_setFr (s : State) {f : Frame} (hc : f.core = s.fr.core) (k : Core) :
    (s.setFr f).setMyCore k = (s.setMyCore k).setFr f := by
  show (s.setFr f).setCore f.core k = _
  rw [hc]; rfl

/-- A report does not look at the frame but for its context. -/
theorem State.meet_setFr (s : State) (f : Frame) (hc : f.core = s.fr.core) (hx : f.ctx = s.fr.ctx) (m : Option Trap) :
    (s.setFr f).meet m = (s.meet m).setFr f := by
  cases m with
  | none => rfl
  | some t =>
    by_cases h : t.code = 0x304
    · simp only [State.meet, h, if_true]
      rw [State.myCore_setFr s hc, State.setMyCore_setFr s hc, State.setMe_setFr (s.setMyCore _) hc hx,
        State.me_setFr (s.setMyCore _) hc hx]
    · simp only [State.meet, h, if_false]
      rw [State.setMe_setFr s hc hx, State.me_setFr s hc hx]

/-- Nothing is met where no place of the core has a parity error. -/
theorem State.meets_clean (s : State) (i : Instr) (slot : Nat) (h : s.myCore.upsets = []) : s.meets i slot = none := by
  simp [State.meets, h]

@[simp] theorem State.meet_mem (s : State) (m : Option Trap) : (s.meet m).mem = s.mem := by
  cases m with
  | none => rfl
  | some t => by_cases h : t.code = 0x304 <;> simp [State.meet, h]

/-- A syllable that passes its checks acts in the state that has captured it, control passes, and what it met is reported (R78,
R79). -/
theorem State.issueSyl_ok (s : State) (i : Instr) (slot : Nat) (legal : State → Bool) (chk : State → Option Trap)
    (act : State → State) (hl : legal (s.setFr (s.fr.alone i)) = true) (hc : chk (s.setFr (s.fr.alone i)) = none) :
    s.issueSyl i slot legal chk act = ((act ((s.setFr s.fr.solo).setMe (Ctx.begin s i slot))).control).meet (s.meets i slot) := by
  unfold State.issueSyl
  simp [sylTrap, hl, hc, State.capture_begin]

/-- A syllable that fails its checks traps before it acts (R77, R78). -/
theorem State.issueSyl_trap (s : State) (i : Instr) (slot : Nat) (legal : State → Bool) (chk : State → Option Trap)
    (act : State → State) (t : Trap) (h : sylTrap slot (legal (s.setFr (s.fr.alone i))) (chk (s.setFr (s.fr.alone i))) = some t) :
    s.issueSyl i slot legal chk act = (s.setFr (s.fr.alone i)).takeTrap s.fr.core s.fr.ctx 0 t s.me.pc := by
  unfold State.issueSyl
  simp only [h]
  rfl

/-- The issuing context once its syllable is numbered and charged, with the results `rs` in flight. -/
def Ctx.acted (s : State) (i : Instr) (slot : Nat) (cls : Fin 16) (rs : List Result) : Ctx :=
  { Ctx.begin s i slot with
    ord := s.me.ord + 1, charge := s.me.charge + issueCharge s cls
    land := s.me.land ++ rs.map fun r => r.landing (s.me.ord + 1) }

/-- The state before a syllable acts. -/
abbrev State.begun (s : State) (i : Instr) (slot : Nat) : State := (s.setFr s.fr.solo).setMe (Ctx.begin s i slot)

/-- The syllable has been numbered and charged. -/
theorem State.enter_begun (s : State) (i : Instr) (slot : Nat) (cls : Fin 16) :
    (s.begun i slot).enter cls = (s.setFr s.fr.solo).setMe (Ctx.acted s i slot cls []) := by
  simp [State.enter, Ctx.acted, Ctx.begin, issueCharge, Nat.add_assoc]

theorem Ctx.acted_addLand (s : State) (i : Instr) (slot : Nat) (cls : Fin 16) (rs : List Result) (r : Result) :
    (Ctx.acted s i slot cls rs).addLand [r.landing (s.me.ord + 1)] = Ctx.acted s i slot cls (rs ++ [r]) := by
  simp [Ctx.acted, Ctx.addLand]

/-- What an instruction changes beside the issuing context's registers in flight: it leaves the context and the frame alone. -/
structure Apart (side : State → State) : Prop where
  me : ∀ u, (side u).me = u.me
  fr : ∀ u, (side u).fr = u.fr
  setMe : ∀ u v, (side u).setMe v = side (u.setMe v)

theorem Apart.none : Apart fun t => t := ⟨fun _ => rfl, fun _ => rfl, fun _ _ => rfl⟩

/-- A change of the issuing core that leaves its contexts alone. -/
theorem Apart.core (h : Core → Core) (hc : ∀ k, (h k).ctxs = k.ctxs) (hs : ∀ k x v, h (k.setCtx x v) = (h k).setCtx x v) :
    Apart fun t => t.setMyCore (h t.myCore) where
  me u := by simp [State.me, State.ctx, State.setMyCore, State.myCore, Core.ctx, hc]
  fr _ := rfl
  setMe u v := by simp [State.setMe, State.setCtx, State.setMyCore, State.myCore, hs]

/-- A change of the issuing core's die. -/
theorem Apart.die (h : Die → Die) : Apart fun t => t.setMyDie (h t.myDie) := ⟨fun _ => rfl, fun _ => rfl, fun _ _ => rfl⟩

theorem Apart.comp {f g : State → State} (hf : Apart f) (hg : Apart g) : Apart fun t => f (g t) where
  me u := by rw [hf.me, hg.me]
  fr u := by rw [hf.fr, hg.fr]
  setMe u v := by rw [hf.setMe, hg.setMe]

theorem loopResults_congr {s t : State} (hr : t.me.regs = s.me.regs) (hy : t.me.sys = s.me.sys) (hf : t.fr.tmpl = s.fr.tmpl) :
    loopResults t = loopResults s := by
  simp only [loopResults, stageResult, hr, hy, hf]

theorem nextPc_congr {s t : State} (hl : t.me.lsa = s.me.lsa) (hy : t.me.sys = s.me.sys) (hf : t.fr.tmpl = s.fr.tmpl)
    (hn : t.fr.next = s.fr.next) : nextPc t = nextPc s := by
  simp only [nextPc, hl, hy, hf, hn]

/-- A frame of the same issue that asks nothing of Control. -/
structure Frame.Same (f g : Frame) : Prop where
  plain : f.Plain
  core : f.core = g.core
  ctx : f.ctx = g.ctx
  tmpl : f.tmpl = g.tmpl
  next : f.next = g.next

theorem Frame.solo_same (f : Frame) : f.solo.Same f := ⟨f.solo_plain, rfl, rfl, rfl, rfl⟩

/-- Control after a syllable that brought results, changed its context by `g` and made side changes. -/
theorem control_acted {s : State} {i : Instr} {slot : Nat} {cls : Fin 16} {rs : List Result} {g : Ctx → Ctx}
    {side : State → State} {f : Frame} (hf : f.Same s.fr) (hs : Apart side)
    (hg : ∀ c l p, { (g c).addLand l with pc := p, run := none } = g { c.addLand l with pc := p, run := none })
    (hk : ∀ c, (g c).regs = c.regs ∧ (g c).sys = c.sys ∧ (g c).lsa = c.lsa ∧ (g c).ord = c.ord) :
    (((side (s.setMe (g (Ctx.acted s i slot cls rs)))).setFr f)).control =
      (side (s.setMe (g (ctxAfter s i slot cls rs)))).setFr f := by
  have hm : ((side (s.setMe (g (Ctx.acted s i slot cls rs)))).setFr f).me = g (Ctx.acted s i slot cls rs) := by
    rw [State.me_setFr _ (by rw [hs.fr]; exact hf.core) (by rw [hs.fr]; exact hf.ctx), hs.me, State.me_setMe]
  have hset (v : Ctx) : ((side (s.setMe (g (Ctx.acted s i slot cls rs)))).setFr f).setMe v = (side (s.setMe v)).setFr f := by
    have : ((side (s.setMe (g (Ctx.acted s i slot cls rs)))).setFr f).setMe v =
        ((side (s.setMe (g (Ctx.acted s i slot cls rs)))).setMe v).setFr f := by
      show ((side _).setFr f).setCtx f.core f.ctx v = ((side _).setCtx (side _).fr.core (side _).fr.ctx v).setFr f
      rw [hs.fr, show (s.setMe (g (Ctx.acted s i slot cls rs))).fr = s.fr from rfl, hf.core, hf.ctx]
      rfl
    rw [this, hs.setMe, State.setMe_setMe]
  obtain ⟨k1, k2, k3, k4⟩ := hk (Ctx.acted s i slot cls rs)
  rw [State.control_plain _ hf.plain, hset, hm, k4,
    loopResults_congr (s := s) (by rw [hm, k1]; rfl) (by rw [hm, k2]; rfl) hf.tmpl,
    nextPc_congr (s := s) (by rw [hm, k3]; rfl) (by rw [hm, k2]; rfl) hf.tmpl hf.next, hg]
  rfl

/-- An instruction whose syllable, once it is numbered and charged, brings results, changes its context by `g` and makes side
changes. -/
theorem does_of_act {s : State} {i : Instr} {slot : Nat} {legal : State → Bool} {chk : State → Option Trap}
    {act : State → State} {cls : Fin 16} {rs : List Result} {g : Ctx → Ctx} {side : State → State} (f : Frame)
    (he : exec i s = .next (s.issueSyl i slot legal chk act))
    (hl : legal (s.setFr (s.fr.alone i)) = true) (hc : chk (s.setFr (s.fr.alone i)) = none)
    (hf : f.Same s.fr) (hs : Apart side)
    (hg : ∀ c l p, { (g c).addLand l with pc := p, run := none } = g { c.addLand l with pc := p, run := none })
    (hk : ∀ c, (g c).regs = c.regs ∧ (g c).sys = c.sys ∧ (g c).lsa = c.lsa ∧ (g c).ord = c.ord)
    (ha : act (s.begun i slot) = (side (s.setMe (g (Ctx.acted s i slot cls rs)))).setFr f) : Does s i slot cls rs g side :=
  ⟨f, by
    have hr : (side (s.setMe (g (ctxAfter s i slot cls rs)))).fr = s.fr := hs.fr _
    rw [he, State.issueSyl_ok s i slot legal chk act hl hc, ha, control_acted hf hs hg hk,
      State.meet_setFr _ _ (by rw [hr]; exact hf.core) (by rw [hr]; exact hf.ctx)]⟩

/-- An instruction that does nothing but bring results. -/
theorem brings_of_act {s : State} {i : Instr} {slot : Nat} {legal : State → Bool} {chk : State → Option Trap}
    {act : State → State} {cls : Fin 16} {rs : List Result} (f : Frame)
    (he : exec i s = .next (s.issueSyl i slot legal chk act))
    (hl : legal (s.setFr (s.fr.alone i)) = true) (hc : chk (s.setFr (s.fr.alone i)) = none) (hf : f.Same s.fr)
    (ha : act (s.begun i slot) = (s.setMe (Ctx.acted s i slot cls rs)).setFr f) : Brings s i slot cls rs :=
  does_of_act f he hl hc hf Apart.none (fun _ _ _ => rfl) (fun _ => ⟨rfl, rfl, rfl, rfl⟩) ha

/-! ### The syllables of exec -/

/-- An instruction that waits for tokens of its own (R116). -/
def isKwait (i : Instr) : Bool :=
  match i with
  | .kwait _ _ _ => true
  | _ => false

/-- Every meaning but KWAIT's is the issue of its syllable, as a bundle issues it (R79). -/
theorem exec_syl {i : Instr} {y : Syl} (h : sylOf i = some y) (hk : isKwait i = false) (s : State) :
    exec i s = .next (s.issueSyl i y.slot y.legal y.chk y.act) := by
  cases i <;> cases h <;> first | rfl | exact absurd hk Bool.noConfusion

/-- An instruction whose checks pass and whose syllable brings results, changes its context by `g` and makes side changes. -/
theorem does_of_passes {s : State} {i : Instr} {slot : Nat} {cls : Fin 16} {rs : List Result} {g : Ctx → Ctx}
    {side : State → State} (f : Frame) (hp : Passes s i) (hk : isKwait i = false) (hf : f.Same s.fr) (hs : Apart side)
    (hg : ∀ c l p, { (g c).addLand l with pc := p, run := none } = g { c.addLand l with pc := p, run := none })
    (hr : ∀ c, (g c).regs = c.regs ∧ (g c).sys = c.sys ∧ (g c).lsa = c.lsa ∧ (g c).ord = c.ord)
    (ha : ∀ y, sylOf i = some y → y.slot = slot ∧ y.act (s.begun i slot) = (side (s.setMe (g (Ctx.acted s i slot cls rs)))).setFr f) :
    Does s i slot cls rs g side := by
  obtain ⟨y, hy, hl, hc⟩ := hp
  obtain ⟨h1, h2⟩ := ha y hy
  exact does_of_act f (h1 ▸ exec_syl hy hk s) hl hc hf hs hg hr h2

/-- An instruction whose checks pass and which does nothing but bring results. -/
theorem brings_of_passes {s : State} {i : Instr} {slot : Nat} {cls : Fin 16} {rs : List Result} (f : Frame)
    (hp : Passes s i) (hk : isKwait i = false) (hf : f.Same s.fr)
    (ha : ∀ y, sylOf i = some y → y.slot = slot ∧ y.act (s.begun i slot) = (s.setMe (Ctx.acted s i slot cls rs)).setFr f) :
    Brings s i slot cls rs :=
  does_of_passes f hp hk hf Apart.none (fun _ _ _ => rfl) (fun _ => ⟨rfl, rfl, rfl, rfl⟩) ha

/-! ### Operands in the state before the syllable acts -/

section
variable (s : State) (i : Instr) (slot : Nat)

@[simp] theorem State.me_begun : (s.begun i slot).me = Ctx.begin s i slot := State.me_setMe _ _
@[simp] theorem Ctx.begin_regs : (Ctx.begin s i slot).regs = s.me.regs := rfl
@[simp] theorem Ctx.begin_sys : (Ctx.begin s i slot).sys = s.me.sys := rfl
@[simp] theorem Ctx.begin_bind : (Ctx.begin s i slot).bind = s.me.bind := rfl
@[simp] theorem Ctx.begin_land : (Ctx.begin s i slot).land = s.me.land := rfl
@[simp] theorem Ctx.begin_ord : (Ctx.begin s i slot).ord = s.me.ord := rfl

theorem State.opRegs_begun : (s.begun i slot).opRegs = s.opRegs := by simp [State.opRegs]
theorem State.rdS_begun (a : BitVec 5) : (s.begun i slot).rdS a = s.rdS a := by simp [State.rdS, State.opRegs_begun]
theorem State.rdP_begun (a : BitVec 3) : (s.begun i slot).rdP a = s.rdP a := by simp [State.rdP, State.opRegs_begun]
theorem State.condS_begun (t : Tag2) : (s.begun i slot).condS t = s.condS t := by simp [State.condS, State.rdP_begun]
theorem State.condL_begun (t : Tag2) : (s.begun i slot).condL t = s.condL t := by simp [State.condL]
theorem State.cond_begun (t : Tag) : (s.begun i slot).cond t = s.cond t := by simp [State.cond]
theorem State.nowS_begun (a : BitVec 5) : (s.begun i slot).nowS a = s.nowS a := by simp [State.nowS]
theorem State.nowV_begun (a : BitVec 5) : (s.begun i slot).nowV a = s.nowV a := by simp [State.nowV]
theorem State.nowM_begun (a : BitVec 3) : (s.begun i slot).nowM a = s.nowM a := by simp [State.nowM]
theorem State.sel_begun (t : Tag2) : (s.begun i slot).sel t = s.sel t := by simp [State.sel, State.nowM_begun]
theorem State.baseS_begun (a : BitVec 5) : (s.begun i slot).baseS a = s.baseS a := by simp [State.baseS, State.nowS_begun]
theorem State.opWin_begun (w : BitVec 3) : (s.begun i slot).opWin w = s.opWin w := by simp [State.opWin]
theorem State.literal_begun (n : Nat) : (s.begun i slot).literal n = s.literal n := by simp [State.literal]
theorem State.rm_begun : (s.begun i slot).rm = s.rm := by simp [State.rm]
theorem State.fm_begun : (s.begun i slot).fm = s.fm := by simp [State.fm]
theorem State.rmPlain_begun : (s.begun i slot).rmPlain = s.rmPlain := by simp [State.rmPlain]
theorem State.readSr_begun (n : Nat) : (s.begun i slot).readSr n = s.readSr n := by
  simp [State.readSr, State.seedRd, State.seedEntry, State.myDie, State.die]

end

/-! ### Single results -/

/-- An instruction that does nothing but bring results, and leaves the frame of a bundle of one syllable. -/
theorem brings_alone {s : State} {i : Instr} {slot : Nat} {legal : State → Bool} {chk : State → Option Trap}
    {act : State → State} {cls : Fin 16} {rs : List Result}
    (he : exec i s = .next (s.issueSyl i slot legal chk act))
    (hl : legal (s.setFr (s.fr.alone i)) = true) (hc : chk (s.setFr (s.fr.alone i)) = none)
    (ha : act (s.begun i slot) = (s.setMe (Ctx.acted s i slot cls rs)).setFr s.fr.solo) : Brings s i slot cls rs :=
  brings_of_act _ he hl hc (Frame.solo_same _) ha

theorem gate_putS (s : State) (i : Instr) (slot sl lat : Nat) (cls : Fin 16) (d : BitVec 5) (w : Word) (b : Bool) :
    (((s.begun i slot).enter cls).gate b fun t => t.putS sl lat d w) =
      (s.setMe (Ctx.acted s i slot cls (if b then [⟨sl, lat, .s (physReg s.me.sys.rot d), w, [], 0, 0⟩] else []))).setFr s.fr.solo := by
  rw [State.enter_begun]
  cases b with
  | false => rfl
  | true =>
    simp only [State.gate, if_true, State.putS_addLand, State.me_setMe, State.setMe_setMe]
    simp [Ctx.acted, Ctx.addLand, Ctx.begin]
    rfl

theorem gate_putP (s : State) (i : Instr) (slot sl lat : Nat) (cls : Fin 16) (d : BitVec 3) (w : Bool) (b : Bool) :
    (((s.begun i slot).enter cls).gate b fun t => t.putP sl lat d w) =
      (s.setMe (Ctx.acted s i slot cls (if b then [⟨sl, lat, .p ⟨d.toNat, d.isLt⟩, if w then 1 else 0, [], 0, 0⟩] else []))).setFr s.fr.solo := by
  rw [State.enter_begun]
  cases b with
  | false => rfl
  | true =>
    simp only [State.gate, if_true, State.putP_addLand, State.me_setMe, State.setMe_setMe]
    simp [Ctx.acted, Ctx.addLand, Ctx.begin]
    rfl

theorem gate_putSr (s : State) (i : Instr) (slot sl lat : Nat) (cls : Fin 16) (n : Nat) (w : Word) (b : Bool) :
    (((s.begun i slot).enter cls).gate b fun t => t.putSr sl lat n w) =
      (s.setMe (Ctx.acted s i slot cls (if b then [⟨sl, lat, .sr n, w, [], 0, 0⟩] else []))).setFr s.fr.solo := by
  rw [State.enter_begun]
  cases b with
  | false => rfl
  | true =>
    simp only [State.gate, if_true, State.putSr_addLand, State.me_setMe, State.setMe_setMe]
    simp [Ctx.acted, Ctx.addLand, Ctx.begin]
    rfl

/-! ### Results one after the other -/

/-- A state whose syllable has been numbered and charged and has brought the results `rs`, in the frame `f`. -/
abbrev State.acted (s : State) (i : Instr) (slot : Nat) (cls : Fin 16) (rs : List Result) (f : Frame) : State :=
  (s.setMe (Ctx.acted s i slot cls rs)).setFr f

theorem State.enter_acted (s : State) (i : Instr) (slot : Nat) (cls : Fin 16) :
    (s.begun i slot).enter cls = s.acted i slot cls [] s.fr.solo := State.enter_begun s i slot cls

section
variable {s : State} {i : Instr} {slot : Nat} {cls : Fin 16} {rs : List Result} {f : Frame}

theorem State.me_acted (h : f.Same s.fr) : (s.acted i slot cls rs f).me = Ctx.acted s i slot cls rs :=
  (State.me_setFr (s.setMe _) h.core h.ctx).trans (State.me_setMe _ _)

theorem State.setMe_acted (h : f.Same s.fr) (v : Ctx) : (s.acted i slot cls rs f).setMe v = (s.setMe v).setFr f := by
  show ((s.setMe _).setFr f).setCtx f.core f.ctx v = _
  rw [h.core, h.ctx]
  show ((s.setMe _).setMe v).setFr f = _
  rw [State.setMe_setMe]

theorem State.put_acted (h : f.Same s.fr) (sl lat : Nat) (d : Dest) (w : Word) (v : Lanes) (lanes : Word) (fl : Fl) :
    (s.acted i slot cls rs f).put sl lat d w v lanes fl =
      s.acted i slot cls (rs ++ [⟨sl, lat, d, w, v, lanes, fl⟩]) f := by
  rw [State.put_addLand, State.setMe_acted h, State.me_acted h]
  exact congrArg (fun c => (s.setMe c).setFr f) (Ctx.acted_addLand s i slot cls rs ⟨sl, lat, d, w, v, lanes, fl⟩)

theorem State.putS_acted (h : f.Same s.fr) (sl lat : Nat) (d : BitVec 5) (w : Word) :
    (s.acted i slot cls rs f).putS sl lat d w =
      s.acted i slot cls (rs ++ [⟨sl, lat, .s (physReg s.me.sys.rot d), w, [], 0, 0⟩]) f := by
  unfold State.putS
  rw [State.me_acted h]
  exact State.put_acted h ..

theorem State.putV_acted (h : f.Same s.fr) (sl lat : Nat) (d : BitVec 5) (v : Lanes) (lanes : Word) (fl : Fl) :
    (s.acted i slot cls rs f).putV sl lat d v lanes fl =
      s.acted i slot cls (rs ++ [⟨sl, lat, .v (physReg s.me.sys.rot d), 0, v, lanes, fl⟩]) f := by
  unfold State.putV
  rw [State.me_acted h]
  exact State.put_acted h ..

theorem State.putM_acted (h : f.Same s.fr) (sl lat : Nat) (d : BitVec 3) (w : Word) (fl : Fl) :
    (s.acted i slot cls rs f).putM sl lat d w fl = s.acted i slot cls (rs ++ [⟨sl, lat, .m ⟨d.toNat, d.isLt⟩, w, [], 0, fl⟩]) f :=
  State.put_acted h ..

theorem State.putP_acted (h : f.Same s.fr) (sl lat : Nat) (d : BitVec 3) (b : Bool) :
    (s.acted i slot cls rs f).putP sl lat d b =
      s.acted i slot cls (rs ++ [⟨sl, lat, .p ⟨d.toNat, d.isLt⟩, if b then 1 else 0, [], 0, 0⟩]) f :=
  State.put_acted h ..

theorem State.putK_acted (h : f.Same s.fr) (sl lat : Nat) (d : BitVec 6) (w : Word) :
    (s.acted i slot cls rs f).putK sl lat d w = s.acted i slot cls (rs ++ [⟨sl, lat, .k ⟨d.toNat, d.isLt⟩, w, [], 0, 0⟩]) f :=
  State.put_acted h ..

theorem State.putSr_acted (h : f.Same s.fr) (sl lat n : Nat) (w : Word) :
    (s.acted i slot cls rs f).putSr sl lat n w = s.acted i slot cls (rs ++ [⟨sl, lat, .sr n, w, [], 0, 0⟩]) f :=
  State.put_acted h ..

end

/-! ### Draws -/

/-- The frame after the first draw of a clk. -/
def Frame.drew (f : Frame) (w : Word) (slot ord : Nat) : Frame := { f with draw := some (w, slot, ord) }

theorem Frame.drew_same {f g : Frame} (h : f.Same g) (w : Word) (slot ord : Nat) : (f.drew w slot ord).Same g :=
  ⟨⟨h.plain.branch, h.plain.loop, h.plain.trap, h.plain.eret, h.plain.yield, h.plain.tend⟩, h.core, h.ctx, h.tmpl, h.next⟩

/-- The draw of a syllable issued alone (R63): the words, and RCNT's new value in flight. -/
theorem State.draw_acted (s : State) (i : Instr) (slot : Nat) (cls : Fin 16) (sl n : Nat) :
    (s.acted i slot cls [] s.fr.solo).draw sl n =
      (drawn s n, s.acted i slot cls [drawResult s sl n]
        (s.fr.solo.drew (s.me.sys.rcnt + BitVec.ofNat 64 ((n + 3) / 4)) sl (s.me.ord + 1))) := by
  have hsame := Frame.solo_same s.fr
  have hme : (s.acted i slot cls [] s.fr.solo).me = Ctx.acted s i slot cls [] := State.me_acted hsame
  have hland : (s.acted i slot cls [] s.fr.solo).setMe (Ctx.acted s i slot cls []) = s.acted i slot cls [] s.fr.solo :=
    State.setMe_acted hsame _
  unfold State.draw
  simp only [hme, State.setFr_fr, Frame.solo_draw]
  rw [show ({ Ctx.acted s i slot cls [] with land := (Ctx.acted s i slot cls []).land } : Ctx) = Ctx.acted s i slot cls [] from rfl,
    hland, State.putSr_acted hsame, State.me_acted hsame]
  rfl

theorem State.drawWhen_acted (s : State) (i : Instr) (slot : Nat) (cls : Fin 16) (b : Bool) (sl n : Nat) :
    ∃ f : Frame, f.Same s.fr ∧ (s.acted i slot cls [] s.fr.solo).drawWhen b sl n =
      (if b then drawn s n else [], s.acted i slot cls (if b then [drawResult s sl n] else []) f) := by
  cases b with
  | false => exact ⟨_, Frame.solo_same s.fr, rfl⟩
  | true =>
    exact ⟨_, Frame.drew_same (Frame.solo_same s.fr) _ _ _, State.draw_acted s i slot cls sl n⟩

/-! ### Lane-wise operations -/

theorem laneMap_eq (sel : Word) (f : Nat → W32 × Fl) :
    laneMap sel f = (mkLanes fun k => (f k).1, laneFlags sel fun k => (f k).2) := by
  simp [laneMap, mkLanes, laneFlags, Function.comp_def, List.foldl_map]

end Sys2Proof.Machine
end

