-- ==== Sys2Proof/Laws/Memory.lean ====
section
/-! SUPPORT. Memory: every operation keeps the canonical form, and a read after a write. -/

namespace Sys2Proof.Machine

/-! ### The canonical form -/

theorem Memory.wfFrom_mono {lo hi : Nat} {m : Memory} (h : hi ≤ lo) (w : Memory.wfFrom lo m = true) :
    Memory.wfFrom hi m = true := by
  cases m with
  | nil => rfl
  | cons c m =>
    obtain ⟨k, b⟩ := c
    simp only [Memory.wfFrom, Bool.and_eq_true, decide_eq_true_eq] at w ⊢
    exact ⟨⟨by omega, w.1.2⟩, w.2⟩

/-- Dropping cells keeps the form. -/
theorem Memory.wfFrom_filter (p : Host.Cell → Bool) (lo : Nat) (m : Memory) (w : Memory.wfFrom lo m = true) :
    Memory.wfFrom lo (m.filter p) = true := by
  induction m generalizing lo with
  | nil => rfl
  | cons c m ih =>
    obtain ⟨k, b⟩ := c
    simp only [Memory.wfFrom, Bool.and_eq_true, decide_eq_true_eq] at w
    by_cases h : p (k, b) = true
    · simp only [List.filter_cons_of_pos h, Memory.wfFrom, Bool.and_eq_true, decide_eq_true_eq]
      exact ⟨w.1, ih _ w.2⟩
    · rw [List.filter_cons_of_neg h]
      exact Memory.wfFrom_mono (by omega) (ih _ w.2)

/-- Every cell lies at `lo` or above. -/
theorem Memory.ge_of_wfFrom {lo : Nat} {m : Memory} (w : Memory.wfFrom lo m = true) : ∀ c ∈ m, lo ≤ c.1 := by
  induction m generalizing lo with
  | nil => intro c hc; cases hc
  | cons d m ih =>
    obtain ⟨k, b⟩ := d
    simp only [Memory.wfFrom, Bool.and_eq_true, decide_eq_true_eq] at w
    intro c hc
    rcases List.mem_cons.1 hc with rfl | hc
    · exact w.1.1
    · exact Nat.le_trans (by omega) (ih w.2 c hc)

/-- A list whose cells lie below `mid`, before a list from `mid` on. -/
theorem Memory.wfFrom_append {lo mid : Nat} {m n : Memory} (w : Memory.wfFrom lo m = true) (below : ∀ c ∈ m, c.1 < mid)
    (hn : Memory.wfFrom mid n = true) (hlo : lo ≤ mid) : Memory.wfFrom lo (m ++ n) = true := by
  induction m generalizing lo with
  | nil => exact Memory.wfFrom_mono hlo hn
  | cons c m ih =>
    obtain ⟨k, b⟩ := c
    simp only [List.cons_append, Memory.wfFrom, Bool.and_eq_true, decide_eq_true_eq] at w ⊢
    have hk := below (k, b) List.mem_cons_self
    exact ⟨w.1, ih w.2 (fun c hc => below c (List.mem_cons_of_mem _ hc)) hk⟩

/-- A filter by address keeps a tail that starts at the bound. -/
theorem Memory.wfFrom_filter_ge (lo mid : Nat) (m : Memory) (w : Memory.wfFrom lo m = true) :
    Memory.wfFrom mid (m.filter fun c => decide (mid ≤ c.1)) = true := by
  induction m generalizing lo with
  | nil => rfl
  | cons c m ih =>
    obtain ⟨k, b⟩ := c
    simp only [Memory.wfFrom, Bool.and_eq_true, decide_eq_true_eq] at w
    by_cases h : mid ≤ k
    · rw [List.filter_cons_of_pos (by simpa using h)]
      simp only [Memory.wfFrom, Bool.and_eq_true, decide_eq_true_eq]
      exact ⟨⟨h, w.1.2⟩, Memory.wfFrom_filter _ _ _ w.2⟩
    · rw [List.filter_cons_of_neg (by simpa using h)]
      exact ih _ w.2

theorem cellsOf_wfFrom (a : Nat) (bs : List Byte) : Memory.wfFrom a (cellsOf a bs) = true := by
  induction bs generalizing a with
  | nil => rfl
  | cons b bs ih =>
    by_cases h : b = unlistedByte
    · simp only [cellsOf, h, if_true]; exact Memory.wfFrom_mono (by omega) (ih (a + 1))
    · simp only [cellsOf, h, if_false, Memory.wfFrom, Bool.and_eq_true, decide_eq_true_eq]
      exact ⟨⟨by omega, h⟩, ih (a + 1)⟩

theorem cellsOf_lt (a : Nat) (bs : List Byte) : ∀ c ∈ cellsOf a bs, c.1 < a + bs.length := by
  induction bs generalizing a with
  | nil => intro c hc; cases hc
  | cons b bs ih =>
    intro c hc
    have key : ∀ c ∈ cellsOf (a + 1) bs, c.1 < a + (bs.length + 1) := fun c hc => by have := ih (a + 1) c hc; omega
    by_cases h : b = unlistedByte
    · simp only [cellsOf, h, if_true] at hc; simpa using key c hc
    · simp only [cellsOf, h, if_false, List.mem_cons] at hc
      rcases hc with rfl | hc
      · simp
      · simpa using key c hc

/-- A write keeps the canonical form. -/
theorem Memory.wf_write {m : Memory} (w : m.wf = true) (a : Nat) (bs : List Byte) : (m.write a bs).wf = true := by
  unfold Memory.wf Memory.write at *
  rw [List.append_assoc]
  refine Memory.wfFrom_append (Memory.wfFrom_filter _ _ _ w) (mid := a) ?_ ?_ (Nat.zero_le _)
  · intro c hc; simpa using (List.mem_filter.1 hc).2
  · exact Memory.wfFrom_append (cellsOf_wfFrom a bs) (cellsOf_lt a bs) (Memory.wfFrom_filter_ge 0 _ m w) (by omega)

/-- Dropping cells keeps the canonical form. -/
theorem Memory.wf_filter {m : Memory} (w : m.wf = true) (p : Host.Cell → Bool) : Memory.wf (m.filter p) = true :=
  Memory.wfFrom_filter p 0 m w

theorem Memory.wf_putWord {m : Memory} (w : m.wf = true) (a : Nat) (x : Word) : (m.putWord a x).wf = true := Memory.wf_write w _ _

/-- A fold of writes keeps the canonical form. -/
theorem Memory.wf_foldl {β : Type} (f : Memory → β → Memory) (h : ∀ m b, m.wf = true → (f m b).wf = true) (l : List β)
    {m : Memory} (w : m.wf = true) : (l.foldl f m).wf = true := by
  induction l generalizing m with
  | nil => exact w
  | cons b l ih => exact ih (h m b w)

/-! ### Reading after a write -/

theorem Memory.read_append_left {m n : Memory} {x : Nat} (h : ∀ c ∈ m, c.1 ≠ x) : Memory.read (m ++ n) x = Memory.read n x := by
  induction m with
  | nil => rfl
  | cons c m ih =>
    obtain ⟨k, b⟩ := c
    have hk : k ≠ x := h (k, b) List.mem_cons_self
    simp only [List.cons_append, Memory.read, hk, if_false]
    exact ih fun c hc => h c (List.mem_cons_of_mem _ hc)

theorem Memory.read_append_right {m n : Memory} {x : Nat} (h : ∀ c ∈ n, c.1 ≠ x) : Memory.read (m ++ n) x = Memory.read m x := by
  induction m with
  | nil =>
    induction n with
    | nil => rfl
    | cons c n ih =>
      obtain ⟨k, b⟩ := c
      have hk : k ≠ x := h (k, b) List.mem_cons_self
      simp only [List.nil_append, Memory.read, hk, if_false] at *
      exact ih fun c hc => h c (List.mem_cons_of_mem _ hc)
  | cons c m ih =>
    obtain ⟨k, b⟩ := c
    by_cases hk : k = x
    · simp [Memory.read, hk]
    · simpa [Memory.read, hk] using ih

theorem Memory.read_filter {m : Memory} (p : Host.Cell → Bool) {x : Nat} (h : ∀ b, p (x, b) = true) :
    Memory.read (m.filter p) x = Memory.read m x := by
  induction m with
  | nil => rfl
  | cons c m ih =>
    obtain ⟨k, b⟩ := c
    by_cases hk : k = x
    · subst hk; simp [List.filter_cons_of_pos (h b), Memory.read]
    · by_cases hp : p (k, b) = true
      · simp [List.filter_cons_of_pos hp, Memory.read, hk, ih]
      · simp [List.filter_cons_of_neg hp, Memory.read, hk, ih]

theorem read_cellsOf (a : Nat) (bs : List Byte) (i : Nat) : Memory.read (cellsOf a bs) (a + i) = bs.getD i unlistedByte := by
  induction bs generalizing a i with
  | nil => simp [cellsOf, Memory.read]
  | cons b bs ih =>
    cases i with
    | zero =>
      have ge := Memory.ge_of_wfFrom (cellsOf_wfFrom (a + 1) bs)
      by_cases h : b = unlistedByte
      · simp only [cellsOf, h, if_true, Nat.add_zero]
        have := Memory.read_append_left (m := cellsOf (a + 1) bs) (n := []) (x := a) (fun c hc e => by have := ge c hc; omega)
        simpa [Memory.read] using this
      · simp [cellsOf, h, Memory.read]
    | succ i =>
      have := ih (a + 1) i
      rw [show a + 1 + i = a + (i + 1) by omega] at this
      by_cases h : b = unlistedByte
      · simp [cellsOf, h, this]
      · simp [cellsOf, h, Memory.read, this]

/-- A byte that a write names reads as written. -/
theorem Memory.read_write_in {m : Memory} {a : Nat} {bs : List Byte} {i : Nat} (h : i < bs.length) :
    (m.write a bs).read (a + i) = bs.getD i unlistedByte := by
  unfold Memory.write
  rw [Memory.read_append_right, Memory.read_append_left, read_cellsOf]
  · intro c hc e; have := (List.mem_filter.1 hc).2; simp at this; omega
  · intro c hc e; have := (List.mem_filter.1 hc).2; simp at this; omega

/-- Every other byte reads as before. -/
theorem Memory.read_write_out {m : Memory} {a x : Nat} {bs : List Byte} (h : x < a ∨ a + bs.length ≤ x) :
    (m.write a bs).read x = m.read x := by
  have cells : ∀ c ∈ cellsOf a bs, c.1 ≠ x := fun c hc e => by
    have := Memory.ge_of_wfFrom (cellsOf_wfFrom a bs) c hc
    have := cellsOf_lt a bs c hc
    omega
  unfold Memory.write
  rcases h with h | h
  · rw [Memory.read_append_right, Memory.read_append_right cells, Memory.read_filter]
    · intro b; simpa using h
    · intro c hc e; have := (List.mem_filter.1 hc).2; simp at this; omega
  · rw [List.append_assoc, Memory.read_append_left, Memory.read_append_left cells, Memory.read_filter]
    · intro b; simpa using h
    · intro c hc e; have := (List.mem_filter.1 hc).2; simp at this; omega

end Sys2Proof.Machine
end

