-- ==== Sys2Proof/Laws/Ports.lean ====
section
/-! SUPPORT. The canonical form through the operations that write memory beside a plain write: masked bytes, barriers,
write queues, saves, moves of windows and what a reset or a scrub keeps. -/

namespace Sys2Proof.Machine

/-! ### Memories -/

theorem Memory.wf_poke {m : Memory} (w : m.wf = true) (a mask val : Nat) : (m.poke a mask val).wf = true := Memory.wf_write w _ _

theorem Memory.wf_arriveAt {m : Memory} (w : m.wf = true) (a : Nat) : (m.arriveAt a).1.wf = true :=
  Memory.wf_putWord (Memory.wf_putWord w _ _) _ _

/-- Draining an entry of a write queue (R353). -/
theorem wf_drainEntry {m : Memory} (w : m.wf = true) (q : QueueLine) : (drainEntry m q).wf = true :=
  Memory.wf_foldl _ (fun _ _ h => Memory.wf_write h _ _) _ w

/-! ### States -/

/-- A fold of steps that keep the form keeps it. -/
theorem State.wf_foldl {β : Type} (f : State → β → State) (h : ∀ s b, s.mem.wf = true → (f s b).mem.wf = true) (l : List β)
    {s : State} (w : s.mem.wf = true) : (l.foldl f s).mem.wf = true := by
  induction l generalizing s with
  | nil => exact w
  | cons b l ih => exact ih (h s b w)

theorem State.wf_drainLine {s : State} (w : s.mem.wf = true) (line : Nat) : (s.drainLine line).mem.wf = true :=
  Memory.wf_foldl _ (fun _ q h => wf_drainEntry h q) _ w

theorem State.wf_settle {s : State} (w : s.mem.wf = true) : s.settle.mem.wf = true := by
  refine State.wf_foldl _ (fun s d h => ?_) _ w
  dsimp only
  split
  · exact h
  · exact Memory.wf_foldl _ (fun _ q h => wf_drainEntry h q) _ h

theorem State.wf_hostPoke {s : State} (w : s.mem.wf = true) (pa mask val : Nat) : (s.hostPoke pa mask val).mem.wf = true := by
  unfold State.hostPoke
  dsimp only
  split
  · exact Memory.wf_write w _ _
  · exact w

theorem State.wf_pokeSpot {s : State} (w : s.mem.wf = true) (sys : Bool) (p : Spot) : (s.pokeSpot sys p).mem.wf = true := by
  unfold State.pokeSpot
  split
  · exact State.wf_hostPoke w _ _ _
  · dsimp only
    split <;> exact Memory.wf_poke w _ _ _

theorem State.wf_releaseSystem {s : State} (w : s.mem.wf = true) : s.releaseSystem.mem.wf = true :=
  Memory.wf_foldl _ (fun _ _ h => Memory.wf_write h _ _) _ w

theorem State.wf_copyWins {s : State} (w : s.mem.wf = true) (m : Memory) (c d : Nat) (old new : List Win) :
    (s.copyWins m c d old new).mem.wf = true := by
  refine Memory.wf_foldl _ (fun m p h => ?_) _ w
  dsimp only
  split
  · split
    · exact Memory.wf_write (Memory.wf_write h _ _) _ _
    · exact Memory.wf_write h _ _
  · exact h

theorem State.wf_hostBuffer {s : State} (w : s.mem.wf = true) (a : Nat) (bs : List Byte) : (s.hostBuffer a bs).mem.wf = true :=
  State.wf_foldl _ (fun _ _ h => State.wf_hostPoke h _ _ _) _ w

theorem State.wf_scrubMemory {s : State} (w : s.mem.wf = true) (rows : List Nat) : (s.scrubMemory rows).mem.wf = true :=
  Memory.wf_filter w _

theorem State.wf_scrubScm {s : State} (w : s.mem.wf = true) : s.scrubScm.mem.wf = true := Memory.wf_filter w _

theorem State.wf_moduleReset {s : State} (w : s.mem.wf = true) : s.moduleReset.mem.wf = true := Memory.wf_filter w _

/-- Pieces written one after the other, each with its part of the bytes. -/
theorem State.wf_writePieces (ps : List (Nat × Nat)) {s : State} (w : s.mem.wf = true) (bs : List Byte) :
    (ps.foldl (fun (a : State × List Byte) p =>
      ({ a.1 with mem := a.1.mem.write p.1 (a.2.take p.2) }, a.2.drop p.2)) (s, bs)).1.mem.wf = true := by
  induction ps generalizing s bs with
  | nil => exact w
  | cons p ps ih => exact ih (Memory.wf_write w _ _) _

/-- Bytes written at a virtual address. -/
theorem State.wf_vwrite {s t : State} (w : s.mem.wf = true) {asid va : Nat} {bs : List Byte}
    (h : s.vwrite asid va bs = .ok t) : t.mem.wf = true := by
  unfold State.vwrite at h
  dsimp only at h
  cases hp : s.settle.pieces asid va bs.length .write with
  | error e => rw [hp] at h; cases h
  | ok ps =>
    rw [hp] at h
    injection h with h
    exact h ▸ State.wf_writePieces ps (State.wf_settle w) bs

/-- Writes that perform together leave a canonical memory before hardware marks the losers (R251). -/
theorem wf_pokes {m : Memory} (w : m.wf = true) (l : List (Nat × Nat × Nat)) :
    Memory.wf (l.foldl (fun m (c : Nat × Nat × Nat) => m.poke c.1 c.2.1 c.2.2) m) = true :=
  Memory.wf_foldl _ (fun _ _ h => Memory.wf_poke h _ _ _) _ w

end Sys2Proof.Machine
end

