-- ==== Sys2Proof/Tests/Slice0.lean ====
section
/-! SUPPORT. The model's own tests. Words, records and results are written out from the spec's tables; each witness shows that the
hypotheses of a statement can be met together. -/

namespace Sys2Proof.Tests

-- One test after another: tests that wait for a long kernel check each hold a thread with its stack.
set_option Elab.async false

open Sys2Proof.Machine Sys2Proof.Rules

/-! ### Well-formedness (R77): one ill-formed term for each check -/

/-- Tags: the last syllable of its bundle, in the first slot of its class, under p0 or under the inverse of p0. -/
def t : Tag2 := ⟨true, false, false, 0⟩
def g : Tag := ⟨true, false, 0⟩
def a0 : TagAny := ⟨true, 0, false, 0⟩
def tn : Tag2 := ⟨true, false, true, 0⟩
def gn : Tag := ⟨true, true, 0⟩

/-- R118: a code below 0x3C0. R77: an odd pair, a group of four that starts at no multiple of four. R180: registers 0x06 and 0x26. R204:
format 1. R205: mode 3. R95: scope 7. R309: port 8. R188: one tile for both of MSMX. -/
def illFormed : List Instr :=
  [.trap t 0x3BF, .acas t 5 0 8, .pfxld t 5 0 8, .mcfg g 0x06 8, .mcfgl g 0x26 0, .mcfgrd g 0x06 8, .accwr g 4 1 8 1, .mchk g 3,
   .msmx g 1 1 0 8, .xmove g 8 0 8, .xmove g 0 0 8, .xfence g 7 7, .xred g 7 6 0, .xatom g 7 9 0, .xredv g 7 9 0, .xmvb g 7 9 0,
   .xckpt g 7 2 0, .xhadd g 7 6 0, .xhdel g 7 6 0, .xsend g 7 6 0, .xrecv g 7 6 0, .xsig g 7 6 0]

theorem test_ill_formed_refused : illFormed.all (fun i => !wellFormed i) = true := by decide

/-! ### Words written out field by field (R73, R76, and the maps R91 to R95) -/

/-- STOP, SLOT, PINV, PIDX, OPC and OPND. -/
def word (stop : BitVec 1) (slot : BitVec 3) (pinv : BitVec 1) (pidx : BitVec 3) (opc : BitVec 8) (opnd : BitVec 16) : W32 :=
  stop ++ slot ++ pinv ++ pidx ++ opc ++ opnd

/-- The syllable of a word, where there is one. -/
def dec (w : W32) : Option Instr :=
  match decodeSyl w with
  | .ok i => some i
  | .error _ => none

/-- ADDI s3, s7, −2 under !p1 in S1; MULH; MOVI; BR; LOOP; KWAIT; TRAP; MTSR. -/
theorem test_words_scalar :
    dec (word 0 1 1 1 0x10 (3#5 ++ 7#5 ++ 0x3E#6)) = some (.addi ⟨false, true, true, 1⟩ 3 7 (-2)) ∧
    dec (word 1 0 0 0 0x04 (4#5 ++ 5#5 ++ 6#5 ++ 0#1)) = some (.mulh t 4 5 6) ∧
    dec (word 1 0 0 0 0x1A (9#5 ++ 0x7FF#11)) = some (.movi t 9 (-1)) ∧
    dec (word 1 0 0 2 0x30 0xFFFE#16) = some (.br ⟨true, false, false, 2⟩ (-2)) ∧
    dec (word 1 0 0 0 0x38 (3#2 ++ 8#5 ++ 0#9)) = some (.loop t 3 8) ∧
    dec (word 1 0 0 0 0x3A (63#6 ++ 1#6 ++ 0#4)) = some (.kwait t 63 1) ∧
    dec (word 1 0 0 0 0x3B (0x3C0#10 ++ 0#6)) = some (.trap t 0x3C0) := by decide

/-- VADD.F32, VCMPLT.I32, VCVT from FP32 to BF16, VPART, VBCAST and NOP of V1. -/
theorem test_words_vector :
    dec (word 1 2 0 0 0x01 (4#5 ++ 5#5 ++ 6#5 ++ 0#1)) = some (.vaddF32 t 4 5 6) ∧
    dec (word 1 3 1 2 0x24 (3#3 ++ 5#5 ++ 6#5 ++ 0#3)) = some (.vcmpltI32 ⟨true, true, true, 2⟩ 3 5 6) ∧
    dec (word 1 2 0 0 0x31 (4#5 ++ 5#5 ++ 0#3 ++ 1#3)) = some (.vcvt t 4 5 0 1) ∧
    dec (word 1 2 0 0 0x41 (4#5 ++ 1#3 ++ 9#5 ++ 0#3)) = some (.vpart t 4 1 9) ∧
    dec (word 1 2 0 0 0x3F (4#5 ++ 5#5 ++ 63#6)) = some (.vbcast t 4 5 63) ∧
    dec (word 1 3 0 0 0x00 0) = some (.nop ⟨true, 3, false, 0⟩) := by decide

/-- VLD, SSTD, VLDS, VLDM, VSTM and ACAS. -/
theorem test_words_local :
    dec (word 1 4 0 0 0x01 (4#5 ++ 2#3 ++ 8#5 ++ 0#3)) = some (.vld t 4 2 8) ∧
    dec (word 1 5 0 0 0x06 (4#5 ++ 7#3 ++ 8#5 ++ 0#3)) = some (.sstd ⟨true, true, false, 0⟩ 4 7 8) ∧
    dec (word 1 4 0 0 0x07 (4#5 ++ 2#3 ++ 8#5 ++ 5#3)) = some (.vlds t 4 2 8 5) ∧
    dec (word 1 4 0 0 0x0B (3#3 ++ 2#3 ++ 8#5 ++ 0#5)) = some (.vldm t 3 2 8) ∧
    dec (word 1 4 0 0 0x0C (4#5 ++ 2#3 ++ 8#5 ++ 6#3)) = some (.vstm t 4 2 8 6) ∧
    dec (word 1 4 0 0 0x12 (4#5 ++ 2#3 ++ 8#5 ++ 0#3)) = some (.acas t 4 2 8) := by decide

/-- MCFG, MCFGL, ACCINIT in both forms, ACCRD, MSMX, MCHK and ACCLOG. -/
theorem test_words_matrix :
    dec (word 1 6 0 0 0x01 (0x20#8 ++ 8#5 ++ 0#3)) = some (.mcfg g 0x20 8) ∧
    dec (word 1 6 0 0 0x02 (0x05#8 ++ 3#4 ++ 0#4)) = some (.mcfgl g 0x05 3) ∧
    dec (word 1 6 0 0 0x04 (2#3 ++ 0#1 ++ 8#5 ++ 0#7)) = some (.accinit g 2 8) ∧
    dec (word 1 6 0 0 0x04 (2#3 ++ 1#1 ++ 0#5 ++ 0#7)) = some (.accinitU g 2) ∧
    dec (word 1 6 0 0 0x06 (4#5 ++ 2#3 ++ 8#5 ++ 3#3)) = some (.accrd g 4 2 8 3) ∧
    dec (word 1 6 0 0 0x09 (1#3 ++ 2#3 ++ 4#3 ++ 8#5 ++ 0#2)) = some (.msmx g 1 2 4 8) ∧
    dec (word 1 6 0 0 0x0A (2#2 ++ 0#14)) = some (.mchk g 2) ∧
    dec (word 1 6 0 0 0x0E (4#5 ++ 2#3 ++ 8#5 ++ 0#3)) = some (.acclog g 4 2 8) := by decide

/-- XCOPY, XMOVE, XSTAT, XFENCE, XIDX and XSIG; XMOVE as R309 writes it out. -/
theorem test_words_async :
    dec (word 1 7 0 0 0x01 (7#6 ++ 8#5 ++ 2#4 ++ 0#1)) = some (.xcopy g 7 8 2) ∧
    dec 0xF0063240 = some (.xmove g 3 2 8) ∧
    dec (word 1 7 0 0 0x08 (4#5 ++ 6#3 ++ 0#8)) = some (.xstat g 4 6) ∧
    dec (word 1 7 0 0 0x09 (7#6 ++ 4#3 ++ 0#7)) = some (.xfence g 7 4) ∧
    dec (word 1 7 0 0 0x03 (0#5 ++ 8#5 ++ 0#6)) = some (.xidx g 8) ∧
    dec (word 1 7 0 0 0x1C (7#6 ++ 8#5 ++ 15#4 ++ 0#1)) = some (.xsig g 7 8 15) := by decide

/-- Bits that a form holds at 0, opcodes the map does not hold, and unassigned values are refused. -/
theorem test_words_refused :
    dec (word 1 0 0 0 0x01 (4#5 ++ 5#5 ++ 6#5 ++ 1#1)) = none ∧
    dec (word 1 0 0 0 0x1F 0) = none ∧
    dec (word 1 6 0 0 0x11 0) = none := by decide

/-! ### Witnesses: every syllable passes its checks somewhere -/

/-- The checks of a syllable, as a truth value. -/
def passes (s : State) (i : Instr) : Bool :=
  match sylOf i with
  | some y => y.legal (s.setFr (s.fr.alone i)) && (y.chk (s.setFr (s.fr.alone i))).isNone
  | none => false

theorem passes_sound {s : State} {i : Instr} (h : passes s i = true) : Passes s i := by
  unfold passes at h
  split at h
  · next y hy =>
    simp only [Bool.and_eq_true, Option.isNone_iff_eq_none] at h
    exact ⟨y, hy, h.1, h.2⟩
  · cases h

/-- A window of the scratchpad: KIND 1, RD and WR, a format, LEN 64 KiB, BASE 0 (R26). -/
def win (fmt geo : Nat) : Win := ⟨BitVec.ofNat 64 (2 ^ 62 + 2 ^ 56 + 2 ^ 55 + fmt * 2 ^ 51 + geo * 2 ^ 49 + 0x10000 * 2 ^ 24), 0⟩

/-- Context 0 of core 0, bound and privileged, with the matrix grant, every tile, a seed and the windows WIN0 raw, WIN1 FP32, WIN2 digit
planes, WIN3 BSI8 in ROW4, the rest raw; the nest table names WIN3 twice; `f` changes the context. -/
def here (f : Ctx → Ctx := id) : State :=
  let wins : Vector Win 8 := Vector.ofFn fun i => win ([0, 1, 13, 8].getD i.val 0) (if i.val = 3 then 0 else 3)
  let c : Ctx := { sys := { priv := true, wins := wins }, bound := true, bind := { mgrant := true, tiles := 0xFF } }
  let s := (State.reset.setCtx 0 0 (f c)).setFr { lits := List.replicate 15 0 }
  let s := s.setMyCore { s.myCore with shadow := { abase := 0x60000000, bbase := 0x60000000, bt := true } }
  { s with seedlog := [(0, { valid := true })] }

/-- The same with a scalar register of context 0 set. -/
def withS (l : List (Fin 32 × Word)) (c : Ctx) : Ctx :=
  { c with regs := { c.regs with s := l.foldl (fun v p => v.set p.1 p.2) c.regs.s } }

/-- Words at the start of the scratchpad of core 0. -/
def record (ws : List Word) (s : State) : State := { s with mem := s.mem.write (padAddr 0) (bytesOf ws) }
/-- A copy address of element 0 of a window (R293). -/
def windowEnd (n : Nat) : Word := BitVec.ofNat 64 (2 ^ 63 + n * 2 ^ 60)

theorem witness_scalar :
    ([.add t 4 8 12, .sub t 4 8 12, .mul t 4 8 12, .mulh t 4 8 12, .and t 4 8 12, .or t 4 8 12, .xor t 4 8 12, .andn t 4 8 12, .shl t 4 8 12,
     .shr t 4 8 12, .sra t 4 8 12, .min t 4 8 12, .max t 4 8 12, .addi t 4 8 5, .muli t 4 8 5, .andi t 4 8 5, .ori t 4 8 5,
     .xori t 4 8 5, .shli t 4 8 5, .shri t 4 8 5, .srai t 4 8 5, .addl t 4 8 0, .addx3 t 4 8 12, .movi t 4 5, .movl t 4 0,
     .movl64 t 4 0, .clz t 4 8, .popc t 4 8] : List Instr).all (fun i => (arithRow i).isSome && passes here i) = true := by decide

theorem witness_predicate :
    ([.cmpeq t 3 8 12, .cmpne t 3 8 12, .cmplt t 3 8 12, .cmpge t 3 8 12, .cmpltu t 3 8 12, .cmpgeu t 3 8 12, .cmpeqi t 3 8 5,
     .cmplti t 3 8 5, .cmpltui t 3 8 5, .pand t 3 1 2 0 0, .por t 3 1 2 0 0, .pxor t 3 1 2 0 0, .sel t 4 8 12] : List Instr).all (fun i => (predRow i).isSome && passes here i) = true := by decide

theorem witness_system :
    ([.mfsr t 4 6, .mtsr t 4 6, .rden t 4] : List Instr).all (fun i => (sysRow i).isSome && passes here i) = true := by decide

theorem witness_float :
    ([.vaddF32 t 4 8 12, .vsubF32 t 4 8 12, .vmulF32 t 4 8 12, .vfmaF32 t 4 8 12, .vaddBf16 t 4 8 12, .vsubBf16 t 4 8 12, .vmulBf16 t 4 8 12,
     .vfmaBf16 t 4 8 12, .vaddF16 t 4 8 12, .vmulF16 t 4 8 12, .vfmaF16 t 4 8 12, .vminF32 t 4 8 12, .vmaxF32 t 4 8 12,
     .vminBf16 t 4 8 12, .vmaxBf16 t 4 8 12] : List Instr).all (fun i => (fpRow i).isSome && passes here i) = true := by decide

theorem witness_integer :
    ([.vaddI32 t 4 8 12, .vsubI32 t 4 8 12, .vmulI32 t 4 8 12, .vaddsI32 t 4 8 12, .vminI32 t 4 8 12, .vmaxI32 t 4 8 12, .vaddI16 t 4 8 12,
     .vsubI16 t 4 8 12, .vmulI16 t 4 8 12, .vaddsI16 t 4 8 12, .vaddI8 t 4 8 12, .vsubI8 t 4 8 12, .vaddsI8 t 4 8 12] : List Instr).all (fun i => (intRow i).isSome && passes here i) = true := by decide

theorem witness_move :
    ([.vand t 4 8 12, .vor t 4 8 12, .vxor t 4 8 12, .vshlI32 t 4 8 12, .vshrI32 t 4 8 12, .vsraI32 t 4 8 12, .vperm t 4 8 12,
     .vbcast t 4 8 5, .vsplat t 4 8, .vsel t 4 8 12] : List Instr).all (fun i => (moveRow i).isSome && passes here i) = true := by decide

theorem witness_mask :
    ([.vcmpeqF32 t 3 8 12, .vcmpltF32 t 3 8 12, .vcmpleF32 t 3 8 12, .vcmpeqI32 t 3 8 12, .vcmpltI32 t 3 8 12, .vcmpleI32 t 3 8 12,
     .vmand t 3 1 0, .vmor t 3 1 0, .vmxor t 3 1 0, .vmovm t 3 8] : List Instr).all (fun i => (maskRow i).isSome && passes here i) = true := by decide

theorem witness_convert :
    ([.vcvt t 4 8 0 1, .vcvtSr t 4 8 0 1, .vpack t 4 8 0, .vunpk t 4 8 0, .vexp2 t 4 8, .vlog2 t 4 8, .vrcp t 4 8, .vrsq t 4 8, .vrand t 4] : List Instr).all (fun i => (convertRow i).isSome && passes here i) = true := by decide

theorem witness_across :
    ([.vredAddF32 t 4 8, .vredMinF32 t 4 8, .vredMaxF32 t 4 8, .vredAddI32 t 4 8, .vscanAddF32 t 4 8, .vscanAddI32 t 4 8, .vpart t 4 1 5] : List Instr).all (fun i => (acrossRow i).isSome && passes here i) = true := by decide

-- DEEDS
theorem witness_control :
    ([.br t 4, .call t 4, .jr t 8, .callr t 8, .ret t, .brl t 0, .loop t 1 8, .yield t, .tend t] : List Instr).all (fun i => (controlDeed i).isSome && passes here i) = true := by decide

theorem witness_local :
    ([.vld t 4 0 8, .sld t 4 0 8, .sldd t 4 0 8, .vldm t 3 0 8, .vst t 4 0 8, .vstm t 4 0 8 2, .sst t 4 0 8, .sstd t 4 0 8, .vlds t 4 0 8 0,
     .vsts t 4 0 8 0, .vldg t 4 0 6, .vstg t 4 0 6, .aadd t 4 0 8, .amin t 4 0 8, .amax t 4 0 8, .axchg t 4 0 8, .acas t 4 0 8] : List Instr).all (fun i => (localDeed i).isSome && passes here i) = true := by decide

theorem witness_matrix :
    ([.mcfg g 32 8, .mcfgl g 32 0, .mcfgrd g 32 8, .mnest g, .accinit g 1 8, .accinitU g 1, .accnorm g 1 8, .accnormRow g 1 8,
     .accscale g 1 8, .accscaleRow g 1 8, .accrd g 4 1 8 0, .accwr g 4 1 8 0, .msmx g 1 2 3 8, .mchk g 1, .accst g 4 1 8,
     .accexp g 4 1 8, .accloss g 4 1 8, .acclog g 4 1 8, .accside g 4 1 8] : List Instr).all (fun i => (matrixDeed i).isSome && passes here i) = true := by decide

theorem witness_async :
    ([.xmove g 1 0 8, .xfence g 7 0, .xchain g 7 8 0, .xred g 7 8 0, .xatom g 7 8 0, .xbara g 7 8 0, .xbarw g 7 8 0, .xlaunch g 7 8 0,
     .xckpt g 7 8 0, .xhdel g 7 8 0, .xsend g 7 8 0, .xsig g 7 8 0, .xredv g 7 8 0, .xpcan g 7 8 0, .xrecv g 7 8 0, .xstat g 4 0,
     .xpcnt g 4 8] : List Instr).all (fun i => (asyncDeed i).isSome && passes here i) = true := by decide

theorem witness_draw :
    ([.rand t 4, .seedreq t 4 7] : List Instr).all (fun i => (drawDeed i).isSome && passes here i) = true := by decide

theorem witness_local_formats :
    ([.aaddF32 t 4 1 8] : List Instr).all (passes here) = true ∧ passes here (.pfxld t 4 2 8) = true := by decide

/-- SYNC in a sync bundle. -/
theorem witness_sync : passes (here.setFr { here.fr with tmpl := 1 }) (.sync t) = true := by decide

/-- XCOPY of one 32-bit element from window 4 to window 5 (R295): NDIM 1, ELEM 5; B 1; the extents 1, the strides 1. -/
def boxRecord : List Word :=
  [BitVec.ofNat 64 (2 ^ 12 + 5), windowEnd 4, windowEnd 5, 0, 0, 0, 0, 0, 1, BitVec.ofNat 64 (2 ^ 32), BitVec.ofNat 64 (2 ^ 32), 1, 1, 0]
/-- XLIN of 256 elements of 32 bits, and of 16, which is a static-domain copy (R299). -/
def linRecord (n : Nat) : List Word := [5, windowEnd 4, windowEnd 5, BitVec.ofNat 64 n]
/-- One row of one element of 32 bits (R300). -/
def rowRecord : List Word := [5, windowEnd 4, windowEnd 5, 1, 1, 1, 1]

theorem witness_copies :
    passes (record boxRecord here) (.xcopy g 7 8 0) = true ∧ passes (record (linRecord 256) here) (.xlin g 7 8 0) = true ∧
    passes (record (linRecord 16) here) (.xlin g 7 8 0) = true ∧ passes (record rowRecord here) (.xgath g 7 8 0) = true ∧
    passes (record rowRecord here) (.xscat g 7 8 0) = true := by decide

theorem witness_index : passes (here fun c => { c with seq := some ⟨⟨0, 0⟩, 1, 0⟩ }) (.xidx g 8) = true := by decide

/-- A descriptor of 64 elements of group 0: source in WIN1, destination in WIN2, staging in WIN2 from tile 1 on (R415). -/
def collRecord (stage : Bool) : List Word := [64, windowEnd 1, windowEnd 2, if stage then windowEnd 2 + 1 else 0]
/-- Group 0 of two members (R407). -/
def grouped (s : State) : State := { s with groups := [(0, { v := true, n := 2 })] }

theorem witness_collectives :
    passes (grouped (record (collRecord true) here)) (.xallr g 7 8 0) = true ∧
    passes (grouped (record (collRecord true) here)) (.xrdsc g 7 8 0) = true ∧
    passes (grouped (record (collRecord false) here)) (.xallg g 7 8 0) = true ∧
    passes (grouped (record (collRecord false) here)) (.xbcst g 7 8 0) = true := by decide

/-- One row of four elements of A in WIN3 and of B at virtual address 0, summed into tile 1 (R358). -/
def mvRecord : List Word := [BitVec.ofNat 64 (4 * 2 ^ 32 + 2 ^ 25 + 2 ^ 21 + 2 * 2 ^ 13 + 2 * 2 ^ 11), windowEnd 3, 0, 4]
theorem witness_xmvb : passes (record mvRecord here) (.xmvb g 7 8 0) = true := by decide

/-- A virtual region of one line (R384). -/
theorem witness_xhadd : passes (here (withS [(8, BitVec.ofNat 64 (2 ^ 63)), (9, 1)])) (.xhadd g 7 8 0) = true := by decide

/-- Syllables whose condition is 0. -/
theorem witness_condition_off :
    ([.br tn 4, .vld tn 4 0 8, .rand tn 4] : List Instr).all (fun i => passes here i) = true ∧ here.condS tn = false ∧
    here.condL tn = false ∧ ([.mnest gn, .xstat gn 4 0] : List Instr).all (passes here) = true ∧ here.cond gn = false := by decide


/-! ### Witnesses: control, traps and the step -/

/-- A transfer of context 0 of core 0, the first of channel 0, with nothing of it done. -/
def xf (op : Instr) (lit : W32) (recd args : List Word) (phase : Phase := .started) : Xfer :=
  { op := op, x := ⟨0, 0⟩, core := 0, ctx := 0, asid := 0, wid := 0, taskid := 0, lit := lit, uses := [], bulk := false, recd := recd
    args := args, vec := [], wins := here.me.sys.wins, fixed := false, phase := phase, since := 0, ord := 0 }

/-- Core 0 changed. -/
def onCore (f : Core → Core) (s : State) : State := s.setCore 0 (f (s.core 0))
/-- Context 0 of core 0 changed. -/
def onCtx (f : Ctx → Ctx) (s : State) : State := s.setCtx 0 0 (f (s.ctx 0 0))
/-- The transfer in flight. -/
def flying (t : Xfer) (s : State := here) : State :=
  onCore (fun k => { k with xfers := [t], chans := k.chans.set 0 { nid := 1 } }) s
/-- k1 names the first transfer of channel 0. -/
def tokened (s : State) : State := onCtx (fun c => { c with regs := { c.regs with k := c.regs.k.set 1 (tokenOf ⟨0, 0⟩) } }) s
/-- An XFENCE. -/
def fence : Xfer := xf (.xfence g 7 0) 0 [] []

/-- The tokens that a KWAIT names are late; they are ready; the first one with an error has the code 0x084. -/
def lateTokens (s : State) (ka kb : BitVec 6) : List Word :=
  [s.me.regs.kGet ka, s.me.regs.kGet kb].filter fun w => !s.myCore.ready w

theorem witness_kwait :
    here.condS tn = false ∧ here.condS t = true ∧ lateTokens here 0 63 = [] ∧ here.myCore.errorOf (here.me.regs.kGet 0) = none ∧
    lateTokens (tokened (flying fence)) 1 0 ≠ [] ∧ here.me.region = false ∧
    (onCtx (fun c => { c with region := true }) here).me.region = true ∧
    (let s := tokened (onCore (fun k => { k with faults := [⟨fence, 0x084, 64, false⟩], chans := k.chans.set 0 { nid := 1, wm := 1 } }) here)
     lateTokens s 0 1 = [] ∧ ((s.myCore.errorOf (s.me.regs.kGet 1)).map fun r => r.code) = some 0x084) := by decide

theorem witness_trap_eret_nop :
    passes here (.trap t 0x3C1) = true ∧ passes here (.trap tn 0x3C1) = true ∧ wellFormed (.nop a0) = true ∧
    wellFormed (.eret t) = true ∧ (here.me.sys.priv && here.me.sys.intrap) = false ∧
    (let s := here fun c => { c with sys := { c.sys with intrap := true } }
     s.me.sys.priv = true ∧ s.me.sys.intrap = true ∧ s.condS t = true ∧ s.condS tn = false) := by decide

/-- A syllable that is illegal: TRAP of 0x3BF. One with a fault: MTSR of CTXSTAT outside privileged mode (R12). One that a breakpoint
meets has no slot. -/
theorem witness_failed_checks :
    ((sylOf (.trap t 0x3BF)).map fun y => y.legal (here.setFr (here.fr.alone (.trap t 0x3BF)))) = some false ∧
    (let s := here fun c => { c with sys := { c.sys with priv := false } }
     let i : Instr := .mtsr t 4 1
     (sylOf i).map (fun y => (y.legal (s.setFr (s.fr.alone i)), (y.chk (s.setFr (s.fr.alone i))).map fun f => f.code))
       = some (true, some 0x381)) := by decide

theorem witness_system_registers :
    srAssigned 0x0F = false ∧ srAssigned 0x50 = false ∧ (here fun c => { c with sys := { c.sys with priv := false } }).me.sys.priv = false ∧
    ((here (withS [(8, 0x800)])).rdS 8).getLsbD 11 = true ∧ 5 ≤ ((here (withS [(8, 5)])).rdS 8).toNat % 8 ∧
    ((here (withS [(8, 3)])).rdS 8).toNat % 4 = 3 := by decide

/-- Context 0 with s8 as given. -/
def s8 (w : Word) : State := here (withS [(8, w)])
/-- A window word that every check of R28 admits, and one that it refuses, in both places. A write of CTXSTAT that changes no field that
no write may change, one that does, and one outside privileged mode that leaves PRIV 0. -/
theorem witness_register_words :
    (let even (w : Word) : Win := ⟨winWord0 ((s8 w).rdS 8), (s8 w).me.sys.wins[(0 : Fin 8)].w1⟩
     (s8 0).me.sys.priv = true ∧ (even 0).ok = true ∧ (even (BitVec.ofNat 64 (3 * 2 ^ 62))).ok = false) ∧
    (let odd (w : Word) : Win := ⟨(s8 w).me.sys.wins[(3 : Fin 8)].w0, winWord1 ((s8 w).rdS 8)⟩
     (odd (BitVec.ofNat 64 (0x20000 * 2 ^ 24))).word1Ok = true ∧ (odd (BitVec.ofNat 64 (2 ^ 64 - 1))).word1Ok = false) ∧
    (let r := here.readSr 0x00
     ((s8 r).rdS 8).extractLsb' 12 4 = ((s8 r).readSr 0x00).extractLsb' 12 4 ∧
     ((s8 r).rdS 8).extractLsb' 8 3 = ((s8 r).readSr 0x00).extractLsb' 8 3 ∧
     ((s8 (r + 0x1000)).rdS 8).extractLsb' 12 4 ≠ ((s8 (r + 0x1000)).readSr 0x00).extractLsb' 12 4) ∧
    (let s := here fun c => { withS [(8, 0)] c with sys := { c.sys with priv := false } }
     (s.rdS 8).extractLsb' 8 3 = (s.readSr 0x00).extractLsb' 8 3 ∧ (s.rdS 8).getLsbD 11 = false) := by decide

/-- Delivery inside a handler, by freezing, and into the handler; and nothing to reload. -/
theorem witness_trap_delivery :
    (here.ctx 0 0).reload = false ∧ (here.ctx 0 0).treload = false ∧ (here.ctx 0 0).frozen = .none ∧ 0x281 ∈ freezeCodes ∧
    0x3C0 ∉ freezeCodes ∧ (here.ctx 0 0).sys.intrap = false ∧ (here.ctx 0 0).region = false ∧
    ((here fun c => { c with sys := { c.sys with intrap := true } }).ctx 0 0).sys.intrap = true := by decide

/-- Core 0 about to issue a bundle of one word. -/
def placed (w : W32) : State := { State.reset.placeWord w with agenda := [some (.bundleIssue, {})] }
/-- MOVI s4, 7. -/
def moviWord : W32 := 0x801A2007#32

/-- The state of `StepRunsInstruction` before its bundle. -/
def taking (w : W32) : State := (({ placed w with agenda := [] }).boundaries 0).setCore 0
  { ((({ placed w with agenda := [] }).boundaries 0).core 0).select with did := 1#5, payer := some 0 }

theorem witness_step_runs :
    (placed moviWord).agenda = [some (.bundleIssue, {})] ∧ (placed moviWord).runs 0 = true ∧
    (let k := ((({ placed moviWord with agenda := [] }).boundaries 0).core 0).select
     k.did = 0 ∧ k.holder = some 0 ∧ k.wait = 0) ∧
    (let c := (taking moviWord).ctx 0 0
     c.run = none ∧ c.report = none ∧ (taking moviWord).serves 0 0 = false ∧ c.lsk = false ∧ c.reload = false ∧ c.treload = false ∧
     c.arrived = false) ∧
    (match (taking moviWord).frontEnd 0 0 with
     | .inl _ => false
     | .inr (b, u) => decide (b.rep = 0 ∧ b.clr = 0 ∧ b.tmpl = 0 ∧ b.syls = [moviWord] ∧ dec moviWord = some (.movi t 4 7) ∧
         (((taking moviWord).ctx 0 0).opsAt b 0).map (fun o => (o.slot, o.op, o.cap, o.fresh)) = [(0, .movi t 4 7, none, true)]) &&
         ((u.unready (((taking moviWord).ctx 0 0).opsOf b)).isEmpty) &&
         ((u.countOps b (((taking moviWord).ctx 0 0).opsOf b)).issueFault b (((taking moviWord).ctx 0 0).opsOf b)).isNone &&
         passes (oneIssue (taking moviWord) 0 0 b (.movi t 4 7) 0 none) (.movi t 4 7)) = true := by decide

/-- A bundle of one NOP. -/
theorem witness_step_runs_nop :
    (match (taking 0x80000000#32).frontEnd 0 0 with
     | .inl _ => false
     | .inr (b, _) => (((taking 0x80000000#32).ctx 0 0).opsAt b 0).isEmpty && (((taking 0x80000000#32).ctx 0 0).opsOf b).isEmpty &&
         decide (b.syls = [0x80000000#32])) = true := by decide

/-- A result that lands, one that lands later, and two that meet in s4 (R84). -/
def results : List Landing :=
  [⟨1, 0, 0, .s 4, 5, [], 0, 0⟩, ⟨1, 2, 0, .v 3, 0, splat 9, 1, 1⟩, ⟨2, 0, 0, .p 1, 1, [], 0, 0⟩, ⟨1, 1, 0, .s 4, 6, [], 0, 0⟩]

theorem witness_results_land :
    Wins ⟨1, 1, 0, .s 4, 6, [], 0, 0⟩ (results.filter fun l => decide (l.left ≤ 1)) ∧
    Wins ⟨1, 2, 0, .v 3, 0, splat 9, 1, 1⟩ (results.filter fun l => decide (l.left ≤ 1)) ∧
    anyMeet (sortLandings (results.filter fun l => decide (l.left ≤ 1))) = true := by
  unfold Wins
  decide


/-! ### Witnesses: the clk, freezing and core pairs -/

/-- A bundle ready in core 0's first context, and the context changed. -/
def ready (w : W32) (f : Ctx → Ctx := id) : State := onCtx f { placed w with agenda := [] }
/-- SYNC alone in slot S0. -/
def syncWord : W32 := 0x80390000#32
/-- What the front end gives, and a property of it. -/
def fronts (s : State) (p : Bundle → State → Bool) : Bool :=
  match (taken s 0 0).frontEnd 0 0 with
  | .inl _ => false
  | .inr (b, u) => p b u

theorem witness_issue : InHand (ready moviWord) 0 0 := by
  unfold InHand
  decide

/-- A chest that cannot be reloaded, and a bundle in a word of the instruction store with a parity error. -/
theorem witness_upsets :
    (let s := onCore (fun k => { k with upsets := [.chest 0] }) (ready moviWord fun c => { c with reload := true })
     InHand s 0 0 ∧ (s.ctx 0 0).run = none ∧ (s.ctx 0 0).arrived = false ∧ (s.core 0).badChest 0 = true) ∧
    (let s := onCore (fun k => { k with upsets := [.istore 0] }) (ready moviWord)
     InHand s 0 0 ∧ (s.core 0).badChest 0 = false ∧ (s.core 0).breaks 0 = false ∧
     (match (s.core 0).fetch 0 with
      | .ok b => (s.core 0).badBundle 0 b.bytes
      | .error _ => false) = true) := by
  unfold InHand
  decide

/-- A parity error is reported to the syllable that reads the place, with its slot (R211), and to no other. -/
theorem test_register_parity :
    (let s := onCore (fun k => { k with upsets := [.reg 0 (.s 5)] }) here
     s.meets (.add t 4 5 6) 0 = some ⟨0x305, 0, some 0, none⟩ ∧ s.meets (.add t 5 4 6) 0 = none ∧
     s.meets (.vsplat t 1 5) 2 = some ⟨0x305, 0, some 2, none⟩) ∧
    (let s := onCore (fun k => { k with upsets := [.tile 1] }) here
     s.meets (.accrd g 4 1 8 0) 6 = some ⟨0x304, 1, none, none⟩ ∧ s.meets (.accrd { g with inv := true } 4 1 8 0) 6 = none ∧
     s.meets (.accinit g 1 8) 6 = none) := by decide

/-- A report that waits; and a context at the handler's address, after TRAP 0x3C4. -/
theorem witness_reports :
    (let c (r : Option Trap) : Ctx → Ctx := fun c => { c with report := r }
     let s := ready moviWord (c (some ⟨0x087, 0, none, none⟩))
     InHand s 0 0 ∧ (s.ctx 0 0).report = some ⟨0x087, 0, none, none⟩ ∧ (s.core 0).badChest 0 = false) ∧
    (let s := ready moviWord fun c => { c with sys := { c.sys with intrap := true, cause := 0x3C4#32 }, bind := { c.bind with tvec := c.pc } }
     InHand s 0 0 ∧ s.serves 0 0 = true ∧ (s.ctx 0 0).report = none) := by
  unfold InHand
  decide

theorem witness_dead_clk :
    (let s := onCore (fun k => { k with wait := 2 }) (ready moviWord)
     s.runs 0 = true ∧ (s.core 0).did.getLsbD 0 = false ∧ s.boundaries 0 = s ∧ (s.core 0).holder = some 0 ∧ (s.core 0).wait = 1 + 1) := by
  decide

theorem witness_scan :
    InHand (ready moviWord fun c => { c with lsk := true }) 0 0 ∧
    (let s := ready moviWord fun c => { c with lsk := true }
     fronts s (fun b u => (u.countOps b (scanned ((s.ctx 0 0).opsOf b))).issueFault b (scanned ((s.ctx 0 0).opsOf b)) |>.isNone) = true) := by
  unfold InHand
  decide

theorem witness_switch :
    (let s := onCore (fun k => { k with holder := none }) (ready moviWord)
     s.runs 0 = true ∧ (s.core 0).did.getLsbD 0 = false ∧ (s.core 0).holder = none ∧ (s.core 0).nextHolder = some 0) := by decide

theorem witness_arrive :
    InHand (ready syncWord fun c => { c with arrived := false, release := none }) 0 0 ∧
    (let s := ready syncWord fun c => { c with arrived := false, release := none }
     (match (s.core 0).fetch 0 with
      | .ok b => decide (b.tmpl = 1)
      | .error _ => false) = true ∧
     fronts s (fun b u => (u.unready ((s.ctx 0 0).opsOf b)).isEmpty &&
       ((u.atRelease.countOps b ((s.ctx 0 0).opsOf b)).issueFault b ((s.ctx 0 0).opsOf b)).isNone &&
       decide (u.handlerMaps 0 0 = u)) = true ∧ (s.ctx 0 0).frozen = .none ∧ s.serves 0 0 = false) := by
  unfold InHand
  decide

theorem witness_idle_core :
    State.reset.runs 0 = true ∧ State.reset.boundaries 0 = State.reset ∧ (State.reset.core 0).did = 0 ∧
    (State.reset.core 0).holder = none ∧ (State.reset.core 0).nextHolder = none ∧ (State.reset.die 0).hold = 0 ∧
    ((State.reset.setDie 0 { hold := 3 }).die 0).winHeld < ((State.reset.setDie 0 { hold := 3 }).die 0).hold ∧
    (State.reset.setDie 0 { park := .retained }).runs 0 = false := by decide

theorem witness_trestle :
    (let s := here fun c => { c with arrived := true, bind := { c.bind with gang := true, gsize := 1, v := true } }
     (s.ctx 0 0).arrived = true ∧ (s.ctx 0 0).release = none ∧ (s.ctx 0 0).bind.gang = true ∧ (s.ctx 0 0).bind.tline.toNat = s.ev.index ∧
     ∀ m ∈ s.trestleGang 0 0, (s.ctx m.1 m.2).asserts = true) := by decide

/-- A context over its ceiling, one under it, and one past its quantum while a reservation holds its die. -/
theorem witness_freeze :
    (let s := here fun c => { c with bind := { c.bind with ebud := 1 }, sys := { c.sys with ecnt := 2 } }
     (s.ctx 0 0).bound = true ∧ (s.ctx 0 0).frozen = .none ∧ (s.ctx 0 0).run = none ∧ (s.ctx 0 0).overBudget = true ∧
     (s.ctx 0 0).region = false ∧ (s.ctx 0 0).bind.gang = false) ∧
    ((here fun c => { c with sys := { c.sys with intrap := true } }).ctx 0 0).sys.intrap = true ∧
    (here.ctx 0 0).overBudget = false ∧ ((here fun c => { c with frozen := .park }).ctx 0 0).frozen ≠ .none ∧
    ((here fun c => { c with run := some ⟨⟨2, 1, 0, 0, [], []⟩, 1, c.regs, c.sys.wins, 0, 0⟩ }).ctx 0 0).run ≠ none ∧
    ((taking moviWord).ctx 0 0).run = none := by decide

theorem witness_preempt :
    (let s := (here fun c => { c with started := true, bind := { c.bind with quant := 1 } }).setDie 0 { reserved := some (0, 0) }
     (s.ctx 0 0).bind.quant.toNat * 1024 ≤ ({ s with wcc := 1024 } : State).wcc.toNat - (s.ctx 0 0).boundAt ∧
     (s.die (dieOf 0)).reserved.isSome = true ∧ (s.ctx 0 0).started = true ∧ (s.ctx 0 0).seq = none ∧
     s.wcc.toNat - (s.ctx 0 0).boundAt < (s.ctx 0 0).bind.quant.toNat * 1024) := by decide

/-- A free pair; a protected pair whose signatures differ, and one with a record that the trailing core has still to make; a score
to lower after 24 hours, and not before. -/
theorem witness_pairs :
    ((State.reset.pair 0).quar = false ∧ (State.reset.pair 0).prot ≠ true ∧
      ∀ x : Fin 4, State.reset.ctxFree 0 x = true ∧ State.reset.ctxFree 1 x = true) ∧
    here.ctxFree 0 0 = false ∧
    (let s := here.setPair 0 { prot := true, csigL := 1, csigT := 2 }
     s.ev.flag = false ∧ (s.pair 0).prot = true ∧ (s.pair 0).csigL ≠ (s.pair 0).csigT ∧ (s.ctx 0 0).bound = true ∧ (s.ctx 0 0).frozen = .none) ∧
    (let z : Pair := { prot := true, lag := [(1, [2])] }
     z.lag = (1, [2]) :: [] ∧ z.csigL = z.csigT) ∧
    (let z := (State.reset.setPair 0 { score := 3 }).pair 0
     z.score ≠ 0 ∧ z.quar = false ∧ z.since + 86400 * second ≤ (BitVec.ofNat 64 (86400 * second) : Word).toNat ∧
     State.reset.wcc.toNat < z.since + 86400 * second) ∧
    ((State.reset.setPair 0 { quar := true }).pair 0).quar = true := by decide

/-- A launch record: version 1, one field of one bit whose extent is 2, the graph, completion record, code and arguments at virtual
addresses 0x10000, 0x20000, 0x30000 and 0x40000, and cluster 0 (R259). -/
def launchRec : List Word :=
  [BitVec.ofNat 64 (2 ^ 56 + 2 ^ 48 + 1), 0, 100, 0x10000, 0x20000, 0x30000, 0x40000, BitVec.ofNat 64 (2 ^ 56 + 1), 2, 0, 0, 0, 0, 0, 0, 0]
/-- Launch 0, of one queue. -/
def launch0 : Launch := { num := 0, queue := some 0, issuer := none, recd := launchRec, graph := [], budget := 100, wacc := 0 }
/-- Context 0 of core 0 serves entry 0 of the queue of cluster 0, for launch 0. -/
def tasked (f : Ctx → Ctx := id) (sl : Slot := { dst := .frozen, entry := some (0, 0) }) (e : QueueEntry := { st := .bound, live := 1 }) : State :=
  { here f with clusters := [(0, { slots := [(0, sl)], queue := [(0, e)] })], launches := [launch0] }

theorem witness_reexecution :
    (let s := (tasked fun c => { c with frozen := .trap, bind := { c.bind with reex := true }, sys := { c.sys with cause := 0x309#32 } }).setPair 0
       { prot := true, vote := some (1, 2, 0) }
     (s.pair 0).watch = none ∧ (s.pair 0).vote = some (1, 2, 0) ∧ s.mismatched 0 = some 0 ∧ (s.ctx 0 0).bind.gang = false ∧
     (s.ctx 0 0).saveIn = none ∧ (s.slot (clusterIndex 0) (entryOf 0 0)).entry = some (0, 0) ∧
     ∀ y, y ≠ 0 → (s.ctx 0 y).frozen ≠ .trap) := by decide

/-- A third run on pair 1 has made its commits: its signature is that of one core of pair 0, and that of neither. -/
theorem witness_verdict :
    (let r : ThirdRun := { gmem := 0, pair := 0, lead := 1, trail := 2, nc := 5, lnum := 0, wid := 0, taskid := 0 }
     let s := { State.reset.setPair 1 { watch := some r, seen := some 2 } with ev := { index := 1 } }
     (s.pair s.ev.index).watch = some r ∧ (s.pair s.ev.index).seen = some 2 ∧ (s.pair s.ev.index).vote = none ∧ r.pair ≠ s.ev.index ∧
     (2 = r.lead ∨ 2 = r.trail) ∧ (3 : W32) ≠ r.lead ∧ (3 : W32) ≠ r.trail) := by decide

/-- A third run with a mismatch of its own; and a task frozen for a mismatch that may not run again. -/
theorem witness_failed_runs :
    (let r : ThirdRun := { gmem := 0, pair := 0, lead := 1, trail := 2, nc := 5, lnum := 0, wid := 0, taskid := 0 }
     let s := { State.reset.setPair 1 { watch := some r, vote := some (1, 2, 3) } with ev := { index := 1 } }
     (s.pair s.ev.index).watch = some r ∧ (s.pair s.ev.index).vote ≠ none) ∧
    (let s := tasked fun c => { c with frozen := .trap, sys := { c.sys with cause := 0x309#32 } }
     let c := s.ctx 0 0
     s.launch? s.ev.lnum = some launch0 ∧ launch0.failed = none ∧ launch0.aborted = false ∧ c.bound = true ∧
     (c.sys.taskid.extractLsb' 32 32).toNat = launch0.num ∧ c.frozen = .trap ∧ c.saveIn = none ∧ c.second = none ∧
     c.sys.cause.extractLsb' 0 10 = 0x309#10 ∧ c.bind.reex = false ∧ (s.launch? 0).isSome = true) := by decide

/-- Core 2 of the same cluster can take the task. -/
theorem witness_migration :
    (let s := tasked fun c => { c with frozen := .request, bind := { c.bind with wins := c.sys.wins } }
     (s.slot (clusterIndex 0) (entryOf 0 0)).entry = some (0, 0) ∧ s.movable 0 0 = true ∧ s.coreFits 2 false = true ∧
     s.ctxFree 2 0 = true ∧ movedWinsOk (s.ctx 0 0).bind.wins.toList (s.ctx 0 0).bind.wins.toList (clusterOf 2) = true ∧
     clusterIndex 2 = 0 ∧ (s.entry (0, 0)).st = .bound ∧ (s.entry (0, 0)).live = 1 ∧ (s.entry (0, 0)).home = []) := by decide


/-! ### Witnesses: local memory, the matrix unit and transfers -/

/-- An answer that is no error. -/
def fine {ε α : Type} (e : Except ε α) : Bool :=
  match e with
  | .ok _ => true
  | .error _ => false
/-- The value of an answer has a property. -/
def yields {ε α : Type} (e : Except ε α) (p : α → Bool) : Bool :=
  match e with
  | .ok x => p x
  | .error _ => false
/-- The answer is the error `x`. -/
def errs {α : Type} (e : Except Nat α) (x : Nat) : Bool :=
  match e with
  | .ok _ => false
  | .error y => y == x

theorem witness_memory : Memory.wf [(1, 5), (7, 255)] = true ∧ State.reset.mem.wf = true := by decide

/-- Context 0 with window 0 as given, and s8 as given. -/
def windowed (w : Win) (n : Word) : State := here fun c => withS [(8, n)] { c with sys := { c.sys with wins := c.sys.wins.set 0 w } }

/-- No window; a format a load does not accept; an offset that is no multiple of 8 bytes; the last element in range, and the first
that is not (R161). -/
theorem witness_local_faults :
    here.fr.reps = 1 ∧ here.fr.fresh = true ∧ ((windowed {} 0).opWin 0).kind = 0 ∧ (here.opWin 0).rd = true ∧ (here.opWin 0).wr = true ∧
    AccKind.accepts .vld (here.opWin 2).fmt = false ∧ AccKind.accepts .sldd (here.opWin 0).fmt = true ∧
    byteLo 32 ((AccKind.sldd.elems 0 (((windowed (win 0 3) 1).nowS 8).toNat : Int) 0 []).headD 0) % 8 ≠ 0 ∧
    (AccKind.sld.elems 0 (((windowed (win 0 3) 0x4000).nowS 8).toNat : Int) 0 []).any
      (fun x => decide (((here.opWin 0).len : Int) < byteHi 32 x)) = true ∧
    (AccKind.sld.elems 0 (((windowed (win 0 3) 0x3FFF).nowS 8).toNat : Int) 0 []).any
      (fun x => decide (((here.opWin 0).len : Int) < byteHi 32 x)) = false := by decide

/-- An access of core 0 to element 0 of a raw window, due in the clk in hand. -/
def due (k : AccKind) (x : Word := 0) : Access :=
  { kind := k, core := 0, ctx := 0, slot := 4, ord := 0, left := 1, land := 1, keep := .live, port := 0, win := win 0 3, elem := 0, step := 0
    index := [], data := splat 7, arg := x, arg2 := 0, mask := 0, rm := 0, fm := 0, dest := .s 4, dest2 := .s 5, x := ⟨0, 0⟩, msmx := [] }
/-- The access alone on die 0. -/
def performing (a : Access) (s : State := here) : State := onCore (fun k => { k with did := 0x1F#5 }) (s.setDie 0 { acc := [a] })

theorem witness_accesses :
    (∀ k ∈ [AccKind.vld, .sldd, .aadd, .vst, .sstd], PerformsAlone (performing (due k)) 0 (due k)) ∧
    ((due .vst).puts []).1.length = 1 ∧ ((due .sstd 5).puts []).1.length = 1 ∧ (due .vst).kind.isStore = true ∧
    (due .aadd).kind.isAtomic = true := by
  unfold PerformsAlone
  decide

/-- XLIN of one element of 32 bits, as a static-domain copy. -/
def fixedCopy : Xfer := { xf (.xlin g 7 8 0) 0 (linRecord 1) [0] with fixed := true, buf := [1, 2, 3, 4] }

theorem witness_static_copies :
    (let s := performing (due .copyRead 4) (flying fixedCopy)
     let u := s.readFirst 0
     s.runs 0 = true ∧ (u.die 0).acc = [due .copyRead 4] ∧ (due .copyRead).left ≤ 1 ∧ u.flaws = [] ∧
     (u.core 0).xfer? ⟨0, 0⟩ = some fixedCopy ∧ fixedCopy.core = 0 ∧ fixedCopy.fixed = true) ∧
    (let s := performing (due .copyWrite 4) (flying fixedCopy)
     PerformsAlone s 0 (due .copyWrite 4) ∧ due .copyWrite 4 ∈ (s.die 0).acc ∧ ((s.readFirst 0).core 0).xfer? ⟨0, 0⟩ = some fixedCopy ∧
     litScope fixedCopy.lit ≠ 6) := by
  unfold PerformsAlone
  decide

/-- A nest of one step. -/
def nest1 : Nest :=
  { ctx := 0, tab := { abase := 0x60000000, bbase := 0x60000000, bt := true }, winA := win 8 0, winB := win 8 0, next := 0, wait := 1
    remain := 1, array := 0, rotate := false, mirror := false, frozen := false, stopping := false, vals := [], sums1 := [], sums2 := [] }
/-- An arriving unit of tile 1, row 2, the first of the first transfer of channel 0, and that transfer's registration. -/
def unit1 : ArrUnit := ⟨1, 2, 2, ⟨0, 0⟩, 0, 0, List.replicate 64 1, false⟩
def reg1 : Registration := ⟨1, ⟨0, 0⟩, 0, 2, 0, 0⟩

/-- Core 0 with a nest, in a clk of which it has done what `did` says. -/
def nesting (n : Nest) (did : BitVec 5) (bad : List Upset := []) : State :=
  onCore (fun k => { k with nests := [n], did := did, upsets := bad }) here

/-- A step to read, values to add, a nest that ends, with a difference of its second pass and with a tile in error. -/
theorem witness_nests :
    (let k := ((nesting nest1 1).clkIssue 0).core 0
     (nesting nest1 1).runs 0 = true ∧ k.did.getLsbD 1 = false ∧ k.nests = [nest1] ∧ nest1.frozen = false ∧ k.badPes = [] ∧
     nest1.rotate = false ∧ nest1.mirror = false ∧ nest1.next < nest1.tab.steps ∧ nest1.wait ≤ 1 ∧ nest1.remain ≤ 1 ∧ 0 < nest1.tab.nr) ∧
    (let n := { nest1 with rotate := true, next := 1, sums1 := [1, 2], sums2 := [1, 3] }
     let k := ((nesting n 7).coreFirst 0).core 0
     k.did.getLsbD 2 = true ∧ k.twr = [] ∧ k.nests = [n] ∧ n.turnBad ≠ []) ∧
    (let v : StepVals := ⟨1, 0, 1, [splat 1 |>.map fun _ => Dy.zero]⟩
     let n := { nest1 with vals := [v] }
     let k := ((nesting n 3).coreFirst 0).core 0
     k.did.getLsbD 2 = false ∧ k.nests = [n] ∧ n.vals = [v] ∧ v.left ≤ 1) ∧
    (let k := ((nesting nest1 7 [.tile 0]).coreFirst 0).core 0
     nest1.turnBad = [] ∧ nest1.mirrorBad = [] ∧ nest1.tab.tiles.find? (fun i => k.badTile i.toNat) = some 0 ∧ (here.core 0).badTile 1 = false) := by
  decide

/-- What `RowUpdates` asks of a row: one that is set and one that is not, with values and with zeros alone; headroom above and at the
guard, and none to use; exponents in range, above it and below it; writes that land now and later; MSMX from a row without a maximum, and
with one. -/
theorem witness_rows :
    (let t : Tile := {}
     let u : Tile := { rows := (List.replicate 64 ({} : Machine.Row)).set 5 { unset := true } }
     t.rows.length = 64 ∧ (t.row 5).unset = false ∧ -512 ≤ (t.row 5).e ∧ (t.row 5).e ≤ 511 ∧
     (u.row 5).unset = true ∧ (u.row 5).m.length = (List.replicate 64 Dy.zero).length ∧ Dy.zero.isZero = true ∧ (Dy.mk 1 0).isZero = false) ∧
    (let r : Machine.Row := { m := 1 :: List.replicate 63 0 }
     (∀ a ∈ r.m, fits36 a = true) ∧ (∃ a ∈ r.m, a ≠ 0) ∧ 33 < r.headroom ∧ r.headroom ≤ 35 ∧ -512 ≤ r.e ∧
     ((∀ a ∈ ({} : Machine.Row).m, a = 0) ∧ ({ unset := true } : Machine.Row).unset = true)) ∧
    ((∀ a ∈ [(-5 : Int), 0, 5], fits36 a = true) ∧ (511 : Int) < 512 ∧ (-513 : Int) < -512) ∧
    (let ws : List RowWrite := [⟨3, some (1, List.replicate 64 2), none⟩, ⟨4, none, some (1, 2)⟩]
     (∀ w ∈ ws, w.row < 64) ∧ (ws.map RowWrite.row).Nodup) ∧
    (({} : Machine.Row).max = 0xFF800000#32 ∧ ({ max := 0 } : Machine.Row).max ≠ 0xFF800000#32 ∧ ({ max := 0 } : Machine.Row).unset = false) ∧
    (let k (n : Nat) : Core := { (here.core 0) with twr := [⟨n, 0, 1, .init 0 true⟩] }
     (k 2).twr = [⟨2, 0, 1, .init 0 true⟩] ∧ 1 < (⟨2, 0, 1, .init 0 true⟩ : TileWrite).left ∧ (⟨1, 0, 1, .init 0 true⟩ : TileWrite).left ≤ 1) := by
  decide +kernel

theorem witness_arrivals :
    (let k := (onCore (fun k => { k with regn := [reg1] }) here).core 0
     k.awaitsUnit unit1 = true ∧ k.stands reg1 = true ∧ (k.arrq.filter fun v => !v.kept).length < 15) ∧
    (let k := (onCore (fun k => { k with regn := [reg1], arrq := List.replicate 15 { unit1 with tile := 3 } }) here).core 0
     ¬ (k.arrq.filter fun v => !v.kept).length < 15 ∧ k.nextUnit unit1 = true ∧ k.nextUnit { unit1 with seq := 1 } = false ∧
     k.awaitsUnit unit1 = true ∧ k.awaitsUnit { unit1 with seq := 1 } = true ∧ ∀ v ∈ k.arrq, v.kept = false) ∧
    (let k := (onCore (fun k => { k with regn := [reg1], retry := [unit1] }) here).core 0
     k.retry = [unit1] ∧ k.regn = [reg1] ∧ reg1.x = unit1.x) ∧
    (let k := ((onCore (fun k => { k with regn := [reg1], arrq := [unit1], did := 7#5 }) here).coreFirst 0).core 0
     k.did.getLsbD 3 = false ∧ firstUnit (k.arrq.filter k.applicable) = some unit1 ∧ unit1.src ≠ 1 ∧ reg1.done + 1 < reg1.total ∧
     k.badTile 1 = false) ∧
    (let t : Tile := {}
     t.rows.length = 64 ∧ (t.row 5).unset = false ∧ (t.row 5).m.length = (List.replicate 64 Dy.zero).length ∧
     (shiftedRow (t.row 5).m (List.replicate 64 Dy.zero) (t.row 5).e 0).all fits36 = true) := by decide

/-- A die whose SCC has passed the data clk of R291. -/
def clocked (s : State) : State := s.setDie 0 { scc := 100 }
/-- A transfer of channel 0 that may go on. -/
def atWork (t : Xfer) (s : State := here) : State := clocked (flying t s)
/-- XLIN of 256 elements between two windows, in the token domain. -/
def copy : Xfer := xf (.xlin g 7 8 0) 0 (linRecord 256) [0]

theorem witness_copy_piece :
    (atWork copy).evXfer = some copy ∧ recCmp copy.recd = false ∧ (atWork copy).working copy = true ∧ 0 < (atWork copy).goal copy ∧
    (match (atWork copy).settle.copyEnds copy with
     | .error _ => false
     | .ok (src, dst) =>
       let ms := copyMoves (copyKind copy.op) copy.recd copy.rp
       let line := (dst.pieceLines ms).getD 0 0
       let mine := ms.filter fun m => (dst.linesOf m.dst).contains line
       let v := (atWork copy).settle.fillAll copy (moveVas src dst mine)
       (raggedEnd (copyKind copy.op) copy src dst).isNone && fine (v.readDrops copy src dst) &&
       (match (do let cs ← v.moveCells copy src dst mine; v.spots copy dst (cs.filter fun c => c.addr / 64 == line)) with
        | .error _ => false
        | .ok sp => fine (v.writeSpots copy 0 sp))) = true := by decide +kernel

/-- XGATH of one row, whose index has been pushed. -/
def gather : Xfer := { xf (.xgath g 7 8 0) 0 rowRecord [0] with index := [0] }

theorem witness_row :
    (atWork gather).evXfer = some gather ∧ (atWork gather).working gather = true ∧
    (match (atWork gather).settle.copyEnds gather with
     | .error _ => false
     | .ok (src, dst) =>
       let parts := dst.rowParts (gather.row 0)
       let lines := parts.getD 0 []
       let mine := (gather.row 0).filter fun m => (dst.linesOf m.dst).any lines.contains && !(gather.overrun dst 0 lines).contains m.dst
       let v := (atWork gather).settle.fillAll gather (moveVas src dst mine)
       decide (0 < parts.length) && !gather.lineDone 0 0 &&
       yields (v.moveCells gather src dst mine) fun cs => yields (v.spots gather dst (cs.filter fun c => lines.contains (c.addr / 64))) fun sp =>
         fine (v.writeSpots gather (lineKey 0 0) sp)) = true := by decide +kernel

/-- A held transfer that may start; one that inherits an error; one that waits. -/
theorem witness_starts :
    (let t := xf (.xlin g 7 8 0) 0 (linRecord 256) [0] .held
     ((flying t).core 0).startable t = true ∧ ((flying t).core 0).inherited t = none) ∧
    (let t := { xf (.xlin g 7 8 0) 0 (linRecord 256) [0] .held with x := ⟨0, 1⟩, uses := [tokenOf ⟨0, 0⟩] }
     let k := (flying t).core 0
     k.startable t = false ∧
     (let k := { k with chans := k.chans.set 0 { nid := 2, wm := 1 }, faults := [⟨fence, 0x084, 0, false⟩] }
      k.startable t = true ∧ (k.inherited t).isSome = true)) := by decide

/-- An XFENCE that waits for nothing, and an XATOM whose old value is known, may complete. -/
def atomic : Xfer := { xf (.xatom g 7 8 0) 0 [] [0, 1, 2] with pieces := [0], found := 9 }
theorem witness_completes :
    (atWork fence).evXfer = some fence ∧ (atWork fence).mayComplete fence = true ∧ lateOp fence.op = false ∧ litScope fence.lit ≠ 6 ∧
    (atWork fence).coll? 0 ⟨0, 0⟩ = none ∧ (atWork atomic).mayComplete atomic = true ∧ (atWork atomic).landsNow atomic = some true := by
  decide


/-- A fault record of XLIN; a seed request whose entry is known; a barrier of two arrivals in HBM. -/
def seedreq : Xfer := { xf (.seedreq t 4 7) 0 [] [4] with found := 1, pieces := [0] }
theorem witness_side_events :
    (let r : FaultRec := ⟨copy, 0x087, 64, false⟩
     (onCore (fun k => { k with faults := [r] }) here |>.core 0).faults[here.ev.index]? = some r ∧ r.xf.x.ch < 8) ∧
    (let x := xf (.xlin g 7 8 0) 0 (linRecord 256) [0] .held
     ((flying x).core 0).xfers.find? ((flying x).core 0).startable = some x ∧ ((flying x).core 0).inherited x = none ∧
     (flying x).badRecord x = none ∧ here.power.s3 = .none ∧ ({ here with power := { s3 := .quiesce } } : State).power.s3 ≠ .none) ∧
    (atWork seedreq).evXfer = some seedreq ∧ seedreq.err = none ∧ seedreq.wantsSeed = false ∧ (atWork seedreq).landsNow seedreq = some true ∧
    (let m := (Memory.putWord [] 0 (BitVec.ofNat 64 (2 * 2 ^ 32 + 1)))
     let w := m.word 0
     (w.extractLsb' 0 32).toNat + 1 < 2 ^ 32 ∧ (w.extractLsb' 32 32).toNat ≤ (w.extractLsb' 0 32).toNat + 1) ∧
    (let w := (Memory.putWord [] 0 (BitVec.ofNat 64 (2 * 2 ^ 32))).word 0
     (w.extractLsb' 0 32).toNat + 1 < (w.extractLsb' 32 32).toNat) ∧
    State.reset.place 0 = .hbm 0 ∧ State.reset.place (vaultAddr 1 2) = .vault 1 2 ∧ State.reset.retained (State.reset.place 0) false = false ∧
    (let s := State.reset.setDie 0 { park := .retained }
     s.retained (s.place 0) false = true) := by decide

/-- ASID 0, its first page of 4 TiB maps every virtual address to itself, with the format and geometry given; the second, for scale
bytes, is raw and maps to the same memory (R341, R343, R344). -/
def paged (fmt geo : Nat) (s : State) : State :=
  let page (f g : Nat) : Word := BitVec.ofNat 64 (2 ^ 63 + 2 * 2 ^ 61 + f * 2 ^ 41 + g * 2 ^ 39 + 2 ^ 38 + 2 ^ 37 + 2 ^ 36)
  { s with
    astab := 0x2000000
    mem := (((s.mem.putWord 0x2000000 (BitVec.ofNat 64 (2 ^ 63 + 0x201))).putWord 0x2000008 (BitVec.ofNat 64 (2 ^ 42))).putWord
      0x2010000 (page fmt geo)).putWord 0x2010008 (page 0 3) }
/-- The page that `paged` maps first. -/
def page0 (fmt geo : Nat) : Mapping := { va := 0, size := 2 ^ 42, pa := 0, fmt := fmt, geo := geo, rd := true, wr := true, cd := true }
theorem witness_leaf : LeafAt (paged 1 3 State.reset).settle 0 0 .read (page0 1 3) := by
  unfold LeafAt
  decide

theorem witness_translation :
    ((paged 1 3 State.reset).settle.die 0).lookup 0 0 0 = none ∧ (paged 1 3 State.reset).settle.walkRetained 0 0 = false ∧ fine ((paged 1 3 State.reset).settle.walk 0 0 .read) = true ∧
    (let s := { paged 1 3 State.reset with ev := { addr := 2 ^ 43 } }
     errs (s.settle.walk 0 s.ev.addr .read) 0x087 = true ∧ errs (s.settle.walk 0 s.ev.addr .write) 0x087 = true ∧
     (s.settle.die 0).lookup 0 0 s.ev.addr = none ∧ (wordAt (s.space 0) 0).getLsbD 63 = true ∧
     (s.mem.word (fld (wordAt (s.space 0) 0) 0 36 * 2 ^ 16 + 8 * (s.ev.addr / 2 ^ 42 % 8192))).getLsbD 63 = false) ∧
    (wordAt (State.reset.space 0) 0).getLsbD 63 = false ∧ State.reset.flaws = [] ∧ ((2 ^ 63 : Nat) : Word).getLsbD 63 = true := by decide

/-- A TINV of every page of ASID 0 that waits for nothing, and one that waits for a delivery of a transfer of core 0. -/
theorem witness_tinv :
    (let w : Word := BitVec.ofNat 64 (2 ^ 63 + 2 ^ 62)
     w.getLsbD 63 = true ∧ State.reset.tinvWaits 0 w = false ∧
     ((flying copy).setDie 0 { deliv := [.arrive ⟨0, 0⟩ 0 0 0 0 none] }).tinvWaits 0 w = true) := by decide

/-- XBARW of a barrier at virtual address 0: its generation is 0 there, and 1 in the other. -/
def barw (gen : Nat) : Xfer := xf (.xbarw g 7 8 0) 0 [] [BitVec.ofNat 64 (gen * 2 ^ 55)]
theorem witness_barrier_wait :
    (let s := paged 0 3 (atWork (barw 0))
     s.evXfer = some (barw 0) ∧ s.working (barw 0) = true ∧ (barw 0).dst = none ∧
     yields (s.settle.barrierAt (barw 0) (wordAt (barw 0).args 0)) (fun pa =>
       decide ((s.settle.mem.word (pa + 8)).toNat % 32 = addrGen (wordAt (barw 0).args 0) ∧
         (s.settle.mem.word (pa + 8)).toNat % 32 ≠ addrGen (wordAt (barw 1).args 0))) = true) := by decide

/-- WAITP of port 3 of the command store: one whose entry is at the count, and one whose entry has its error bit. -/
def waitp : Xfer := xf (.xsig g 7 8 0) 0x02000000 [] [3, 0]
theorem witness_waitp :
    (let s (w : Word) := onCore (fun k => { k with cst := k.cst.set 3 { word := w } }) (atWork waitp)
     (s 0).evXfer = some waitp ∧ 2 ≤ sigMode waitp ∧ (s 0).working waitp = true ∧ waitp.dst = none ∧
     ((s 0).core 0).cst[(3 : Fin 16)].word.getLsbD 29 = false ∧ fld (wordAt waitp.args 1) 0 6 ≤ fld ((s 0).core 0).cst[(3 : Fin 16)].word 0 6 ∧
     ((s 0x20000000).core 0).cst[(3 : Fin 16)].word.getLsbD 29 = true) := by decide

/-- A result in hand with two lines to write. -/
def outer : Xfer :=
  { copy with dst := some (windowArea here.me.sys.wins 0 (windowEnd 5) 0), out := [⟨none, false, padAddr 0, 255, 1⟩, ⟨none, false, padAddr 0 + 64, 255, 2⟩] }
theorem witness_output_piece :
    (atWork outer).evXfer = some outer ∧ (atWork outer).working outer = true ∧ outer.out ≠ [] ∧
    (distinct (outer.out.map fun c => c.addr / 64))[(atWork outer).ev.index % 2]? = some (padAddr 0 / 64) ∧
    yields ((atWork outer).settle.spots outer (windowArea here.me.sys.wins 0 (windowEnd 5) 0)
        (outer.out.filter fun c => c.addr / 64 == padAddr 0 / 64)) (fun sp =>
      fine ((atWork outer).settle.writeSpots outer 0 sp)) = true := by decide +kernel

/-- XRED and XATOM.ADD of a 32-bit word at virtual address 64; and an XRED with BAR that has updated its word. -/
def red (bar : Bool) : Xfer := xf (.xred g 7 8 0) (if bar then 0x10000000 else 0) [] [64, 5, 0]
def redReady (s : State) (x : Xfer) (pa : Nat) : Bool :=
  yields ((s.fillAll x [64]).redPlace x 64) fun a => decide (a = pa ∧ placeOf a = .hbm 0)
theorem witness_ports :
    (let s := paged 0 3 (atWork (red false))
     s.evXfer = some (red false) ∧ s.working (red false) = true ∧ litScope (red false).lit ≠ 6 ∧ litBar (red false).lit = false ∧
     redReady s (red false) 64 = true) ∧
    (let s := paged 0 3 (atWork (red true))
     s.evXfer = some (red true) ∧ s.working (red true) = true ∧ litScope (red true).lit ≠ 6 ∧ litBar (red true).lit = true ∧
     redReady s (red true) 64 = true ∧ yields ((s.fillAll (red true) [64]).redBarrier (red true)) (fun pb => pb == 0) = true) ∧
    (let x := { atomic with args := [64, 5, 0], pieces := [] }
     let s := paged 0 3 (atWork x)
     s.evXfer = some x ∧ s.working x = true ∧
     redReady s x 64 = true) ∧
    (let x := { red true with pieces := [0] }
     let s := paged 0 3 (atWork x)
     s.evXfer = some x ∧ s.working x = true ∧ litBar x.lit = true ∧ s.undelivered x = false ∧ s.awaiting x = false ∧
     x.found.toNat = 0 ∧ s.settle.place 0 = .hbm 0 ∧ s.settle.retained (.hbm 0) true = false) ∧
    [1, 2, 3].Perm [3, 2, 1] ∧ 5 < 2 ^ (8 * redBytes 0) := by decide

/-- XMVB of one row: A has been read, B's page is BSI8 in ROW4. -/
def mvb : Xfer := { xf (.xmvb g 7 8 0) 0 mvRecord [0] with buf := [1, 2, 3, 4, 127] }
theorem witness_output_row :
    (let s := paged 8 0 (atWork mvb)
     let u := s.settle.fillAll mvb [addrVirt (wordAt mvb.recd 2)]
     s.evXfer = some mvb ∧ s.working mvb = true ∧ mvWin mvb.recd = false ∧ mvb.dst = none ∧ s.flaws = [] ∧
     (List.range (mvRows mvb.recd)).find? (fun i => !mvb.pieces.contains i) = some 0 ∧
     yields (u.mvArea mvb) (fun d => fine ((List.range 64).mapM fun j => u.mvOut mvb d (64 * 0 + j))) = true) := by decide +kernel


/-! ### Witnesses: launches and tasks -/

/-- A graph of one node: the header and the node's words (R263). -/
def graph1 (w0 w1 w2 : Nat) : List Byte := leBytes 64 1 ++ bytesOf ([w0, w1, w2, 0].map (BitVec.ofNat 64))
/-- A queue of 16 places at 0x80000 holds one record (R262); its graph is END alone. -/
def submitted (r : List Word := launchRec) : State :=
  let s := paged 0 3 State.reset
  { s with mem := (s.mem.write 0x80000 (bytesOf r)).write 0x10000 (graph1 (4 * 2 ^ 61) 0 0)
           subqs := [(0, { base := 0x1000, size := 16, tail := 1 })] }

theorem witness_submission :
    submitted.ten.go = false ∧ (submitted.subq 0).size ≠ 0 ∧ (1 + 4096 - (submitted.subq 0).head) % 4096 ≤ (submitted.subq 0).size ∧
    (submitted.subq 0).size < (17 + 4096 - (submitted.subq 0).head) % 4096 ∧ (submitted.subq 0).head ≠ (submitted.subq 0).tail ∧
    (submitted.subq 0).inHbm = true ∧ (submitted.subq 0).torn = false ∧ ringReadable (hostAddr + 128) = true := by decide

/-- The ring lies in a die at retention; so does the graph that a record names. -/
theorem witness_submission_waits :
    (submitted.settle.asleep (placeOf (128 * 0x1000)) = false ∧
     submitted.settle.recordWaits (submitted.settle.mem.words (128 * 0x1000) 16) = false) ∧
    (let s := submitted.setDie 0 { park := .retained }
     s.settle.asleep (placeOf (128 * 0x1000)) = true ∧ s.settle.recordWaits (s.settle.mem.words (128 * 0x1000) 16) = true) := by
  decide +kernel

/-- The record is accepted; one of version 0 is not (R261, reason 1). -/
theorem witness_acceptance :
    (submitted.settle.refusal (submitted.settle.mem.words (128 * 0x1000) 16) none).1 = 0 ∧
    ((submitted (0 :: launchRec.drop 1)).settle.refusal ((submitted (0 :: launchRec.drop 1)).settle.mem.words (128 * 0x1000) 16) none).1 = 1 := by
  decide +kernel

/-- XLAUNCH with WAIT of a record at virtual address 0x80000. -/
def xlaunch : Xfer := xf (.xlaunch g 7 8 0) 0x01000000 [] [0x80000]
theorem witness_xlaunch :
    (let s := { atWork xlaunch submitted with subqs := [], ev := { queue := 64 } }
     s.ten.go = false ∧ s.xlaunches.head? = some xlaunch ∧ litOpt xlaunch.lit % 2 = 1 ∧
     yields (s.settle.vwords 0 0x80000 16) (fun ws => decide ((s.settle.refusal ws (some 0)).1 = 0) && !s.settle.recordWaits ws) = true ∧
     fine (s.settle.vwrite 0 (0x80000 + 120) (leBytes 8 (word15 0 0).toNat)) = true) := by decide +kernel

/-- Launch 0 with a graph of one node, which is to be activated. -/
def graphed (w0 w1 w2 : Nat) (f : Launch → Launch := id) : State :=
  { paged 0 3 State.reset with launches := [f { launch0 with graph := graph1 w0 w1 w2, pending := [0] }] }

/-- A TASK; a COND and a WHILE whose control word 0 is 0, and the same while an instance runs; a JOIN of two arrivals; an END, and a
second one. -/
theorem witness_graph :
    ((graphed 0 0 0).pendingNode 0).isSome = true ∧ (launch0.node 0).live = 0 ∧
    ((graphed 0 0 0 fun l => l.setNode 0 { live := 1 }).pendingNode 0 |>.map fun p => (p.1.node 0).live) = some 1 ∧
    ((graphed (2 ^ 61) 0 0).pendingNode 1).isSome = true ∧ launch0.liveCount = 0 ∧
    yields ((graphed (2 ^ 61) 0 0).nodeTest launch0 (gNode (graph1 (2 ^ 61) 0 0) 0)) (fun b => b == false) = true ∧
    ((graphed (2 * 2 ^ 61) 0 1).pendingNode 2).isSome = true ∧
    yields ((graphed (2 * 2 ^ 61) 0 1).nodeTest launch0 (gNode (graph1 (2 * 2 ^ 61) 0 1) 0)) (fun b => b == false) = true ∧
    ((graphed (2 ^ 61) 0 0 fun l => l.setNode 1 { live := 1 }).pendingNode 1 |>.map fun p => p.1.liveCount) = some 1 ∧
    ((graphed (3 * 2 ^ 61 + 2 * 2 ^ 32) 0 0).pendingNode 3).isSome = true ∧
    (launch0.node 0).count + 1 < nPred (gNode (graph1 (3 * 2 ^ 61 + 2 * 2 ^ 32) 0 0) 0) ∧
    nPred (gNode (graph1 (3 * 2 ^ 61 + 2 ^ 32) 0 0) 0) ≤ (launch0.node 0).count + 1 ∧
    ((graphed (4 * 2 ^ 61) 0 0).pendingNode 4 |>.map fun p => p.1.ended) = some false ∧
    ((graphed (4 * 2 ^ 61) 0 0 fun l => { l with ended := true }).pendingNode 4 |>.map fun p => p.1.ended) = some true := by decide

/-- A WHILE whose control word is not 0, below its cap of 1 and at it. -/
theorem witness_while :
    (let s := { graphed (2 * 2 ^ 61) 0 1 with mem := (graphed (2 * 2 ^ 61) 0 1).mem.putWord 0x40000 7 }
     let w := gNode (graph1 (2 * 2 ^ 61) 0 1) 0
     yields (s.nodeTest launch0 w) (fun b => b) = true ∧ (launch0.node 0).count < nCap w ∧ nCap w ≤ 1) := by decide

/-- A COND whose control word, of 0, can be read. -/
theorem witness_control_word :
    (let s := graphed (2 ^ 61) 0 0
     let w := gNode (graph1 (2 ^ 61) 0 0) 0
     nTest w ≤ 1 ∧ CwTest s launch0 w false ∧ ∀ w1 ∈ [gNode (graph1 (2 * 2 ^ 61) 0 1) 0], nTest w1 ≤ 1 ∧ CwTest (graphed (2 * 2 ^ 61) 0 1) launch0 w1 false) := by
  refine ⟨by decide, ⟨0x40000, ⟨page0 0 3, ?_⟩, by decide⟩, ?_⟩
  · unfold LeafAt; decide
  · intro w1 h1
    cases List.mem_singleton.mp h1
    refine ⟨by decide, ⟨0x40000, ⟨page0 0 3, ?_⟩, by decide⟩⟩
    unfold LeafAt; decide

/-- A launch that has ended; one whose record of status 3 is due; one with nothing more to activate; one over its budget; one that has
failed; one that still has a transfer in flight. -/
theorem witness_launch_end :
    (let s (l : Launch) : State := { State.reset with launches := [l] }
     (s { launch0 with ended := true }).launch? 0 = some { launch0 with ended := true } ∧ (s launch0).launchBusy 0 = false ∧
     (s launch0).fatal 0 false = none ∧ (s launch0).boundOf 0 = [] ∧ launch0.liveCount = 0 ∧ launch0.due = false ∧ launch0.pending = [] ∧
     (s launch0).overBudget launch0 = false ∧ (s { launch0 with spent := 100 }).overBudget { launch0 with spent := 100 } = true ∧
     (({ launch0 with failed := some (0x184, 0, 0) } : Launch).failed ≠ none) ∧ ({ launch0 with due := true, held := true } : Launch).due = true) ∧
    (let s := { flying copy with launches := [{ launch0 with held := true }] }
     s.launchBusy 0 = true ∧ s.boundOf 0 ≠ [] ∧ ∀ e ∈ s.cores, ∀ t ∈ e.2.xfers, t.core = e.1) ∧
    (let s := tasked (fun c => { c with frozen := .trap }) (e := { st := .ready })
     (∀ m ∈ s.boundOf 0, (s.ctx m.1 m.2).frozen ≠ .none ∧ (s.ctx m.1 m.2).saveIn = none) ∧
     (s.entriesOf 0).map (fun q => q.2.st) = [.ready] ∧ (0, 0) ∈ s.boundOf 0) ∧
    ((launch0.setNode 0 { live := 1 }).liveCount ≠ 0) := by decide

/-- The page of the completion record lies in a die at retention, and in one that is awake. A launch over its budget has tasks that run
between bundles, inside one, that a park froze, and that an error froze. -/
theorem witness_launch_holds :
    (let s := { paged 0 3 State.reset with launches := [launch0] }
     s.vwaits (lrAsid launch0.recd) (lrCmpl launch0.recd) 64 .write = false ∧
     (s.setDie 0 { park := .retained }).vwaits (lrAsid launch0.recd) (lrCmpl launch0.recd) 64 .write = true) ∧
    (let s (f : Ctx → Ctx) : State := { tasked f with launches := [{ launch0 with spent := 100 }] }
     (s id).overBudget { launch0 with spent := 100 } = true ∧ (0, 0) ∈ (s id).boundOf 0 ∧ ((s id).ctx 0 0).bound = true ∧
     ((s id).ctx 0 0).frozen = .none ∧ ((s id).ctx 0 0).run = none ∧ (∀ q ∈ (s id).entriesOf 0, q.2.st ≠ .claimed) ∧
     (let c : Ctx → Ctx := fun c => { c with run := some ⟨⟨2, 1, 0, 0, [], []⟩, 1, c.regs, c.sys.wins, 0, 0⟩ }
      (0, 0) ∈ (s c).boundOf 0 ∧ ((s c).ctx 0 0).run ≠ none) ∧
     (let c : Ctx → Ctx := fun c => { c with frozen := .park }
      (0, 0) ∈ (s c).boundOf 0 ∧ ((s c).ctx 0 0).mayHold = true) ∧
     (let c : Ctx → Ctx := fun c => { c with frozen := .trap, sys := { c.sys with cause := 0x307#32 } }
      (0, 0) ∈ (s c).boundOf 0 ∧ ((s c).ctx 0 0).mayHold = false)) := by decide +kernel

/-- Cluster 0 walks a TASK of two instances: the first is next; with both enqueued none is left. -/
def walking (next : Nat) : State :=
  { State.reset with launches := [{ launch0 with graph := graph1 0 (2 ^ 52) 0 }], clusters := [(0, { walk := [⟨0, 0, next⟩] })] }
theorem witness_walks :
    ((walking 0).walkNext 0 ⟨0, 0, 0⟩ |>.map fun p => p.2.2) = some 0 ∧ (walking 0).freeEntry 0 = some 0 ∧
    (walking 2).walkNext 0 ⟨0, 0, 2⟩ = none := by decide

/-- Cluster 1 is idle and cluster 0 of the same die has two entries, of which the second may be stolen. -/
def queued (e : QueueEntry := { st := .ready }) : State :=
  { State.reset with launches := [launch0], clusters := [(0, { queue := [(0, { st := .ready, prio := 7 }), (1, e)] }), (1, {})], ev := { cluster := 1 } }
theorem witness_steal :
    (queued.stealable 0).map Prod.fst = [1] ∧ queued.stealable 2 = [] ∧ queued.freeEntry 1 = some 0 := by decide
/-- Of three entries the thief takes two, the older ones. -/
def queued3 : State :=
  { queued with clusters := [(0, { queue := [(0, { st := .ready, prio := 7 }), (1, { st := .ready, enq := 3 }), (2, { st := .ready, enq := 1 }),
    (3, { st := .ready, enq := 2 })] }), (1, {})] }
theorem witness_steal_half :
    (queued3.stealable 0).map Prod.fst = [2, 3, 1] ∧ ((queued3.stealable 0).map Prod.fst).Nodup ∧ (∀ j < 16, j ≠ 0 → queued3.stealable j = []) ∧
    ((queued3.stealable 0).length + 1) / 2 ≤ ((List.range queueSize).filter fun i => (queued3.entry (1, i)).st == .free).length ∧
    queued3.cmcIdle 1 = true := by
  decide +kernel
theorem witness_thief_idle : queued.cmcIdle 1 = true := by decide +kernel

theorem witness_bind :
    (let s := { queued with ev := {} }
     let u := s.noteHead 0
     (u.bindOrder 0).all (fun q => !u.gangLost q.2) = true ∧ ((u.bindOrder 0).head?.map Prod.fst) = some 0 ∧
     (u.places 0 (0, 0) { st := .ready, prio := 7, head := some 0 }).isSome = true) := by decide +kernel

theorem witness_dispatch :
    (let s := tasked (fun c => { c with bound := false }) { dst := .empty, entry := none }
     (s.slot 0 0).dst = .empty ∧ s.power.s3 = .none ∧ ({ s with power := { s.power with s3 := .quiesce } } : State).power.s3 ≠ .none) ∧
    (let s := (tasked (fun c => { c with bound := false }) { dst := .loading, entry := some (0, 0) } { st := .claimed }).setDie 0 { scc := 24 }
     (s.slot 0 0).dst = .loading ∧ (s.slot 0 0).goScc + 24 ≤ (s.die 0).scc.toNat ∧ (s.slot 0 0).entry = some (0, 0) ∧
     (s.entry (0, 0)).st = .claimed) ∧
    (let s := tasked (fun c => { c with bind := { c.bind with startscc := 5 } }) { dst := .waitstart, entry := some (0, 0) }
     (s.slot 0 0).dst = .waitstart ∧ s.runs 0 = true ∧ (s.core 0).did.getLsbD 0 = false ∧ (s.ctx 0 0).bound = true ∧ (s.die 0).scc.toNat < (s.ctx 0 0).bind.startscc.toNat ∧
     (s.ctx 0 0).bind.startscc.toNat ≤ ((s.setDie 0 { scc := 5 }).die 0).scc.toNat) := by decide

theorem witness_task_ends :
    (let s := tasked (fun c => { c with ended := some 0 }) { dst := .running, entry := some (0, 0) }
     (s.ctx 0 0).ended = some 0 ∧ (s.ctx 0 0).bound = true ∧ (s.ctx 0 0).frozen = .none ∧ s.taskDone 0 0 = true ∧
     (s.ctx 0 0).report = none ∧ (s.core 0).taskError 0 0 0 = none ∧ (s.slot 0 0).entry = some (0, 0) ∧ (s.entry (0, 0)).live = 1 ∧
     ((onCore (fun k => { k with faults := [⟨copy, 0x087, 0, false⟩] }) s).core 0).taskError 0 0 0 ≠ none) := by decide

/-- An entry loaded with V alone starts; with a window of KIND 3 it is refused for reason 1; on a parked die for reason 9 (R276). -/
def loaded : State :=
  (tasked (fun _ => {}) { recd := (Vector.replicate 8 0).set 4 (BitVec.ofNat 64 (2 ^ 63)), dst := .loading, entry := some (0, 0) }
    { st := .claimed }).setDie 0 { scc := 24 }
/-- The reason of a refusal; 0 for none. -/
def reason (s : State) : Nat :=
  match s.dispatch 0 0 with
  | .inl n => n
  | .inr _ => 0
/-- Its launch runs, and is being checkpointed. -/
theorem witness_dispatch_ok :
    loaded.power.s3 = .none ∧ (∀ l, loaded.launch? 0 = some l → l.ckpt.busy = none) ∧ DispatchOk loaded.settle 0 0 ∧
    (let s := { loaded with launches := [{ launch0 with ckpt := { busy := some 1 } }] }
     ∀ l, s.launch? 0 = some l → l.ckpt.busy ≠ none) := by
  unfold DispatchOk
  decide +kernel
theorem witness_dispatch_answers :
    reason loaded.settle = 0 ∧ (loaded.slotBind 0 0).rsm = false ∧ (loaded.slotBind 0 0).dlen = 0 ∧
    reason (loaded.setDie 0 { scc := 24, park := .retained }) = 9 ∧ (9 ∈ [3, 6, 7, 9] ∧ 1 ∉ [3, 6, 7, 9]) ∧
    loaded.settle.loadWaits (loaded.settle.slotBind 0 0) = false ∧
    ((loaded.setSlot 0 0 { loaded.slot 0 0 with dst := .refused, reason := 9, entry := none }).slotsOf (0, 0)) = [] ∧
    (let s := { loaded with mem := loaded.mem.write (vaultAddr 0 0) (bytesOf [BitVec.ofNat 64 (3 * 2 ^ 62)]) }
     (s.slotBind 0 0).wins.toList.all Win.ok = false) ∧
    (let s := { loaded with mem := loaded.mem.write (vaultAddr 0 0 + 0x80) (bytesOf [BitVec.ofNat 64 (2 ^ 64 - 1)]) }
     (s.slotBind 0 0).wins.toList.all Win.ok = true ∧
     (s.slotBind 0 0).lres.toList.all (lresOk 0 (s.boundBinds 0)) = false) := by decide +kernel

/-- An entry whose data image lies in a die at retention: its loading goes on. -/
theorem witness_load_waits :
    (let m := (paged 0 3 loaded).mem.write (vaultAddr 0 0 + 0x148) (bytesOf [0x100000, BitVec.ofNat 64 (64 * 2 ^ 32)])
     let s : State := { loaded with mem := m, astab := 0x2000000 }
     (s.settle.slotBind 0 0).dlen = 64 ∧ s.settle.loadWaits (s.settle.slotBind 0 0) = false ∧
     (s.setDie 0 { scc := 24, park := .retained }).settle.loadWaits (s.settle.slotBind 0 0) = true) := by decide +kernel

/-- A gang at the head whose one die is parked. -/
theorem witness_gang_reserve :
    (let e : QueueEntry := { st := .ready, gang := true, head := some 0 }
     let s := { State.reset with launches := [launch0], clusters := [(0, { queue := [(0, e)] })], dies := [(0, { park := .retained })], wcc := 600000 }
     let u := s.noteHead 0
     (u.bindOrder 0).head? = some (0, e) ∧ (u.launch? 0).isSome = true ∧ e.head = some 0 ∧ (u.die 0).reserved = none ∧
     u.places 0 (0, 0) e = none ∧ 0 + 600000 ≤ s.wcc.toNat ∧ (∀ k ∈ u.clusters, k.1 = 0)) ∧
    (let e : QueueEntry := { st := .ready, gang := true, head := some 0, enq := 5 }
     let s := { State.reset with launches := [launch0], dies := [(0, { park := .retained })], wcc := 600000
                                 clusters := [(0, { queue := [(0, e)] }), (1, { queue := [(0, { e with enq := 4 })] })] }
     let u := s.noteHead 0
     (u.bindOrder 0).head? = some (0, e) ∧ u.wantsDie 1 = some (0, 0, { e with enq := 4 }) ∧
     u.takenBefore (0, { e with enq := 4 }) (0, e) = true ∧ u.takenBefore (0, e) (0, { e with enq := 4 }) = false) := by decide +kernel


/-! ### Witnesses: power and tenancy -/

/-- The power controller changed. -/
def powered (f : Power → Power) (s : State := State.reset) : State := { s with power := f s.power }

theorem witness_supply :
    State.reset.power.st ≤ 2 ∧ State.reset.power.s3 = .none ∧ State.reset.graceDies = [] ∧ State.reset.parkedDies = [] ∧
    0 < State.reset.power.shedN ∧ (State.reset.die (State.reset.power.shed 0)).park = .none ∧
    (let s := powered (fun p => { p with st := 2 }) (State.reset.setDie (State.reset.power.shed 0) { park := .retained })
     s.graceDies = [] ∧ s.parkedDies.length < s.power.shedN ∧ (s.die (s.power.shed 1)).park = .none ∧
     (s.die (s.power.shed 0)).park ≠ .none) ∧
    (let s := State.reset.setDie 0 { park := .grace }
     (s.die 0).park = .grace ∧ s.dieStill 0 = true ∧ ∀ c ∈ s.coresOn 0, (s.core c).xfers = []) ∧
    (let s := (flying { copy with taskid := 5 }).setDie 0 { park := .grace }
     ∀ c ∈ s.coresOn 0, ∀ u ∈ (s.core c).xfers, u.core = c ∧ s.mayComplete u = false) ∧
    (State.reset.setDie 0 { park := .retained }).unparkNext = some 0 := by decide +kernel

theorem witness_die_still :
    (let s := onCtx (fun c => { c with bound := false }) ((flying copy).setDie 0 { park := .grace })
     (s.die 0).park = .grace ∧ s.dieStill 0 = true) := by decide +kernel

/-- A copy that has waited for a retained die once, and as often as R374 allows. -/
theorem witness_retained_wait :
    (let x := { copy with round := 1 }
     let s := flying x
     s.sentFor s.ev.packet (fun _ => true) = none ∧ (s.core s.ev.packet.core).xfer? s.ev.packet.x = some x ∧ x.round ≠ 0 ∧ x.cut = false ∧
     isColl x.op = false ∧ s.waitedOut (x.round + 1) = false ∧ s.waitedOut 1000000 = true) := by decide

theorem witness_hibernation :
    (powered fun p => { p with st := 2, shedN := 0 }).parkedDies.length ≥ (powered fun p => { p with st := 2, shedN := 0 }).power.shedN ∧
    State.reset.parkedDies.length < State.reset.power.shedN ∧ State.reset.manifest = none ∧ State.reset.hibMin ≤ State.reset.power.reserve ∧
    (powered fun p => { p with reserve := 0 }).power.reserve < (powered fun p => { p with reserve := 0 }).hibMin := by decide +kernel

/-- No die holds a context that moves. -/
theorem witness_quiesce : ∀ d < numDies, State.reset.dieStill d = true := by decide +kernel

theorem witness_tenancy :
    State.reset.ten.attgo = false ∧ State.reset.ten.go = false ∧ State.reset.ten.benchgo = false ∧ State.reset.ten.used = false ∧
    State.reset.power.st = 0 ∧ State.reset.ten.versions.getD 5 0 ≤ 0 ∧ State.reset.ten.digests = [] ∧ placeOf 0 ≠ .host := by decide

/-- A launch whose checkpoint is due, asked for, answered, and withdrawn (R394, R395). -/
def checkpointed (asked : Option Nat) (wcc : Nat) : State :=
  let s := paged 0 3 State.reset
  { s with launches := [{ launch0 with ckpt := { pol := BitVec.ofNat 64 (2 ^ 63 + 1), asked := asked } }], wcc := BitVec.ofNat 64 wcc }
theorem witness_checkpoints :
    (∀ l ∈ (checkpointed none 0xFFFFFFFFFFFF).launches, l.ckpt.pol.getLsbD 63 = true ∧ l.ckpt.asked = none ∧
      (checkpointed none 0xFFFFFFFFFFFF).ckptDue l = true) ∧
    (∀ l ∈ (checkpointed none 0).launches, (checkpointed none 0).ckptDue l = false) ∧
    fine ((checkpointed none 0).vwrite 0 (condAddr launch0 255) (leBytes 8 1)) = true ∧
    yields ((checkpointed (some 0) 0).vwords 0 (condAddr launch0 254) 1) (fun ws => fld (wordAt ws 0) 32 32 == launch0.ckpt.n) = true ∧
    0 + 60 * second ≤ (checkpointed (some 0) 0xFFFFFFFFFFFF).wcc.toNat := by decide +kernel

/-- A packet of a type that asks nothing. -/
def pkt0 (type : Nat) : Packet := { dmod := 0, smod := 1, type := type, asid := 0, pseq := 0, core := 0, x := ⟨0, 0⟩, ops := [], data := [] }
/-- A restored launch that awaits acceptance: answers with its digest, with another, with a newer tag and with an older, a repeated one; a
copy of the peer's state; the ten seconds. XCKPT at work. -/
theorem witness_restored :
    (let c (n : Nat) (cp : Bool) : RestoreCheck := { lnum := 0, tag := 7, digest := zeros 32, peers := n, other := [], owned := [], copying := cp }
     let p (tag d : Word) : Packet :=
       { dmod := 0, smod := 1, type := 38, asid := 0, pseq := 0, core := 0, x := ⟨0, 1⟩, ops := [tag, d, 0, 0, 0], data := [] }
     let s (n : Nat) (cp : Bool) : State := { State.reset with launches := [launch0], ten := { digests := [c n cp] } }
     (s 1 false).ten.digests = [c 1 false] ∧ (s 1 false).launch? 0 = some launch0 ∧ (s 1 false).seen (p 7 0) = none ∧ (p 7 0).x.id ≠ 0 ∧
     lrAsid launch0.recd = (p 7 0).asid ∧ packetDigest (p 7 0) = (c 1 false).digest ∧ packetDigest (p 7 1) ≠ (c 2 false).digest ∧
     (c 1 false).tag.toNat < (wordAt (p 8 0).ops 0).toNat ∧ (wordAt (p 6 0).ops 0).toNat < (c 2 false).tag.toNat ∧ (c 1 false).other = [] ∧
     (s 1 true).ten.digests = [c 1 true] ∧ (s 1 true).ev.lnum = (c 1 true).lnum ∧ (pkt0 4).type ≠ 38 ∧
     (s 1 false).wcc.toNat < (c 1 false).asked + 10 * second ∧ (c 1 false).asked + 10 * second ≤ (BitVec.ofNat 64 (10 * second) : Word).toNat ∧
     (((s 1 false).keep (p 7 0) (p 7 0)).seen (p 7 0)).isSome = true) ∧
    (let x := xf (.xckpt g 7 8 0) 0 [] [3]
     (atWork x).evXfer = some x ∧ (atWork x).working x = true ∧ x.pieces.contains 0 = false) := by decide

/-- The header of a manifest without records, of SEQ 1 and TAG 7, up to its digests. -/
def sealHead : List Byte := bytesOf [w64 (0x5A394D46 * 2 ^ 32 + 2 ^ 16 + 1), 1, 0, 0, 0, 0, 0, 7]
def sealChain : List Byte := shake256 (sealHead.take 0x18) 32
def sealMark : List Byte := sealOf sealChain sealHead
theorem seal_lengths : sealHead.length = 64 ∧ sealChain.length = 32 ∧ sealMark.length = 32 :=
  ⟨by decide, sponge_length _ _ _, sponge_length _ _ _⟩

/-- A slot that holds that header under its seal reads as the manifest (R378, R380). -/
theorem seal_reads {s : State} {k : Nat} (hf : s.flaws = []) 
    (h : s.mem.bytes (slotBase k) 256 = sealHead ++ (sealChain ++ (sealMark ++ zeros 128))) :
    s.readSlot k = some ⟨1, 0, 0, 7, sealChain, []⟩ := by
  obtain ⟨l1, l2, l3⟩ := seal_lengths
  have t8 (i : Nat) (hi : i < 8) (r : List Byte) : wordAt (wordsOf 32 (sealHead ++ r)) i = wordAt (wordsOf 8 sealHead) i := by
    simp only [wordAt, wordsOf, List.getD_eq_getElem?_getD, List.getElem?_map, List.getElem?_range (show i < 32 by omega),
      List.getElem?_range hi, Option.map_some, Option.getD_some]
    rw [List.drop_append_of_le_length (by omega), List.take_append_of_le_length (by rw [List.length_drop]; omega)]
  have w : wordsOf 8 sealHead = [w64 (0x5A394D46 * 2 ^ 32 + 2 ^ 16 + 1), 1, 0, 0, 0, 0, 0, 7] := by decide +kernel
  have d1 : (sealHead ++ (sealChain ++ (sealMark ++ zeros 128))).drop 0x40 = sealChain ++ (sealMark ++ zeros 128) := List.drop_left' l1
  have d2 : (sealHead ++ (sealChain ++ (sealMark ++ zeros 128))).drop 0x60 = sealMark ++ zeros 128 := by
    rw [show 0x60 = 0x40 + 32 from rfl, ← List.drop_drop, d1, List.drop_left' l2]
  have e1 : chainOf (sealHead ++ (sealChain ++ (sealMark ++ zeros 128))) [] = sealChain := by
    rw [chainOf, List.foldl_nil, List.take_append_of_le_length (by omega), sealChain]
  have e2 : sealOf sealChain (sealHead ++ (sealChain ++ (sealMark ++ zeros 128))) = sealMark := by
    rw [sealMark, sealOf, sealOf, List.take_left' l1, List.take_of_length_le (by omega)]
  unfold State.readSlot
  simp only [h, t8 0 (by omega), t8 1 (by omega), t8 3 (by omega), t8 5 (by omega), t8 6 (by omega), t8 7 (by omega), w]
  rw [if_neg (by decide), show fld (wordAt [w64 (0x5A394D46 * 2 ^ 32 + 2 ^ 16 + 1), 1, 0, 0, 0, 0, 0, 7] 5) 0 32 = 0 from by decide]
  simp only [readRecs, List.map_nil, e1, e2, d1, d2, State.flawed, hf, List.any_nil, List.take_left' l2, List.take_left' l3]
  rw [if_neg (by decide), if_pos ⟨trivial, trivial⟩]
  rfl

/-- A state whose memory holds that slot and nothing else. -/
def sealedMem : Memory := Memory.write [] (slotBase 0) (sealHead ++ (sealChain ++ (sealMark ++ zeros 128)))
theorem sealed_manifest {s : State} (hf : s.flaws = []) (hm : s.mem = sealedMem) : s.manifest = some (0, ⟨1, 0, 0, 7, sealChain, []⟩) := by
  obtain ⟨l1, l2, l3⟩ := seal_lengths
  have len : (sealHead ++ (sealChain ++ (sealMark ++ zeros 128))).length = 256 := by simp [l1, l2, l3, zeros]
  have h0 : s.readSlot 0 = some ⟨1, 0, 0, 7, sealChain, []⟩ := by
    refine seal_reads hf (List.ext_getElem (by simp [Memory.bytes, len]) fun i _ h2 => ?_)
    simp only [Memory.bytes, List.getElem_map, List.getElem_range]
    rw [hm, sealedMem, Memory.read_write_in h2]
    exact (List.getElem_eq_getD _).symm
  have h1 : s.readSlot 1 = none := by
    have z : s.mem.bytes (slotBase 1) 256 = List.replicate 256 0 := by
      refine List.ext_getElem (by rw [Memory.bytes, List.length_map, List.length_range, List.length_replicate]) fun i h1 _ => ?_
      simp only [Memory.bytes, List.getElem_map, List.getElem_range, List.getElem_replicate]
      rw [hm, sealedMem, Memory.read_write_out (Or.inr (by rw [len, slotBase, slotBase]; omega))]
      rfl
    unfold State.readSlot
    simp only [z]
    rw [if_pos (by decide)]
  rw [State.manifest, h0, h1]

/-- A restart from a valid manifest, and a peer's question for it (R381, R396). -/
theorem witness_manifest :
    (∃ s : State, s.power.s3 = .closed ∧ s.hibMin ≤ s.power.reserve ∧ s.ten.pend = false ∧
      s.manifest = some (0, ⟨1, 0, 0, 7, sealChain, []⟩)) ∧
    (∃ s : State, s.ev.packet.type = 38 ∧ s.seen s.ev.packet = none ∧ s.ev.packet.x.id = 0 ∧
      s.manifest = some (0, ⟨1, 0, 0, 7, sealChain, []⟩) ∧
      s.launches.find? (fun l => lrAsid l.recd == s.ev.packet.asid) = some launch0) :=
  ⟨⟨{ powered (fun p => { p with s3 := .closed }) with mem := sealedMem }, rfl, by decide, rfl, sealed_manifest rfl rfl⟩,
    ⟨{ State.reset with launches := [launch0], mem := sealedMem, ev := { packet := pkt0 38 } }, rfl, by decide, rfl, sealed_manifest rfl rfl,
      by decide⟩⟩


/-! ### Witnesses: the fabric -/

/-- A packet that fits one flit, of type `type`, with words 3 to 7 `ops`. -/
def pkt (type : Nat) (ops : List Word) (data : List Byte := []) : Packet :=
  { dmod := 0, smod := 1, type := type, asid := 0, pseq := 0, core := 0, x := ⟨0, 0⟩, ops := ops ++ List.replicate (5 - ops.length) 0, data := data }
/-- The unit that carries it as the port's next, one that the CRC refuses, and an idle unit. -/
def linkUnit : LinkUnit := unitOf ((flitsOf (pkt 1 [0])).headD []) 0 0xFFF false 0 0 true
def badUnit : LinkUnit := { linkUnit with trailer := linkUnit.trailer + 2 ^ 63 }
def idleUnit : LinkUnit := unitOf (zeros 64) 0 0xFFF true 0 3 false

/-- Port 0 as it is when a unit arrives, changed. -/
def gauged (f : Port → Port) : Port := ((State.reset.setPort 0 (f {})).gauge 0).port 0

theorem witness_links :
    goodUnit badUnit = false ∧ goodUnit idleUnit = true ∧ fld idleUnit.trailer 2 2 = 3 ∧ goodUnit linkUnit = true ∧
    fld linkUnit.trailer 2 2 ≠ 3 ∧ (gauged id).st ≠ 3 ∧ (gauged fun x => { x with st := 3 }).st = 3 ∧ (gauged id).dropping = false ∧
    (gauged fun x => { x with dropping := true }).dropping = true ∧ (gauged id).wait = [] ∧ (gauged id).outq = [] ∧ (gauged id).rx = [] ∧
    (let seq : BitVec 12 := BitVec.ofNat 12 (fld linkUnit.trailer 20 12)
     let ahead (l : BitVec 12) : Nat := (seq - (gauged fun x => { x with lack := l }).lack - 1).toNat
     ahead 0xFFF = 0 ∧ 2048 ≤ ahead 0 ∧ 2048 ≤ ahead 0x7FF ∧ ahead 0x7FE ≠ 0 ∧ 2048 ≤ ahead 0x7FE ∧ ahead 0x800 = 2047 ∧ ahead 0xFFE = 1) ∧
    fld (wordAt (wordsOf 1 linkUnit.flit) 0) 38 4 = 0 ∧ packetEvent (packetOf [linkUnit.flit]) = some .readRequest := by decide +kernel

/-- A port that is to replay with something unacknowledged and with nothing; one whose replays have failed, one that has been silent, and
one that lives; and a control packet in its way. -/
theorem witness_dead_port :
    (let dying (x : Port) (w : Nat) : Bool := decide (x.st = 2 ∧ (x.naked = true ∧ 8 ≤ x.fails ∨ x.heard + 6000 < w))
     ({ naked := true, buf := [linkUnit] } : Port).buf ≠ [] ∧ ({ naked := true } : Port).buf = [] ∧
     dying { st := 2, naked := true, fails := 8, ctl := [pkt 32 [0]] } 0 = true ∧ dying { st := 2 } 6001 = true ∧ dying { st := 2 } 6000 = false ∧
     dying { st := 2, naked := true, fails := 7 } 0 = false) := by decide +kernel

/-- Sequence 2^31 − 1 is newer than 0 and 2^31 is not (R402). -/
theorem witness_link_state :
    (1 ≤ ((0x7FFFFFFF#32 : W32) - 0).toNat ∧ ((0x7FFFFFFF#32 : W32) - 0).toNat ≤ 2 ^ 31 - 1) ∧
    ¬ (1 ≤ ((0x80000000#32 : W32) - 0).toNat ∧ ((0x80000000#32 : W32) - 0).toNat ≤ 2 ^ 31 - 1) ∧ (State.reset.port 0).st ≠ 3 ∧
    ((State.reset.setPort 0 { st := 2 }).port 0).st = 2 := by decide

/-- The next of a module's words finds a port where it may leave at once; a request that stood on the port it has lost. -/
theorem witness_flood :
    (let s := State.reset.setPort 1 { st := 2 }
     (s.port 1).st = 2 ∧ 1 ≠ s.ev.port ∧ s.modnum ≤ 191 ∧ (s.port 1).wait = [] ∧ (s.port 1).outq = [] ∧
     (s.port 1).pause.getLsbD (classOf 32) = false ∧ (s.port 1).buf.length < 512 ∧ (pkt 32 [3, 0, 1]).data = []) ∧
    (let e : Sent := { pkt := { pkt 1 [0] with dmod := 3 }, port := 2, round := 0, piece := 0, va := 0 }
     let s := { State.reset with sents := [e], links := [(3, (4, 0))] }
     (Table.get (0, 0#32) s.links 3).1.testBit e.port = true ∧ (0 : Nat).testBit e.port = false ∧ e.pkt.dmod = 3 ∧ e.round = 0) := by decide

/-- A read request that the fourth round leaves without a port (R403), and one that was never sent. -/
theorem witness_drain_round :
    (let e : Sent := { pkt := pkt 1 [0], port := unsentPort, round := 0, piece := 0, va := 0 }
     e.pkt.dmod = State.reset.ev.index ∧ e.round = 0 ∧ e.port = unsentPort ∧ oneWay e.pkt = false) ∧
    (let e : Sent := { pkt := pkt 1 [0], port := 0, round := 4, piece := 0, va := 0 }
     e.pkt.dmod = State.reset.ev.index ∧ e.round = 4 ∧ e.pkt.type ≠ 4 ∧ oneWay e.pkt = false ∧
     ({ State.reset with sents := [e] } : State).commonPorts e.pkt.dmod = []) := by decide

/-- A first request, a repeated one, one before the window, one to no place and one to a retained die. -/
theorem witness_requests :
    (let s := State.reset
     let p := pkt 1 [0, 8]
     s.settle.seen p = none ∧ (placeOf (packetOffset p)).here = true ∧ s.settle.retained (placeOf (packetOffset p)) false = false ∧
     (placeOf (packetOffset (pkt 1 [BitVec.ofNat 64 (2 ^ 43)]))).here = false ∧
     (s.settle.keep p (doneReply p 0)).seen p = some (some (doneReply p 0)) ∧
     (s.settle.keep { p with pseq := 4096 } (doneReply p 0)).seen p = some none ∧
     (s.setDie 0 { park := .retained }).settle.retained (placeOf 0) false = true ∧ (placeOf 0).onDie = false ∧ placeOf 0 = .hbm 0 ∧
     (0x20 : Word).toNat.testBit 4 = false ∧ (0x20 : Word).toNat.testBit 5 = true ∧ (0x20 : Word).toNat.testBit 7 = false ∧
     (0x80 : Word).toNat.testBit 7 = true ∧ (0x80 : Word).toNat.testBit 4 = false ∧ (0x10 : Word).toNat.testBit 4 = true ∧
     s.retained (placeOf 4096) false = false ∧ s.flawed 0 4 = false ∧ s.flawed 4096 16 = false ∧
     ({ s with flaws := [0] } : State).flawed 0 4 = true ∧ ({ s with flaws := [0] } : State).settle.retained (placeOf 0) false = false) := by decide

/-- The copy waits for the answer to a request of each type. -/
theorem witness_answers :
    ∀ n ∈ [1, 2, 3, 5, 37],
      (let e : Sent := { pkt := { pkt n [0] with dmod := 1, smod := 0 }, port := 0, round := 0, piece := 0, va := 0 }
       let s := { flying copy with sents := [e], ev := { packet := { pkt 17 [0] with pseq := 0 } } }
       (s.core 0).xfer? ⟨0, 0⟩ = some copy ∧ s.sentFor s.ev.packet (fun m => m == n) = some e) := by decide

/-- A receive of 64 bytes that a message of 64 matches, one of 65 does not fit, and that has taken it. -/
def recv1 : Recv := { core := 0, x := ⟨0, 0⟩, asid := 0, tag := 7, src := 0xFF, cap := 64 }
def recvx : Xfer := xf (.xrecv g 7 8 0) 0 [] [windowEnd 4, 64, 7]
def mated : State := { atWork recvx with recvs := [{ recv1 with mate := some (1, 0, ⟨0, 0⟩), len := 8 }] }

theorem witness_messages :
    (let s := { flying recvx with recvs := [recv1] }
     let p := pkt 33 [7, 64]
     s.seen p = none ∧ s.rts.any (fun q => q.smod == p.smod && q.pseq == p.pseq) = false ∧
     (s.keep p (clearPacket p)).seen p = some (some (clearPacket p)) ∧ (s.keep { p with pseq := 4096 } p).seen p = some none ∧
     ({ s with rts := [p] } : State).rts.any (fun q => q.smod == p.smod && q.pseq == p.pseq) = true ∧ s.rts.length < 4096 ∧
     4096 ≤ (List.replicate 4096 (pkt 33 [9, 64])).length ∧ fld (wordAt (pkt 33 [7, 0]).ops 1) 0 32 = 0 ∧
     s.recvs.find? (fun (r : Recv) => r.matches p) = some recv1 ∧
     s.recvs.find? (fun (r : Recv) => r.matches (pkt 33 [8, 64])) = none ∧ (s.core 0).xfer? ⟨0, 0⟩ = some recvx ∧
     recv1.cap < fld (wordAt (pkt 33 [7, 65]).ops 1) 0 32) ∧
    (let p := pkt 5 [7, 8, 0] (zeros 8)
     let v := mated.settle
     mated.seen p = none ∧ (mated.recvs.find? (fun (r : Recv) => decide (r.mate = some (p.smod, p.core, p.x)))).isSome = true ∧
     yields (v.spots recvx (msgArea recvx) (byteCells ((msgArea recvx).base + 0) p.data)) (fun sp =>
       fine (v.writeSpots recvx 0 sp)) = true) := by decide +kernel

/-- WAITS for a word that has reached 0, and for one that has not reached 1. -/
theorem witness_waits :
    (let x (n : Word) := xf (.xsig g 7 8 0) 0x01000000 [] [windowEnd 4, n]
     (atWork (x 0)).evXfer = some (x 0) ∧ sigMode (x 0) = 1 ∧ (atWork (x 0)).working (x 0) = true ∧
     yields ((atWork (x 0)).settle.sigPlace (x 0) .read) (fun pa => (placeOf pa).here && ((atWork (x 0)).settle.mem.word pa == 0)) = true ∧
     (x 1).round = 0) := by decide

theorem witness_host :
    (0 : Nat) < 8 * hbmSize ∧ State.reset.retained (placeOf 0) false = false ∧ State.reset.directory.contains 0 = false ∧
    ({ State.reset with directory := [0] } : State).directory.contains 0 = true ∧ 8 * hbmSize < 8 * hbmSize + 64 ∧
    State.reset.directory.length < 1048576 ∧ 8 * hbmSize ≤ 8 * hbmSize ∧ 0 + (zeros 64).length ≤ 8 * hbmSize ∧
    (State.reset.setDie 0 { park := .retained }).retained (placeOf 0) false = true := by decide

/-- The second member of a group of two: an all-reduce of two tiles of eight planes. Every rank of the group's list is module 0. -/
def coll1 : Coll :=
  { core := 0, x := ⟨0, 0⟩, kind := .allReduce, group := 0, coln := 0, base := 0, n := 2, rank := 1, ne := 128, p := 8, op := 0, fixe := false
    acc := false, tfix := 0, sent := 0, acct := 0, row0 := 0, root := 0, src := windowEnd 1, dst := windowEnd 2, stage := windowEnd 2 + 2
    started := true }
def collx : Xfer := xf (.xallr g 7 8 0) 0 (collRecord true) [0]
def grp (colls : List Coll) : State := { grouped (atWork collx) with colls := colls }
/-- A packet of collective 0 of group 0: step 1, tile `tile`, planes from `first` on. -/
def plane (tile first : Nat) : Packet :=
  { pkt 4 [0, BitVec.ofNat 64 (1 + tile * 2 ^ 32), BitVec.ofNat 64 (first + 256), 5, coll1.desc] (zeros 16) with smod := 0 }

theorem witness_collectives_of_a_group :
    State.reset.fromMember (plane 1 0) = false ∧ (grp []).fromMember (plane 1 0) = true ∧ (grp []).collFor (plane 1 0) = none ∧
    (grp []).comesEarly (plane 1 0) = false ∧ (grp []).comesEarly { plane 1 0 with ops := [BitVec.ofNat 64 (2 ^ 32)] } = true ∧
    (grp [coll1]).collFor (plane 1 0) = some coll1 ∧ (grp [coll1]).seen (plane 1 0) = none ∧
    (coll1.takes 1).contains 1 = true ∧ (coll1.takes 1).contains 0 = false ∧
    (let c := { coll1 with ts := [(1, 5)] }
     0 + (packetPlanes (plane 1 0) false).length ≤ c.planes ∧ Table.has c.ts 1 = true ∧
     Table.get 0 c.ts 1 = (wordAt (plane 1 0).ops 3).toInt ∧ ((grp [c]).core 0).xfer? ⟨0, 0⟩ = some collx ∧ collx.cut = false ∧
     (grp [c]).tileRetained c collx 1 1 = false ∧ (packetPlanes (plane 1 0) false).any planeBad = false ∧
     (wordAt (plane 1 0).ops 2).getLsbD 17 = false) ∧
    coll1.round = true ∧ coll1.nt < 1 + 2 ∧ 0 + 2 ≤ coll1.nt ∧ coll1.succ = 0 ∧ ¬ coll1.n ≤ 1 ∧ coll1.n ≤ 2 ∧
    wordAt (plane 1 0).ops 4 = coll1.desc ∧ wordAt { plane 1 0 with ops := [0, 0, 0, 0, 0] }.ops 4 ≠ coll1.desc ∧
    ({ coll1 with op := 1 } : Coll).round = false ∧ ¬ coll1.planes < 0 + (packetPlanes (plane 1 0) false).length ∧
    coll1.planes < coll1.planes + (packetPlanes (plane 1 0) false).length ∧
    ((grp [coll1]).setDie 0 { park := .retained }).tileRetained coll1 collx 1 1 = true ∧
    (∀ p ∈ [plane 1 0], ({ grp [] with early := [p] } : State).early.contains p = true) ∧
    (((grp []).keep (plane 1 0) (plane 1 0)).seen (plane 1 0)).isSome = true ∧
    (grp []).rankOf 0 2 0 = some coll1.succ ∧ ((grp []).group 0).v = true ∧ ((grp []).group 0).gen = 0 / 4096 := by decide +kernel

/-- A request of a stream cut and a notice of an error find the collective; one that is cut already, and one that is complete (R417,
R418). Two collectives of a group whose streams go to the rank that rejoins; one of them is paused, its successor within reach, and its
wait is over (R421, R422). -/
theorem witness_stream_events :
    ((grp [coll1]).collFor (pkt 34 [0, 1]) = some coll1 ∧ (pkt 34 [0]).type = 34 ∧ (pkt 35 [0]).type = 35 ∧ coll1.cutDone = false ∧
     coll1.op = 0 ∧ coll1.complete = false ∧ coll1.kind ≠ .broadcast ∧ ({ coll1 with cutDone := true } : Coll).cutDone = true) ∧
    (let r : Coll := { coll1 with op := 1 }
     let c : Coll := { r with coln := 1, x := ⟨0, 1⟩ }
     let s := grp [r, c]
     s.colls = [r, c] ∧ r.group = rejoinGroup (pkt 36 [0]) ∧ c.group = rejoinGroup (pkt 36 [0]) ∧ r.succ = 0 ∧ c.succ = 0 ∧
     r.round = false ∧ c.round = false ∧ s.rankOf 0 2 0 = some 0 ∧ s.seen { pkt 36 [0] with smod := 0 } = none ∧
     coll1.group % 4096 = s.ev.index ∧ coll1.paused = none) ∧
    (let c : Coll := { coll1 with paused := some 0 }
     c.paused = some 0 ∧ 0 + 600 * 600000000 < (BitVec.ofNat 64 (2 ^ 63) : Word).toNat ∧ (grp [c]).wcc.toNat ≤ 0 + 600 * 600000000 ∧
     (grp [c]).inRounds c = false ∧ (grp [c]).memberOf c.group c.succ = (grp [c]).modnum) := by decide +kernel

/-- A plane packet that a parked die turned away goes out again; so does a write, while rounds are left; a collective that waits for a die
of its own. -/
theorem witness_rounds :
    (let e (n : Nat) : Sent := { pkt := { pkt n [0] with dmod := 1, smod := 0 }, port := 0, round := 0, piece := 0, va := 0 }
     let s (n : Nat) : State := { flying copy with sents := [e n], ev := { packet := pkt 19 [1] } }
     (s 4).sentFor (s 4).ev.packet (fun _ => true) = some (e 4) ∧ (s 2).sentFor (s 2).ev.packet (fun _ => true) = some (e 2) ∧
     (s 2).waitedOut (fld (wordAt (s 2).ev.packet.ops 0) 0 20 + 1) = false) ∧
    (let x := { collx with round := 1 }
     (flying x).sentFor (flying x).ev.packet (fun _ => true) = none ∧ ((flying x).core 0).xfer? ⟨0, 0⟩ = some x ∧ x.cut = false ∧
     isColl x.op = true) := by decide +kernel

/-- A copy whose record lies in a line with an uncorrectable error; one with an error and nothing under way, and one that still awaits
an answer (R347, R348, R363). -/
theorem witness_transfer_errors :
    (let x := xf (.xlin g 7 8 0) 0 (linRecord 256) [0] .held
     let s := { flying x with flaws := [padAddr 0 / 64] }
     (s.core 0).startable x = true ∧ (s.core 0).inherited x = none ∧ (s.badRecord x).isSome = true) ∧
    (let x := { copy with phase := .waiting, err := some (0x087, 64) }
     let e : Sent := { pkt := { pkt 2 [0] with dmod := 1, smod := 0 }, port := 0, round := 0, piece := 0, va := 0 }
     (atWork x).evXfer = some x ∧ x.cut = false ∧ (atWork x).awaiting x = false ∧ (atWork x).undelivered x = false ∧
     ({ atWork x with sents := [e] } : State).awaiting x = true) := by decide +kernel

/-- A plane packet that waits for its acknowledgement. -/
theorem witness_acknowledgement :
    (let e : Sent := { pkt := { plane 0 0 with dmod := 1 }, port := 0, round := 0, piece := 0, va := 0 }
     let s := { grp [coll1] with sents := [e], ev := { packet := pkt 18 [3] } }
     s.sentFor s.ev.packet (fun n => n == 4) = some e ∧ s.collFor e.pkt = some coll1 ∧ (wordAt e.pkt.ops 2).getLsbD 17 = false) := by decide


/-! ### Operands within reach, as truth values -/

/-- Memory at `a` is here and answers. -/
def answers (s : State) (a : Nat) : Bool := (placeOf a).here && !s.retained (placeOf a) true
/-- The cached translation that grants the right, in a space that exists. -/
def cachedB (s : State) (t : Xfer) (va : Nat) (r : Right) : Option Mapping :=
  if (wordAt (s.space t.asid) 0).getLsbD 63 then
    ((s.die (clusterIndex t.core / numClusters)).lookup (clusterIndex t.core % numClusters) t.asid va).filter fun p =>
      p.grants r && !overPark (s.ownAddr (p.pa + (va - p.va)))
  else none
/-- A page has the format asked for. -/
def suits (need : Option (Nat × Nat)) (p : Mapping) : Bool :=
  match need with
  | none => true
  | some f => p.fmt == f.1 && p.geo == f.2
def reachB (s : State) (t : Xfer) (virt : Bool) (r : Right) (need : Option (Nat × Nat)) (a : Nat) : Bool :=
  if virt then
    match cachedB s t (a % 2 ^ 55) r with
    | some p => suits need p && answers s (p.pa + (a % 2 ^ 55 - p.va))
    | none => false
  else answers s a
def elemB (s : State) (t : Xfer) (d : Area) (r : Right) (i : Int) : Bool :=
  (List.range ((((d.off + i) * d.bits).toNat % 8 + d.bits + 7) / 8)).all (fun k =>
    reachB s t d.virt r d.need (d.base + ((d.off + i) * d.bits).toNat / 8 + k)) &&
  (!blockFmt d.fmt || reachB s t d.virt r d.scaleNeed (d.scaleAt (d.blockOf i)))
def takesB (s : State) (t : Xfer) (d : Area) (i : Int) : Bool :=
  if blockFmt d.fmt then
    reachB s t d.virt .read d.scaleNeed (d.scaleAt (d.blockOf i)) && reachB s t d.virt .write d.scaleNeed (d.scaleAt (d.blockOf i)) &&
    (d.members (d.blockOf i)).all fun o => match o with
      | some j => elemB s t d .read j && elemB s t d .write j
      | none => true
  else elemB s t d .write i
/-- A window of the format that grants the right. -/
def winB (t : Xfer) (a : Word) (f : Nat) (r : Right) : Bool :=
  let w := winOf t.wins (addrWin a)
  w.kind != 0 && w.fmt == f && (if r = .write then w.wr else w.rd)
/-- It holds the elements. -/
def fitsB (t : Xfer) (a : Word) (f n : Nat) : Bool :=
  let w := winOf t.wins (addrWin a)
  let d := windowArea t.wins t.core a 0
  if f = 13 then decide ((addrElem a + n / 64) * tileBytes ≤ w.len) else decide (n = 0 ∨ byteHi d.bits (d.off + n - 1) ≤ d.len)
/-- The memory end of a block, when it is one. -/
def endB (s : State) (t : Xfer) (a : Word) (f n : Nat) (r : Right) : Option Area :=
  if addrWindow a then (if winB t a f r && fitsB t a f n then some (windowArea t.wins t.core a 0) else none)
  else
    match cachedB s t (addrVirt a) r with
    | none => none
    | some p =>
      if p.fmt ≠ f then none
      else if f = 13 then some ⟨true, addrVirt a, 0, 8, 13, 3, 0, 0, 2 ^ 55⟩
      else if f ≤ 12 ∧ addrVirt a * 8 % elemBits f = 0 then
        some ⟨true, 0, (addrVirt a * 8 / elemBits f : Nat), elemBits f, f, p.geo, s.pagePitch t.asid, s.shadowBase t.asid, 2 ^ 55⟩
      else none
/-- The end that holds an object, when it is one. -/
def objB (s : State) (t : Xfer) (a : Word) (r : Right) : Option Area :=
  if addrWindow a then (if winB t a 0 r then some (windowArea t.wins t.core a 0) else none)
  else
    match cachedB s t (addrVirt a) r with
    | none => none
    | some p => if p.fmt = 0 then some ⟨true, addrVirt a, 0, 32, 0, 3, 0, 0, 2 ^ 55⟩ else none
def bytesB (s : State) (t : Xfer) (d : Area) (r : Right) (need : Option (Nat × Nat)) (a n : Nat) : Bool :=
  (List.range n).all fun i => reachB s t d.virt r need (a + i)
def hutchReadsB (s : State) (t : Xfer) (b : Block) : Bool :=
  b.inp || (match endB s t b.src b.sfmt b.n .read with
    | none => false
    | some d =>
      if b.sfmt = 13 then (List.range (b.n / 64)).all fun k => bytesB s t d .read (some (13, 3)) (d.tileAt k) tileBytes
      else (List.range b.n).all fun (i : Nat) => elemB s t d .read i)
def hutchWritesB (s : State) (t : Xfer) (b : Block) (n : Nat) : Bool :=
  if b.out then
    if b.dfmt = 13 then decide (n / 64 * tileBytes ≤ 4096)
    else
      let d := bufArea b.dfmt b.dgeo b.pitch n
      decide (d.len ≤ 4096) && (!blockFmt b.dfmt || (List.range n).all fun (i : Nat) => decide (d.scaleAt (d.blockOf i) < 4096))
  else
    match endB s t b.dst b.dfmt n .write with
    | none => false
    | some d =>
      if b.dfmt = 13 then (List.range (n / 64)).all fun k => bytesB s t d .write (some (13, 3)) (d.tileAt k) tileBytes
      else (List.range n).all fun (i : Nat) => takesB s t d i
def hutchEndsB (s : State) (t : Xfer) (b : Block) : Bool :=
  let h := objHead (wordsOf 8 t.head)
  s.flaws.isEmpty &&
  match b.op with
  | 1 => (match objB s t b.dst .write with
    | none => false
    | some d =>
      if t.head = [] then bytesB s t d .write d.need d.objAt 64
      else hutchReadsB s t b && decide (d.objAt + 64 + 2 * h.rsv ≤ d.limit) && bytesB s t d .write d.need d.objAt (64 + 2 * h.rsv) &&
        (match s.hutchIn t b with
         | .error _ => true
         | .ok es => decide (64 * ((b.n + 511) / 512) + 64 * (((es.filter fun e => e.1 != 0).length * (elemBits b.sfmt / 8) + 63) / 64) ≤ h.rsv)))
  | 2 => (match objB s t b.src .read with
    | none => false
    | some d =>
      if t.head = [] then bytesB s t d .read d.need d.objAt 64
      else decide (h.bad = false) && hutchWritesB s t b (if h.v then h.nelem else 0) &&
        (!h.v || (decide (h.nelem ≤ b.n ∧ d.objAt + 64 + h.side * h.rsv + h.mlen + h.vlen ≤ d.limit) &&
          bytesB s t d .read d.need (d.objAt + 64 + h.side * h.rsv) (h.mlen + h.vlen))))
  | _ => hutchReadsB s t b && hutchWritesB s t b b.n

theorem answers_reach {s : State} {t : Xfer} {virt : Bool} {r : Right} {need : Option (Nat × Nat)} {a : Nat}
    (h : reachB s t virt r need a = true) : Reaches s t virt r need a := by
  unfold reachB at h
  cases virt with
  | false =>
    simp only [answers, Bool.false_eq_true, ↓reduceIte, Bool.and_eq_true, Bool.not_eq_true'] at h
    exact ⟨a, h.1, h.2, fun _ => rfl, fun h => nomatch h⟩
  | true =>
    simp only [↓reduceIte] at h
    split at h
    · next p hp =>
      simp only [Bool.and_eq_true, answers, Bool.not_eq_true'] at h
      unfold cachedB at hp
      split at hp
      · next hs =>
        rw [Option.filter_eq_some_iff] at hp
        refine ⟨_, h.2.1, h.2.2, (fun h => nomatch h), fun _ => ⟨p, ⟨hs, hp.1, by simpa using hp.2⟩, ?_, rfl⟩⟩
        intro f hf
        have := h.1
        simp only [suits, hf, Bool.and_eq_true, beq_iff_eq] at this
        exact this
      · cases hp
    · cases h

theorem elem_reaches {s : State} {t : Xfer} {d : Area} {r : Right} {i : Int} (h : elemB s t d r i = true) : ElemReaches s t d r i := by
  simp only [elemB, Bool.and_eq_true, List.all_eq_true, List.mem_range, Bool.or_eq_true, Bool.not_eq_true'] at h
  exact ⟨fun k hk => answers_reach (h.1 k hk), fun hb => answers_reach (h.2.resolve_left (by simp [hb]))⟩

theorem elem_takes {s : State} {t : Xfer} {d : Area} {i : Int} (h : takesB s t d i = true) : ElemTakes s t d i := by
  unfold takesB at h
  split at h
  · next hb =>
    simp only [Bool.and_eq_true, List.all_eq_true] at h
    refine ⟨fun hf => by simp [hb] at hf, fun _ => ⟨answers_reach h.1.1, answers_reach h.1.2, fun j hj => ?_⟩⟩
    have := h.2 _ hj
    simp only [Bool.and_eq_true] at this
    exact ⟨elem_reaches this.1, elem_reaches this.2⟩
  · next hb => exact ⟨fun _ => elem_reaches h, fun hf => absurd hf hb⟩

theorem cached_sound {s : State} {t : Xfer} {va : Nat} {r : Right} {p : Mapping} (h : cachedB s t va r = some p) : Cached s t va r p := by
  unfold cachedB at h
  split at h
  · next hs =>
    rw [Option.filter_eq_some_iff] at h
    exact ⟨hs, h.1, by simpa using h.2⟩
  · cases h

theorem win_sound {t : Xfer} {a : Word} {f : Nat} {r : Right} (h : winB t a f r = true) :
    (winOf t.wins (addrWin a)).kind ≠ 0 ∧ (winOf t.wins (addrWin a)).fmt = f ∧
    (if r = .write then (winOf t.wins (addrWin a)).wr = true else (winOf t.wins (addrWin a)).rd = true) := by
  simp only [winB, Bool.and_eq_true, bne_iff_ne, beq_iff_eq] at h
  refine ⟨h.1.1, h.1.2, ?_⟩
  have h := h.2
  split at h
  · next hr => rw [if_pos hr]; exact h
  · next hr => rw [if_neg hr]; exact h

theorem end_sound {s : State} {t : Xfer} {a : Word} {f n : Nat} {r : Right} {d : Area} (h : endB s t a f n r = some d) :
    EndIs s t a f n r d := by
  unfold endB at h
  split at h
  · next hw =>
    split at h
    · next hc =>
      cases h
      rw [Bool.and_eq_true] at hc
      have hw' := win_sound hc.1
      refine ⟨fun _ => ⟨hw'.1, hw'.2.1, hw'.2.2, rfl, ?_⟩, fun hf => by simp [hw] at hf⟩
      have hf := hc.2
      unfold fitsB at hf
      split at hf
      · next h13 => rw [if_pos h13]; simpa using hf
      · next h13 => rw [if_neg h13]; simpa using hf
    · cases h
  · next hw =>
    refine ⟨fun ht => absurd ht hw, fun _ => ?_⟩
    split at h
    · cases h
    · next p hp =>
      refine ⟨p, cached_sound hp, ?_⟩
      by_cases hf : p.fmt ≠ f
      · simp [hf] at h
      · rw [if_neg hf] at h
        refine ⟨by simpa using hf, ?_⟩
        split at h
        · next h13 => cases h; simp [h13]
        · next h13 =>
          rw [if_neg h13]
          split at h
          · next hc => cases h; exact ⟨hc.1, hc.2, rfl⟩
          · cases h

theorem obj_sound {s : State} {t : Xfer} {a : Word} {r : Right} {d : Area} (h : objB s t a r = some d) : ObjIs s t a r d := by
  unfold objB at h
  split at h
  · next hw =>
    split at h
    · next hc =>
      cases h
      have hw' := win_sound hc
      exact ⟨fun _ => ⟨hw'.1, hw'.2.1, hw'.2.2, rfl⟩, fun hf => by simp [hw] at hf⟩
    · cases h
  · next hw =>
    refine ⟨fun ht => absurd ht hw, fun _ => ?_⟩
    split at h
    · cases h
    · next p hp =>
      split at h
      · next hf => cases h; exact ⟨p, cached_sound hp, hf, rfl⟩
      · cases h

theorem bytes_reach {s : State} {t : Xfer} {d : Area} {r : Right} {need : Option (Nat × Nat)} {a n : Nat}
    (h : bytesB s t d r need a n = true) : BytesReach s t d r need a n := by
  simp only [bytesB, List.all_eq_true, List.mem_range] at h
  exact fun i hi => answers_reach (h i hi)

theorem hutch_reads {s : State} {t : Xfer} {b : Block} (h : hutchReadsB s t b = true) : HutchReads s t b := by
  unfold hutchReadsB at h
  rw [Bool.or_eq_true] at h
  refine h.imp id fun h => ?_
  split at h
  · cases h
  · next d hd =>
    refine ⟨d, end_sound hd, ?_⟩
    split at h
    · next hf => rw [if_pos hf]; simp only [List.all_eq_true, List.mem_range] at h; exact fun k hk => bytes_reach (h k hk)
    · next hf => rw [if_neg hf]; simp only [List.all_eq_true, List.mem_range] at h; exact fun k hk => elem_reaches (h k hk)

theorem hutch_writes {s : State} {t : Xfer} {b : Block} {n : Nat} (h : hutchWritesB s t b n = true) : HutchWrites s t b n := by
  unfold hutchWritesB at h
  unfold HutchWrites
  split at h
  · next ho =>
    rw [if_pos ho]
    split at h
    · next hf => rw [if_pos hf]; simpa using h
    · next hf =>
      rw [if_neg hf]
      simp only [Bool.and_eq_true, decide_eq_true_eq, Bool.or_eq_true, Bool.not_eq_true', List.all_eq_true, List.mem_range] at h
      exact ⟨h.1, fun hb i hi => h.2.resolve_left (by simp [hb]) i hi⟩
  · next ho =>
    rw [if_neg ho]
    split at h
    · cases h
    · next d hd =>
      refine ⟨d, end_sound hd, ?_⟩
      split at h
      · next hf => rw [if_pos hf]; simp only [List.all_eq_true, List.mem_range] at h; exact fun k hk => bytes_reach (h k hk)
      · next hf => rw [if_neg hf]; simp only [List.all_eq_true, List.mem_range] at h; exact fun k hk => elem_takes (h k hk)

theorem hutch_ends {s : State} {t : Xfer} {b : Block} (h : hutchEndsB s t b = true) : HutchEnds s t b := by
  unfold hutchEndsB at h
  rw [Bool.and_eq_true, List.isEmpty_iff] at h
  refine ⟨h.1, ?_⟩
  have h := h.2
  split at h
  · next hop =>
    try simp only [hop]
    split at h
    · cases h
    · next d hd =>
      refine ⟨d, obj_sound hd, ?_⟩
      split at h
      · next hh => rw [if_pos hh]; exact bytes_reach h
      · next hh =>
        rw [if_neg hh]
        simp only [Bool.and_eq_true, decide_eq_true_eq] at h
        refine ⟨hutch_reads h.1.1.1, h.1.1.2, bytes_reach h.1.2, fun es he => ?_⟩
        have h4 := h.2
        rw [he] at h4
        simpa using h4
  · next hop =>
    try simp only [hop]
    split at h
    · cases h
    · next d hd =>
      refine ⟨d, obj_sound hd, ?_⟩
      split at h
      · next hh => rw [if_pos hh]; exact bytes_reach h
      · next hh =>
        rw [if_neg hh]
        simp only [Bool.and_eq_true, decide_eq_true_eq, Bool.or_eq_true, Bool.not_eq_true'] at h
        refine ⟨h.1.1, hutch_writes h.1.2, fun hv => ?_⟩
        have := h.2.resolve_left (by simp [hv])
        exact ⟨this.1.1, this.1.2, bytes_reach this.2⟩
  · next h1 h2 =>
    simp only [Bool.and_eq_true] at h
    first
    | exact ⟨hutch_reads h.1, hutch_writes h.2⟩
    | (split
       · exact absurd ‹_› h1
       · exact absurd ‹_› h2
       · exact ⟨hutch_reads h.1, hutch_writes h.2⟩)


/-! ### Witnesses: the hutch -/

/-- The second block of a chain, between window 4 of one format and window 5 of another: its operation, source and destination
format and geometry, number of elements, flags BUFOUT and BUFIN, words 4 and 5 apart, and the object's header read so far. -/
def hutched (op sf sg df dg n flags w4 w5 : Nat) (head : List Byte := []) : Xfer × Block :=
  let ws : List Word := [BitVec.ofNat 64 (n * 2 ^ 32 + flags * 2 ^ 4 + op), windowEnd 4, windowEnd 5, 0,
    BitVec.ofNat 64 (w4 * 2 ^ 32 + dg * 2 ^ 10 + sg * 2 ^ 8 + df * 16 + sf), BitVec.ofNat 64 w5, 0, 0]
  let wins := (here.me.sys.wins.set 4 (win sf (if blockFmt sf then sg else 3))).set 5 (win df (if blockFmt df then dg else 3))
  ({ xf (.xchain g 7 8 0) 0 [] [0x300000, 0, 0, 0] with
      wins := wins, buf := List.replicate 16 1, nblk := 1, block := 0x300000, blocks := [(0x300000, ws)], head := head },
    chainBlock ws)
/-- A header that reserves 128 bytes a side; with V, of two elements of FP32 in side 0. -/
def header (v : Bool) : List Byte := bytesOf [2, BitVec.ofNat 64 (128 * 2 ^ 32), if v then 0x81 else 1, 3, 0, 0, 0, 0]

/-- PACK and UNPACK with their headers to read, and read; CONVERT from FP32 to FP16, from the buffer and to it; BSI8 to BSI4;
a transpose of 2 by 2; a tile into one plane, and back (R302, R305). -/
def hutchCases : List (Xfer × Block) :=
  [hutched 1 1 3 0 3 2 1 0 0, hutched 1 1 3 0 3 2 1 0 0 (header false), hutched 2 0 3 1 3 2 1 0 0, hutched 2 0 3 1 3 2 1 0 0 (header true),
   hutched 2 0 3 1 3 2 1 0 0 (header false), hutched 3 1 3 2 3 2 1 0 0, hutched 3 1 3 2 3 2 3 0 0, hutched 3 1 3 2 3 2 4 0 0,
   hutched 4 8 0 9 0 4 1 0 0, hutched 5 1 3 1 3 4 1 2 0, hutched 6 1 3 13 3 64 1 0 1024, hutched 7 13 3 1 3 64 1 0 0]

/-- The premises of `HutchEvents`, and the answer. -/
def hutchCase (c : Xfer × Block) : Bool :=
  let x := c.1
  let s := atWork x
  decide (s.evXfer = some x) && s.working x && !x.pieces.contains 0 && decide (x.dst = none) && !s.settle.undelivered x &&
    !s.settle.awaiting x && yields (s.settle.blockOf x) (fun b => decide (b = c.2)) && decide (x.nblk < 64) && c.2.ok false &&
    !s.settle.badBuffer x c.2 && hutchEndsB s.settle x c.2 && fine (s.settle.blockRun x c.2)

theorem witness_hutch : hutchCases.all hutchCase = true ∧ hutchCases.map (fun c => c.2.op) = [1, 1, 2, 2, 2, 3, 3, 3, 4, 5, 6, 7] := by
  decide +kernel

/-! ### Witnesses: virtual ends within reach -/

/-- A transfer at work whose cluster has the pages of `paged` cached. -/
def cached (fmt geo : Nat) (t : Xfer) (vas : List Nat) : State := (paged fmt geo (atWork t)).settle.fillAll t vas

/-- The premises of a reduction and of its barrier at a virtual address. -/
theorem witness_reductions :
    (let s := cached 0 3 (red false) [64]
     s.flaws = [] ∧ s.evXfer = some (red false) ∧ s.working (red false) = true ∧ RedReaches s (red false) 64) ∧
    (let x := { red true with pieces := [0] }
     let s := cached 0 3 x [0]
     s.evXfer = some x ∧ s.working x = true ∧ s.undelivered x = false ∧ s.settle.flaws = [] ∧ BarReaches s.settle x 0) := by
  refine ⟨⟨by decide, by decide, by decide, page0 0 3, 0, ?_, by decide⟩, by decide, by decide, by decide, by decide, page0 0 3, 0, ?_, by decide⟩ <;>
  · unfold Cached; decide

/-- XMVB of one row, its operand B's pages cached; and B as it lies there. -/
def mvState : State := cached 8 0 mvb [0, 2 ^ 42]
def mvEnd : Area := ⟨true, 0, 0, 8, 8, 0, mvState.settle.pagePitch 0, mvState.settle.shadowBase 0, 2 ^ 55⟩
/-- Block b of column j of the row can be read. -/
def mvBlockB (j b : Nat) : Bool :=
  let e : Int := ((64 * 0 + j) * mvPitch mvb.recd + 4 * b : Nat)
  let a := (mvEnd.base + (byteLo mvEnd.bits (mvEnd.off + e)).toNat) % 2 ^ 55
  decide (cachedB mvState.settle mvb a .read = some (page0 8 0) ∧ placeOf ((page0 8 0).pa + (a - (page0 8 0).va)) = .hbm 0) &&
    (List.range 4).all fun (k : Nat) => elemB mvState.settle mvb mvEnd .read (e + k)

/-- B lies in HBM pages of BSI8 within reach. -/
theorem witness_mv_reads :
    mvState.evXfer = some mvb ∧ mvState.working mvb = true ∧ mvState.flaws = [] ∧
    (List.range (mvRows mvb.recd)).find? (fun i => !mvb.pieces.contains i) = some 0 ∧ MvReads mvState.settle mvb mvEnd 0 := by
  have h : (List.range 64).all (fun j => (List.range (mvK mvb.recd / 4)).all (mvBlockB j)) = true := by decide +kernel
  refine ⟨by decide +kernel, by decide +kernel, by decide +kernel, by decide, ⟨page0 8 0, ?_, by decide, rfl, by decide +kernel, ?_⟩, by decide, ?_⟩
  · unfold Cached; decide +kernel
  · decide +kernel
  · intro j b hj hb
    simp only [List.all_eq_true, List.mem_range] at h
    have hb := h j hj b hb
    simp only [mvBlockB, Bool.and_eq_true, decide_eq_true_eq, List.all_eq_true, List.mem_range] at hb
    exact ⟨⟨page0 8 0, 0, cached_sound hb.1.1, hb.1.2⟩, fun k hk => elem_reaches (hb.2 k hk)⟩

/-- The same row summed into window 1 (DST 1). -/
def mvOut : Xfer :=
  { mvb with recd := [BitVec.ofNat 64 (4 * 2 ^ 32 + 2 ^ 25 + 2 ^ 24 + 2 * 2 ^ 13 + 2 * 2 ^ 11), windowEnd 3, 0, 4, windowEnd 1, 0, 0, 0] }
theorem witness_mv_window :
    (let s := paged 8 0 (atWork mvOut)
     let u := s.settle.fillAll mvOut [0]
     s.evXfer = some mvOut ∧ s.working mvOut = true ∧ mvWin mvOut.recd = true ∧ mvOut.dst = none ∧
     (List.range (mvRows mvOut.recd)).find? (fun i => !mvOut.pieces.contains i) = some 0 ∧
     yields (u.mvArea mvOut) (fun d => yields ((List.range 64).mapM fun j => u.mvOut mvOut d (64 * 0 + j)) fun xs =>
       let o := windowArea mvOut.wins 0 (wordAt mvOut.recd 4) 0
       fine (u.spots mvOut o (xs.zipIdx.flatMap fun (x : Dy × Nat) =>
         o.cells none ((64 * 0 + x.2 : Nat) : Int) 32 (roundToFormat fmtF32 x.1.isNeg x.1.m.natAbs x.1.e 0 0).1))) = true) := by decide +kernel

/-- Two rows summed into window 1: the first is held until the second has been computed. -/
def mvOut2 : Xfer :=
  { mvOut with recd := [BitVec.ofNat 64 (4 * 2 ^ 32 + 2 * 2 ^ 25 + 2 ^ 24 + 2 * 2 ^ 13 + 2 * 2 ^ 11), windowEnd 3, 0, 4, windowEnd 1, 0, 0, 0] }
theorem witness_mv_held :
    (let s := paged 8 0 (atWork mvOut2)
     let u := s.settle.fillAll mvOut2 [0]
     s.evXfer = some mvOut2 ∧ s.working mvOut2 = true ∧ mvWin mvOut2.recd = true ∧ mvOut2.dst = none ∧ mvOut2.buf ≠ [] ∧
     (List.range (mvRows mvOut2.recd)).find? (fun i => !mvOut2.pieces.contains i) = some 0 ∧ (0 :: mvOut2.pieces).length < mvRows mvOut2.recd ∧
     yields (u.mvArea mvOut2) (fun d => fine ((List.range 64).mapM fun j => u.mvOut mvOut2 d (64 * 0 + j))) = true) := by decide +kernel

/-! ### Witnesses: a bind whose code can be read -/

/-- A task alone at the head of cluster 0's order, whose code page is cached nowhere and mapped (R270, R273). -/
def bindable : State := { paged 0 3 State.reset with
  launches := [{ launch0 with graph := graph1 0 0 0 }], clusters := [(0, { queue := [(0, { st := .ready })] })] }
theorem witness_bind_code :
    (let u := bindable.noteHead 0
     let l := { launch0 with graph := graph1 0 0 0 }
     (u.bindOrder 0).all (fun q => !u.gangLost q.2) = true ∧ (u.bindOrder 0).head? = some (0, { st := .ready, head := some 0 }) ∧
     u.launch? 0 = some l ∧ u.places 0 (0, 0) { st := .ready, head := some 0 } = some [(0, 0)] ∧
     InPage u.settle (lrAsid l.recd) (lrCode l.recd + 4096 * (nPc (gNode l.graph 0) / 4096)) 4096 .code 0x30000) := by
  refine ⟨by decide +kernel, by decide +kernel, by decide +kernel, by decide +kernel, page0 0 3, ?_, by decide +kernel⟩
  unfold LeafAt
  decide +kernel

/-! ### Witnesses: power and tenancy, the forms that wait or are turned away -/

/-- A request that waits for a peer's parked die until the rounds are out; the die of the shed order that is awake; a die whose unpark
resumes a context, and one with none. -/
theorem witness_waiting_power :
    (let e : Sent := { pkt := { pkt 2 [0] with dmod := 1, smod := 0 }, port := 0, round := 0, piece := 0, va := 0 }
     let s := { flying copy with sents := [e], ev := { packet := pkt 17 [0xFFFFF] } }
     s.sentFor s.ev.packet (fun _ => true) = some e ∧ e.pkt.type ≠ 4 ∧ s.waitedOut (fld (wordAt s.ev.packet.ops 0) 0 20 + 1) = true) ∧
    (State.reset.die (State.reset.power.shed 0)).awake = true ∧
    (let s := (onCtx (fun c => { c with bound := true, started := true, frozen := .park, reload := true }) here).setDie 0 { park := .retained }
     s.unparkNext = some s.ev.die ∧ s.power.st ≤ 1 ∧ s.graceDies = [] ∧ (0, 0) ∈ (s.unpark 0).boundOn 0 ∧ ((s.unpark 0).ctx 0 0).resumeIn ≠ none) ∧
    ((State.reset.setDie 0 { park := .retained }).unpark 0).boundOn 0 = [] := by decide +kernel

/-- A scrub that is asked for while a bench test runs, in S3, and pending over a restart or a module reset; a bench test with too little
in reserve, one that ends with a failing pair. -/
theorem witness_tenancy_states :
    (let s := powered fun p => { p with s3 := .quiesce }
     s.ten.go = false ∧ s.ten.benchgo = false ∧ s.power.s3 ≠ .none) ∧
    (let s := { powered (fun p => { p with s3 := .closed }) with ten := { pend := true } }
     s.power.s3 = .closed ∧ s.hibMin ≤ s.power.reserve ∧ s.ten.pend = true) ∧
    (let r : BenchResult := { pairs := [3] }
     860000 ≤ State.reset.power.reserve ∧ 3 ∈ benchFails (State.reset.benchFound r) ∧ r.rows7 = [] ∧
     ({ rows7 := [(0, 1)] } : BenchResult).rows7 ≠ [] ∧ (powered fun p => { p with reserve := 859999 }).power.reserve < 860000) := by
  decide +kernel

/-- The two words of the checkpoint protocol lie in a page that grants both rights. -/
theorem witness_checkpoint_pages :
    InPage (checkpointed none 0xFFFFFFFFFFFF) 0 (condAddr launch0 255) 8 .write (condAddr launch0 255) ∧
    InPage (checkpointed (some 0) 0) 0 (condAddr launch0 254) 8 .read (condAddr launch0 254) := by
  refine ⟨⟨page0 0 3, ?_, by decide⟩, page0 0 3, ?_, by decide⟩ <;> (unfold LeafAt; decide +kernel)

/-- An XCKPT of regions none of which lies in a parked die, and one with such a region. -/
theorem witness_checkpoint_regions :
    State.reset.regionRetained 15 = none ∧
    (let s := { State.reset.setDie 0 { park := .retained } with
       hiblist := [(0, { w0 := BitVec.ofNat 64 (2 ^ 63 + 2 ^ 58 + vaultAddr 0 0), w1 := 1, w2 := 0 })] }
     (s.regionRetained 15).isSome = true) := by decide +kernel

/-! ### Witnesses: the fabric, the forms that wait or are turned away -/

/-- A port without a lane; a reduction whose barrier's vault is parked; a write into a vault; an answer to a reduction with BAR. -/
theorem witness_fabric_forms :
    ({ State.reset with ten := { lanes := List.range 8 } } : State).laneless 0 = true ∧ State.reset.laneless 0 = false ∧
    (let p := pkt 3 [0, 0x10, 1, 0, BitVec.ofNat 64 (vaultAddr 0 0)]
     let s := State.reset.setDie 0 { park := .retained }
     (wordAt p.ops 1).toNat.testBit 4 = true ∧ s.retained (placeOf (wordAt p.ops 4).toNat) false = true ∧ s.seen p = none) ∧
    ((placeOf (vaultAddr 0 0)).onDie = true ∧ (placeOf (vaultAddr 0 0)).die = some 0 ∧ (placeOf (vaultAddr 0 0)).here = true) ∧
    (wordAt (pkt 3 [0, 0x10]).ops 1).getLsbD 4 = true := by decide

/-- The message of `witness_messages` lands within reach; the word of `witness_waits` can be read. -/
theorem witness_messages_reach :
    BytesReach mated.settle recvx (msgArea recvx) .write (msgArea recvx).need ((msgArea recvx).base + 0) 8 ∧
    (let x := xf (.xsig g 7 8 0) 0x01000000 [] [windowEnd 4, 0]
     SigReaches (atWork x).settle x (padAddr 0)) := by
  refine ⟨bytes_reach (by decide +kernel), ?_⟩
  exact ⟨by decide, by decide, fun _ => by decide, fun h => absurd h (by decide)⟩

end Sys2Proof.Tests
end

section
/-! SUPPORT. The end of a clk for a context's results (R9, R18, R21, R83, R84, R131): the order in which those due land, what one of
them writes, and what is left in a register by all of them. Settles `Obligations.ResultsLand`. -/

namespace Sys2Proof.Machine

open Sys2Proof.Rules

/-! ### The order of R84 -/

theorem Landing.before_of_not {a b : Landing} (h : ¬ b.before a) : a.before b := by
  simp only [Landing.before, decide_eq_true_eq] at h ⊢
  omega

theorem Landing.before_trans {a b c : Landing} (hab : a.before b) (hbc : b.before c) : a.before c := by
  simp only [Landing.before, decide_eq_true_eq] at hab hbc ⊢
  omega

theorem insertLanding_perm (a : Landing) (l : List Landing) : (insertLanding a l).Perm (a :: l) := by
  induction l with
  | nil => exact .refl _
  | cons b l ih =>
    by_cases h : b.before a
    · rw [insertLanding, if_pos h]
      exact (ih.cons b).trans (.swap a b l)
    · rw [insertLanding, if_neg h]

theorem insertLanding_pairwise (a : Landing) {l : List Landing} (hl : l.Pairwise fun x y => x.before y) :
    (insertLanding a l).Pairwise fun x y => x.before y := by
  induction l with
  | nil => simp [insertLanding]
  | cons b l ih =>
    obtain ⟨hb, hl'⟩ := List.pairwise_cons.1 hl
    by_cases h : b.before a
    · have hmem : ∀ x ∈ insertLanding a l, b.before x := fun x hx => by
        rcases List.mem_cons.1 ((insertLanding_perm a l).mem_iff.1 hx) with rfl | hx
        · exact h
        · exact hb x hx
      rw [insertLanding, if_pos h]
      exact List.pairwise_cons.2 ⟨hmem, ih hl'⟩
    · have hab : a.before b := Landing.before_of_not h
      have hmem : ∀ x ∈ b :: l, a.before x := fun x hx => by
        rcases List.mem_cons.1 hx with rfl | hx
        · exact hab
        · exact Landing.before_trans hab (hb x hx)
      rw [insertLanding, if_neg h]
      exact List.pairwise_cons.2 ⟨hmem, hl⟩

theorem foldl_insertLanding_perm (l acc : List Landing) : (l.foldl (fun acc a => insertLanding a acc) acc).Perm (l ++ acc) := by
  induction l generalizing acc with
  | nil => exact .refl _
  | cons a l ih => exact (ih _).trans (((insertLanding_perm a acc).append_left l).trans List.perm_middle)

theorem sortLandings_perm (l : List Landing) : (sortLandings l).Perm l := by
  simpa only [sortLandings, List.append_nil] using foldl_insertLanding_perm l []

@[simp] theorem mem_sortLandings {l : List Landing} {a : Landing} : a ∈ sortLandings l ↔ a ∈ l :=
  (sortLandings_perm l).mem_iff

theorem sortLandings_pairwise (l : List Landing) : (sortLandings l).Pairwise fun x y => x.before y :=
  List.foldlRecOn l (fun acc a => insertLanding a acc) (motive := fun acc => acc.Pairwise fun x y => x.before y) .nil
    fun _ hacc a _ => insertLanding_pairwise a hacc

/-- After the last in rank of those that meet in a register, only copies of it land in that register (R84). -/
theorem sortLandings_split_of_wins {l : Landing} {due : List Landing} (h : Wins l due) :
    ∃ pre post, sortLandings due = pre ++ l :: post ∧ ∀ k ∈ post, k.dest = l.dest → k = l := by
  obtain ⟨hl, hlast⟩ := h
  obtain ⟨pre, post, hsplit⟩ := List.append_of_mem (mem_sortLandings.2 hl)
  refine ⟨pre, post, hsplit, fun k hk hd => ?_⟩
  have hkdue : k ∈ due := mem_sortLandings.1 (by simp [hsplit, hk])
  obtain ⟨-, hpairs, -⟩ := List.pairwise_append.1 (hsplit ▸ sortLandings_pairwise due)
  have hbefore : l.before k := List.rel_of_pairwise_cons hpairs hk
  exact (hlast k hkdue hd).resolve_right (by simp [hbefore])

/-! ### What one result writes -/

@[simp] theorem lane_mkLanes (f : Nat → W32) {k : Nat} (hk : k < 64) : lane (mkLanes f) k = f k := by
  simp [lane, mkLanes, hk]

@[simp] theorem Ctx.landOne_land (c : Ctx) (l : Landing) : (c.landOne l).land = c.land := by
  unfold Ctx.landOne
  cases l.dest <;> simp [apply_ite Ctx.land]

/-- A write to an entry of a register file whose entry 0 is fixed (R9). -/
theorem getElem_set_unless_zero {α : Type} {n : Nat} [NeZero n] (v : Vector α n) (i j : Fin n) (x : α) :
    (if j.val = 0 then v else v.set j x)[i] = if j = i ∧ i ≠ 0 then x else v[i] := by
  by_cases hij : j = i
  · subst hij
    by_cases hj : j.val = 0 <;> simp [hj, Fin.ext_iff]
  · have hne : j.val ≠ i.val := fun h => hij (Fin.ext h)
    by_cases hj : j.val = 0 <;> simp [hj, hij, hne]

/-- Of a landing, what `view` sees is written by the results `P` alone, each with its `w`. -/
def Writes {α : Type} (view : Regs → α) (P : Landing → Prop) [DecidablePred P] (w : Landing → α) : Prop :=
  ∀ (c : Ctx) (l : Landing), view (c.landOne l).regs = if P l then w l else view c.regs

theorem writes_s (i : Fin 32) : Writes (·.s[i]) (fun l => l.dest = .s i ∧ i ≠ 0) (·.word) := by
  rintro c ⟨_, _, _, dest, word, _, _, _⟩
  cases dest with
  | s j =>
    simpa only [Ctx.landOne, apply_ite Ctx.regs, apply_ite Regs.s, Dest.s.injEq]
      using getElem_set_unless_zero c.regs.s i j word
  | _ => simp [Ctx.landOne, apply_ite Ctx.regs, apply_ite Regs.s]

theorem writes_p (i : Fin 8) : Writes (·.p[i]) (fun l => l.dest = .p i ∧ i ≠ 0) (·.word != 0) := by
  rintro c ⟨_, _, _, dest, word, _, _, _⟩
  cases dest with
  | p j =>
    simpa only [Ctx.landOne, apply_ite Ctx.regs, apply_ite Regs.p, Dest.p.injEq]
      using getElem_set_unless_zero c.regs.p i j (word != 0)
  | _ => simp [Ctx.landOne, apply_ite Ctx.regs, apply_ite Regs.p]

theorem writes_m (i : Fin 8) : Writes (·.m[i]) (fun l => l.dest = .m i ∧ i ≠ 0) (·.word) := by
  rintro c ⟨_, _, _, dest, word, _, _, _⟩
  cases dest with
  | m j =>
    simpa only [Ctx.landOne, apply_ite Ctx.regs, apply_ite Regs.m, Dest.m.injEq]
      using getElem_set_unless_zero c.regs.m i j word
  | _ => simp [Ctx.landOne, apply_ite Ctx.regs, apply_ite Regs.m]

theorem writes_k (i : Fin 64) : Writes (·.k[i]) (fun l => l.dest = .k i ∧ i ≠ 0) (·.word) := by
  rintro c ⟨_, _, _, dest, word, _, _, _⟩
  cases dest with
  | k j =>
    simpa only [Ctx.landOne, apply_ite Ctx.regs, apply_ite Regs.k, Dest.k.injEq]
      using getElem_set_unless_zero c.regs.k i j word
  | _ => simp [Ctx.landOne, apply_ite Ctx.regs, apply_ite Regs.k]

/-- A vector result writes the lanes that it names (R131). -/
theorem writes_v (i : Fin 32) {k : Nat} (hk : k < 64) :
    Writes (lane ·.v[i] k) (fun l => l.dest = .v i ∧ l.lanes.getLsbD k = true) (lane ·.vec k) := by
  rintro c ⟨_, _, _, dest, _, _, _, _⟩
  cases dest with
  | v j =>
    by_cases hij : j = i
    · subst hij; simp [Ctx.landOne, mergeLanes, hk]
    · have hne : j.val ≠ i.val := fun h => hij (Fin.ext h)
      simp [Ctx.landOne, hij, hne]
  | _ => simp [Ctx.landOne, apply_ite Ctx.regs, apply_ite Regs.v]

/-! ### What is left in a register by all that land in one clk -/

@[simp] theorem Ctx.foldl_landOne_land (c : Ctx) (ls : List Landing) : (ls.foldl Ctx.landOne c).land = c.land :=
  List.foldlRecOn ls Ctx.landOne (motive := fun r => r.land = c.land) rfl fun r hr l _ => (r.landOne_land l).trans hr

/-- The results of a context that land with the clk in hand (R83). -/
abbrev Ctx.dueNow (c : Ctx) : List Landing := c.land.filter fun l => decide (l.left ≤ 1)

theorem Ctx.landAll_regs (c : Ctx) :
    ∃ c' : Ctx, c'.regs = c.regs ∧ c.landAll.regs = ((sortLandings c.dueNow).foldl Ctx.landOne c').regs :=
  ⟨{ c with land := (c.land.filter fun l => decide (1 < l.left)).map fun l => { l with left := l.left - 1 } }, rfl, rfl⟩

section
variable {α : Type} {view : Regs → α} {P : Landing → Prop} [DecidablePred P] {w : Landing → α}

/-- What no result due writes stands. -/
theorem Ctx.landAll_kept (c : Ctx) (hw : Writes view P w) (hno : ∀ l ∈ c.dueNow, ¬ P l) :
    view c.landAll.regs = view c.regs := by
  obtain ⟨c', hc', hland⟩ := c.landAll_regs
  rw [hland, ← hc']
  refine List.foldlRecOn _ Ctx.landOne (motive := fun r => view r.regs = view c'.regs) rfl fun r hr l hl => ?_
  rw [hw r l, if_neg (hno l (mem_sortLandings.1 hl)), hr]

/-- Of the results that meet, the last in rank is kept (R84). -/
theorem Ctx.landAll_wins (c : Ctx) (hw : Writes view P w) {l : Landing} (hl : Wins l c.dueNow) (hP : P l)
    (hdest : ∀ k, P k → k.dest = l.dest) : view c.landAll.regs = w l := by
  obtain ⟨c', -, hland⟩ := c.landAll_regs
  obtain ⟨pre, post, hsplit, hpost⟩ := sortLandings_split_of_wins hl
  have hhit (r : Ctx) : view (r.landOne l).regs = w l := (hw r l).trans (if_pos hP)
  rw [hland, hsplit, List.foldl_append, List.foldl_cons]
  refine List.foldlRecOn post Ctx.landOne (motive := fun r => view r.regs = w l) (hhit _) fun r hr k hk => ?_
  by_cases hPk : P k
  · rw [hpost k hk (hdest k hPk)]; exact hhit r
  · rw [hw r k, if_neg hPk, hr]

end

/-! ### Sticky bits, flags, and what lands later -/

/-- A meeting sets WCONF, whatever the program clears (R18, R84). -/
theorem Ctx.landAll_wconf (c : Ctx) (h : anyMeet (sortLandings c.dueNow) = true) : c.landAll.sys.wconf = true := by
  simp [Ctx.landAll, Sys.set, h]

/-- COLL as the hardware sets it stands against a program's clear (R18). -/
theorem Ctx.landAll_coll (c : Ctx) (h : c.sets.getLsbD 2 = true) : c.landAll.sys.coll = true := by
  simp [Ctx.landAll, Sys.set, h]

theorem getLsbD_foldl_flags (ls : List Landing) (f : Fl) (k : Nat) :
    (ls.foldl (fun f l => f ||| l.flags) f).getLsbD k = (f.getLsbD k || ls.any fun l => l.flags.getLsbD k) := by
  induction ls generalizing f with
  | nil => simp
  | cons l ls ih => simp [ih, Bool.or_assoc]

/-- The flags of what lands, and those the hardware sets, stand against a program's clear (R21). -/
theorem Ctx.landAll_flags (c : Ctx) {k : Nat}
    (h : (∃ l ∈ c.dueNow, l.flags.getLsbD k = true) ∨ c.fsets.getLsbD k = true) : c.landAll.sys.flags.getLsbD k = true := by
  simp only [Ctx.landAll, getLsbD_foldl_flags, BitVec.getLsbD_or, Bool.or_eq_true, List.any_eq_true, mem_sortLandings]
  rcases h with h | h
  · exact .inr h
  · exact .inl (.inr h)

theorem Ctx.landAll_land (c : Ctx) :
    c.landAll.land = (c.land.filter fun l => decide (1 < l.left)).map fun l => { l with left := l.left - 1 } :=
  Ctx.foldl_landOne_land _ _

/-- Settles O29: the landings of a clk are a fold over the results due in the order of R84, so that a register holds what the last of
its own wrote, and what none of them writes is left alone. -/
theorem resultsLand : Obligations.ResultsLand := by
  unfold Obligations.ResultsLand
  intro c
  refine ⟨fun l hl => ⟨fun i hd hi => ?_, fun i hd hi => ?_, fun i hd hi => ?_, fun i hd hi => ?_, fun i k hd hk hlane => ?_⟩,
    fun i h => ?_, fun i h => ?_, fun i h => ?_, fun i h => ?_, fun i k hk h => ?_,
    c.landAll_wconf, c.landAll_coll, fun l k h => c.landAll_flags (h.imp_left fun h => ⟨l, h⟩), c.landAll_land⟩
  · exact c.landAll_wins (writes_s i) hl ⟨hd, hi⟩ fun k h => h.1.trans hd.symm
  · exact c.landAll_wins (writes_p i) hl ⟨hd, hi⟩ fun k h => h.1.trans hd.symm
  · exact c.landAll_wins (writes_m i) hl ⟨hd, hi⟩ fun k h => h.1.trans hd.symm
  · exact c.landAll_wins (writes_k i) hl ⟨hd, hi⟩ fun k h => h.1.trans hd.symm
  · exact c.landAll_wins (writes_v i hk) hl ⟨hd, hlane⟩ fun k h => h.1.trans hd.symm
  · exact c.landAll_kept (writes_s i) fun l hl hP => h.elim hP.2 fun h => h l hl hP.1
  · exact c.landAll_kept (writes_p i) fun l hl hP => h.elim hP.2 fun h => h l hl hP.1
  · exact c.landAll_kept (writes_m i) fun l hl hP => h.elim hP.2 fun h => h l hl hP.1
  · exact c.landAll_kept (writes_k i) fun l hl hP => h.elim hP.2 fun h => h l hl hP.1
  · exact c.landAll_kept (writes_v i hk) fun l hl hP => Bool.false_ne_true ((h l hl hP.1).symm.trans hP.2)

end Sys2Proof.Machine
end

section
/-! SUPPORT. Scalar arithmetic, compares, predicate logic and SEL (R101 to R108): the values of the tables in the tables' own words, and
the one result that a syllable of slots S0 and S1 brings. Settles `Obligations.ScalarArithmeticResults` and
`Obligations.PredicateResults`. -/

namespace Sys2Proof.Machine

open Sys2Proof.Rules

/-! ### The values of R104 to R107 in the words of their tables -/

/-- Bits [5:0] of a word are its value modulo 64. -/
theorem shiftCount_eq_mod (w : Word) : shiftCount w = w.toNat % 64 := by
  simp only [shiftCount, BitVec.extractLsb'_toNat, Nat.shiftRight_zero, Nat.reducePow]

theorem minWord_eq_ite (a b : Word) : minWord a b = if b.toInt < a.toInt then b else a := by
  simp only [minWord, BitVec.slt, decide_eq_true_eq]

theorem maxWord_eq_ite (a b : Word) : maxWord a b = if a.toInt < b.toInt then b else a := by
  simp only [maxWord, BitVec.slt, decide_eq_true_eq]

section
variable (a b : Word)

theorem SCmp.eval_eq : SCmp.eval .eq a b = decide (a = b) := rfl
theorem SCmp.eval_ne : SCmp.eval .ne a b = decide (a ≠ b) := decide_not.symm
theorem SCmp.eval_lt : SCmp.eval .lt a b = decide (a.toInt < b.toInt) := rfl
theorem SCmp.eval_ge : SCmp.eval .ge a b = decide (b.toInt ≤ a.toInt) := by
  simp only [SCmp.eval, BitVec.slt, ← decide_not, Int.not_lt]
theorem SCmp.eval_ltu : SCmp.eval .ltu a b = decide (a.toNat < b.toNat) := rfl
theorem SCmp.eval_geu : SCmp.eval .geu a b = decide (b.toNat ≤ a.toNat) := by
  simp only [SCmp.eval, BitVec.ult, ← decide_not, Nat.not_lt]

end

/-! ### What a scalar syllable brings -/

section
variable {s : State} {i : Instr} {tg : Tag2} {slot : Nat} {cls : Fin 16}

/-- A scalar operation whose value is `w` puts it in flight to s(d) when its condition is 1 (R73, R101). -/
theorem scalarOp_begun {lat : Nat} {d : BitVec 5} {f : State → Word} {w : Word} (hf : f (s.begun i slot) = w) :
    scalarOp tg cls lat d f (s.begun i slot) =
      s.acted i slot cls (if s.condS tg then [⟨slotOf tg 0, lat, .s (physReg s.me.sys.rot d), w, [], 0, 0⟩] else []) s.fr.solo := by
  unfold scalarOp
  rw [State.condS_begun, hf]
  exact gate_putS ..

/-- A compare or predicate operation whose truth is `b` puts it in flight to p(pd) when its condition is 1 (R73, R106, R107). -/
theorem predOp_begun {pd : BitVec 3} {f : State → Bool} {b : Bool} (hf : f (s.begun i slot) = b) :
    predOp tg pd f (s.begun i slot) =
      s.acted i slot 0 (if s.condS tg then [⟨slotOf tg 0, 1, .p ⟨pd.toNat, pd.isLt⟩, if b then 1 else 0, [], 0, 0⟩] else [])
        s.fr.solo := by
  unfold predOp
  rw [State.condS_begun, hf]
  exact gate_putP ..

/-- SEL puts s(a) or s(b) in flight, as its condition says (R108). -/
theorem actSel_begun {d a b : BitVec 5} :
    actSel tg d a b (s.begun i slot) =
      s.acted i slot 0 [⟨slotOf tg 0, 1, .s (physReg s.me.sys.rot d), if s.condS tg then s.rdS a else s.rdS b, [], 0, 0⟩]
        s.fr.solo := by
  unfold actSel
  rw [State.condS_begun, State.rdS_begun, State.rdS_begun, State.enter_acted]
  exact State.putS_acted (Frame.solo_same _) ..

variable {rs : List Result} {legal : State → Bool} {chk : State → Option Trap} {act : State → State}

/-- An instruction whose checks pass and whose syllable, when it acts, puts the results `rs` in flight, brings them. -/
theorem brings_of_syl (hp : Passes s i) (hk : isKwait i = false) (hy : sylOf i = some ⟨slot, legal, chk, act⟩)
    (ha : act (s.begun i slot) = s.acted i slot cls rs s.fr.solo) : Brings s i slot cls rs :=
  brings_of_passes _ hp hk (Frame.solo_same _) fun y h => by
    obtain rfl : _ = y := Option.some.inj (hy.symm.trans h)
    exact ⟨rfl, ha⟩

/-- A row of one result holds of an instruction whose syllable puts that result in flight when its condition is 1. -/
theorem brings_sRow {r : Rules.Row} {lat : Nat} {dest : State → Dest} {word : State → Word}
    (hr : some (sRow tg cls lat dest word) = some r) (hp : Passes s i) (hk : isKwait i = false)
    (hy : sylOf i = some ⟨slotOf tg 0, legal, chk, act⟩)
    (ha : act (s.begun i (slotOf tg 0)) =
      s.acted i (slotOf tg 0) cls (if s.condS tg then [⟨slotOf tg 0, lat, dest s, word s, [], 0, 0⟩] else []) s.fr.solo) :
    Brings s i r.slot r.cls (if r.cond s then r.results s else []) := by
  cases hr
  exact brings_of_syl hp hk hy ha

end

/-! ### The tables -/

/-- Settles O5: every row of the table is a scalar operation, whose value is the table's. -/
theorem scalarArithmeticResults : Obligations.ScalarArithmeticResults := by
  unfold Obligations.ScalarArithmeticResults
  intro s i r hr hp
  unfold arithRow at hr
  split at hr
  case h_29 => cases hr -- an instruction that has no row
  all_goals refine brings_sRow hr hp rfl rfl (scalarOp_begun ?_)
  all_goals
    simp only [State.rdS_begun, State.literal_begun, shiftCount_eq_mod, minWord_eq_ite, maxWord_eq_ite, mulhWord, clzWord, popWord, immS,
      BitVec.ofNat_eq_ofNat]

/-- Settles O6: but for SEL, every row of the table is a compare or a predicate operation, whose truth is the table's. -/
theorem predicateResults : Obligations.PredicateResults := by
  unfold Obligations.PredicateResults
  intro s i r hr hp
  unfold predRow at hr
  split at hr
  case h_13 => -- SEL
    cases hr
    exact brings_of_syl hp rfl rfl actSel_begun
  case h_14 => cases hr -- an instruction that has no row
  all_goals refine brings_sRow hr hp rfl rfl (predOp_begun ?_)
  all_goals
    simp only [State.rdS_begun, State.rdP_begun, SCmp.eval_eq, SCmp.eval_ne, SCmp.eval_lt, SCmp.eval_ge, SCmp.eval_ltu, SCmp.eval_geu,
      immS, immU, BitVec.toInt_signExtend_of_le, BitVec.toNat_setWidth_of_le, POp.eval, Bool.beq_eq_decide_eq, Nat.reduceLeDiff]

end Sys2Proof.Machine
end
